-- ==== Sys2Proof/Word.lean ====
section
/-! DEFINITION. The word types of the 7264: bytes, parameter words, T64 times, segment handles, and their plainest
arithmetic. -/

namespace Sys2Proof

/-- One byte of host memory, of a packet or of an image (R5). -/
abbrev Byte := BitVec 8

/-- One parameter word (R405). -/
abbrev Word := BitVec 32

/-- A time in fine units of 1/1024 tick (R12). -/
abbrev T64 := BitVec 64

/-- A segment handle (R70). -/
abbrev Handle := BitVec 20

/-- The handle that names no image (R70). -/
def noHandle : Handle := 0xFFFFF#20

end Sys2Proof
end

