-- ==== Sys2Proof/Syntax.lean ====
section
/-! DEFINITION. The commands of the block: one constructor of `Instr` per row of spec/opcode_table.json, and the operand
types they carry. The table gives no row any bits, so the operands are read from each row's rule. -/

namespace Sys2Proof

/-- The number of a ridge, DPS channel or analog port (R9). -/
abbrev RidgeId := Fin 16

/-- A global pin number (R9). -/
abbrev PinId := Fin 256

/-- What a submission-ring packet's header and launch word give its command (Table 11-5, R277). -/
structure Hdr where
  /-- submission ring that carried the packet -/
  ring : Fin 64
  /-- per-ring sequence number (R278) -/
  seq : Word
  /-- echoed in the reply -/
  tag : BitVec 16
  /-- LENGTH in units, header and launch word included -/
  length : BitVec 16
  /-- ridge field of TARGET, 0xF for all or none -/
  ridge : BitVec 4
  /-- the launch word, present when flag LAUNCH_AT is set -/
  launchAt : Option T64
  suppress : Bool
  multicast : Bool
  asap : Bool
  /-- position of the entry device when the packet came over the ring (R293) -/
  remote : Option (BitVec 7)
  /-- how often the ring had been enabled when it took the packet: it tells a packet from one of the same SEQ that an earlier
  enabling left unanswered (R272) -/
  era : Nat := 0
  deriving DecidableEq, Repr

/-- The access paths to the parameter map (R290, R327, Table 11-9). -/
inductive Path where
  /-- a PARAM_WRITE, PARAM_READ or PARAM_WRITE_MULTI packet -/
  | packet (h : Hdr)
  /-- the BAR0 parameter window -/
  | window
  /-- the slave port of CSP n -/
  | slave (n : Fin 2)
  /-- a read of BAR0 outside the parameter window, at a byte offset (Table 11-2); carries reads only -/
  | bar0 (offset : BitVec 21)
  /-- a read of the endpoint's PCI Express configuration space, at a byte offset (R270); carries reads only -/
  | config (offset : BitVec 12)
  deriving DecidableEq, Repr

/-- A register that REGISTER_WRITE can name: a parameter index, a BAR0 byte offset (Table 11-2), or a byte offset of the endpoint's
configuration space (R270). -/
inductive RegLoc where
  | param (index : BitVec 13)
  | bar0 (offset : BitVec 21)
  | config (offset : BitVec 12)
  deriving DecidableEq, Repr

/-- A command packet as DMA delivers it: header fields, CRC field, and the bytes from byte 16 on (R277). -/
structure Packet where
  opcode : Byte
  flags : Byte
  length : BitVec 16
  tag : BitVec 16
  target : BitVec 16
  seq : Word
  crc : Word
  rest : List Byte
  deriving DecidableEq, Repr

/-- A segment image as DMA delivers it (Table 3-1); `reserved` are header bytes 13-15 and 32-59 in order, and `payload` is
the 16,384-byte payload as 1,024 words of 128 bits, the first lowest (R72). -/
structure SegImage where
  magic : BitVec 16
  version : Byte
  kind : Byte
  handle : Word
  next : Word
  bodySpan : Byte
  label : List Byte
  reserved : List Byte
  crc : Word
  payload : List (BitVec 128)
  deriving DecidableEq, Repr

/-- A set record (Table 4-3): PERIOD, FORMAT, header bytes 8-15, and per lane six edge words and the reserved 8 bytes. -/
structure SetRecord where
  period : Word
  format : Word
  reserved : BitVec 64
  lanes : List (List Word × BitVec 64)
  deriving DecidableEq, Repr

/-- The comparator states of R34 and R136. -/
inductive Cmp where
  | low | mid | high
  deriving DecidableEq, Repr

/-- What the SECDED check of a read from HBM finds (R33, R372). -/
inductive Secded where
  | clean | corrected | failed
  deriving DecidableEq, Repr

/-- The header of a firmware or patch image (Table 14-3), less its cryptographic strings, with the verdicts of the
cryptographic steps 2 to 4 of R336. -/
structure FwImage where
  magic : Word
  kind : Byte
  version : Byte
  payloadLen : Word
  level : BitVec 16
  partnerMin : BitVec 16
  partnerMax : BitVec 16
  minRev : Byte
  /-- the reserved bytes 6-7, 19 and 48-63 are zero -/
  reservedZero : Bool
  keyHashOk : Bool
  sigOk : Bool
  gcmOk : Bool
  /-- a patch's decrypted payload: its 32 entries and its microcode words -/
  entries : List Word
  words : List (BitVec 128)
  deriving DecidableEq, Repr, Inhabited

/-- The reset-time inputs: straps (R295, R319, R423) and whether REFCLK was clean for 1 ms (R121). -/
structure Straps where
  mstr : Bool
  ringId : BitVec 3
  csp0Slave : Bool
  csp1Slave : Bool
  refclkClean : Bool
  deriving DecidableEq, Repr

/-- What the fuses hold (Table 14-5), less the trims of the analog paths; `rowError` is an uncorrectable row (R342). -/
structure Fuses where
  dieSerial : BitVec 128
  debug : Bool
  xoTcomp : List (BitVec 24)
  rowError : Bool
  /-- the bad row lies in KEY_HASH or PATCH_KEY -/
  keyRowError : Bool
  /-- the bad row lies in DEBUG -/
  debugRowError : Bool
  deriving DecidableEq, Repr

/-- One measured correction of a CAL_RUN (R346, Table 14-7): the item and the (gain, offset) the measurement needs. -/
structure CalResult where
  cls : Fin 8
  unit : Fin 256
  item : Fin 32
  gain : Int
  offset : Int
  /-- a converter's noise and VREF_P checks of R347 fail -/
  outOfBounds : Bool
  deriving DecidableEq, Repr

/-- A slave frame as received (Table 13-2). -/
structure CspFrame where
  addr : BitVec 16
  alive : BitVec 4
  /-- the word count field c − 1 -/
  cm1 : BitVec 4
  data : List Word
  /-- the request CRC field received -/
  crc : BitVec 16
  /-- clock edges seen while the select was asserted -/
  edges : Nat
  /-- ticks for which the select has been asserted as the row comes -/
  selected : Nat
  deriving DecidableEq, Repr

/-- A ring token's entry or a member record (Table 12-3). -/
structure Member where
  quarantined : Bool
  pcieUp : Bool
  reachable : Bool
  extParent : Bool
  unfed : Bool
  loader : Bool
  baseline : Bool
  fwLevel : BitVec 16
  patchLevel : BitVec 16
  revision : Byte
  depth : Byte
  parent : Byte
  output : Byte
  deriving DecidableEq, Repr

/-- What SYNC_CAL finds of one member (R312): the parent and output whose discovery pulse it saw, whether its CAIRN_IN carries frames,
its input hop delay h, and the GLB_CAIRN_EXT_DLY that it would use with an external parent. -/
structure SyncInfo where
  seen : Option (Byte × Byte)
  fed : Bool
  hop : Word
  ext : Word
  deriving DecidableEq, Repr

/-- How a link frame reaches the device: on the reverse lanes of RING_B, or on the forward lanes of RING_A, and its sequence number
(R291, R292). -/
structure Via where
  reverse : Bool
  seq : Nat
  deriving DecidableEq, Repr

/-- A reply as it travels on the ring or is written to a completion ring (Table 11-7). -/
structure Reply where
  opcode : Byte
  status : Byte
  tag : BitVec 16
  info : Word
  time : T64
  deriving DecidableEq, Repr

/-- What travels to another device besides replies, tokens and events: a packet with its entry device and ring (R293), or DMA traffic
for the Summit's link (R294). -/
inductive RingLoad where
  | packet (entry : BitVec 7) (ring : Fin 64) (era : Nat) (pkt : Packet)
  | dma (addr : BitVec 64) (data : List Byte)
  deriving DecidableEq, Repr

/-- What a reply on the ring answers: the packet's entry device, its ring with the ring's era, and its SEQ (R293). -/
structure ReplyTo where
  entry : BitVec 7
  ring : Fin 64
  era : Nat
  seq : Word
  deriving DecidableEq, Repr

/-- A ring event and the position of its sender (R364). -/
structure RingEvent where
  k : Fin 8
  position : BitVec 7
  deriving DecidableEq, Repr

/-- Hop values by position, as the members send them to the Summit, and the DLY that the Summit sends back (R313). -/
structure HopEcho where
  hops : List Word
  dly : List Word
  deriving DecidableEq, Repr

/-- A port whose pass of a segment ends, and the outcome of the read of its successor (R183). -/
structure AwgEnd where
  port : RidgeId
  read : Secded
  deriving DecidableEq, Repr

/-- Where the engine stands at a sample: the stream index of the sample, and the index and the value of the sample that armed it
(R191, R194). -/
structure TrigPlace where
  index : Nat
  arm : Nat
  x : BitVec 16
  deriving DecidableEq, Repr

/-- A monitor of R360 that releases on its own input: a supply monitor, or the shutdown comparator of a sensor. -/
inductive MonitorId where
  | supply (m : Fin 12)
  | comparator (k : Fin 24)
  deriving DecidableEq, Repr

/-- What a DMA write that failed was serving (R376). -/
inductive DmaTarget where
  | queue (id : BitVec 14)
  | completion (c : Fin 64)
  | other
  deriving DecidableEq, Repr

/-- A Dectik link (R291, R300): the device's own RING_A or RING_B, or one further round the ring, named by the position of the
device upstream of it. -/
inductive RingLink where
  | a | b
  | far (upstream : BitVec 7)
  deriving DecidableEq, Repr

/-- A link, and for how many ticks it has had no lane lock, or has been up again (R292, R300). -/
structure LinkTime where
  link : RingLink
  ticks : Nat
  deriving DecidableEq, Repr

/-- The parts of R304's frame that a device receives. -/
structure CairnFrame where
  epoch : BitVec 48
  period : BitVec 14
  crc : Byte
  deriving DecidableEq, Repr

/-- The commands: one constructor per row of spec/opcode_table.json, in the table's order. -/
inductive Instr where
  | identify (h : Hdr) (addr : BitVec 64)
  | paramWrite (h : Hdr) (index : BitVec 16) (value : Word)
  | paramRead (p : Path) (first : BitVec 16) (count : BitVec 16) (addr : BitVec 64)
  | paramWriteMulti (h : Hdr) (count : BitVec 16) (pairs : List (BitVec 16 × Word))
  | saveState (h : Hdr)
  | saveStateDone (readBackOk : Bool)
  | restoreState (h : Hdr) (source : Byte) (crcOk : Bool)
  | segLoad (h : Hdr) (handle : Word) (addr : BitVec 64)
  | segLoadDone (handle : Handle) (img : SegImage)
  | segRelease (h : Hdr) (handle : Word)
  | segPin (h : Hdr) (handle : Word)
  | segUnpin (h : Hdr) (handle : Word)
  | progBind (h : Hdr) (handle : Word) (unbind : Bool) (maxBody d : Byte) (targets : List Word)
  | timingWrite (h : Hdr) (bank first count : Byte) (records : List SetRecord)
  | timingSwap (h : Hdr)
  | timingSwapApply (r : RidgeId)
  | timingCopyDone (r : RidgeId)
  | launch (h : Hdr) (resume bySite : Bool) (site : Byte) (mask : BitVec 16)
  | launchTick (r : RidgeId)
  | halt (h : Hdr) (park bySite : Bool) (site : Byte) (mask : BitVec 16)
  | haltAtBoundary (r : RidgeId)
  | eventJumpArm (h : Hdr) (source : Byte) (disarm : Bool) (target : Word)
  | eventJumpLatch (r : RidgeId)
  | eventJump (r : RidgeId)
  | measure (h : Hdr) (selector nMinus1 : BitVec 16) (conv : BitVec 6) (pinned : Bool) (queue : BitVec 16)
  | measureStart (ticket : BitVec 17)
  | measureEnd (ticket : BitVec 17) (samples : List Int) (atLimit : Bool)
  | timeMeasure (h : Hdr) (pinA edges pinB timu : Byte) (count queue : BitVec 16) (limit : BitVec 64)
  | timuJobStart (ticket : BitVec 17)
  | timuJobEnd (ticket : BitVec 17)
  | captureArm (h : Hdr) (bySite siteLanes : Bool) (site : Byte) (laneMask frames queue : BitVec 16) (buf : BitVec 64)
      (nb : Word)
  | acqArm (h : Hdr) (dig awg stream : Bool) (k : BitVec 16) (pre post : Word) (frames queue : BitVec 16) (buf : BitVec 64)
      (nb : Word)
  | queueConfig (h : Hdr) (queue : BitVec 16) (enable ringSize : Byte) (reservation : Word) (ringBase wbAddr : BitVec 64)
      (cring : Byte) (drainThr : BitVec 16) (stale : Word)
  | queueFlush (h : Hdr) (queue : BitVec 16) (mode : Byte)
  | queueFlushBoundary (queue : BitVec 14)
  | eventRoute (h : Hdr) (source action : Byte) (enable : Bool)
  | siteMap (h : Hdr) (site : Byte) (clear : Bool) (mask : BitVec 256)
  | calRun (h : Hdr) (scope : Byte)
  | calRunDone (results : List CalResult)
  | faultRead (h : Hdr) (addr : BitVec 64)
  | faultClear (h : Hdr) (mask : BitVec 64)
  | faultInject (h : Hdr) (bit count : Byte)
  | ringEnum (h : Hdr) (addr : BitVec 64)
  | syncCal (h : Hdr) (options : Byte)
  | syncCalDone (members : List SyncInfo) (dly : List Word)
  | fwUpdate (h : Hdr) (target : Byte) (len : Word) (addr : BitVec 64) (img : FwImage)
  | fwUpdateDone
  | echo (h : Hdr) (addr : BitVec 64) (data : List Byte)
  | nop (r : RidgeId) (parityError : Bool)
  | repeatVector (r : RidgeId)
  | loopBegin (r : RidgeId)
  | loopEnd (r : RidgeId)
  | loopExit (r : RidgeId)
  | jump (r : RidgeId)
  | call (r : RidgeId)
  | ret (r : RidgeId)
  | jumpFail (r : RidgeId)
  | jumpPass (r : RidgeId)
  | jumpTimeout (r : RidgeId)
  | clrFail (r : RidgeId)
  | matchVector (r : RidgeId)
  | matchEnd (r : RidgeId)
  | apgLoad (r : RidgeId)
  | apgOp (r : RidgeId)
  | signal (r : RidgeId)
  | checkpoint (r : RidgeId)
  | haltOpcode (r : RidgeId)
  | illegalOpcode (r : RidgeId)
  | stagingFetchDone (r : RidgeId) (handle : Handle) (read : Secded)
  | holdResume (r : RidgeId)
  | holdTimeout (r : RidgeId)
  | owlFactorApply (r : RidgeId)
  | refclkLoss
  | refclkPresent
  | clockRevert
  | tcompUpdate
  | ageUpdate (residual : Int)
  | pinCfg (path : Path) (p : PinId) (value : Word)
  | pinModeDone (p : PinId) (voltage : Int)
  | pinPmuCfg (path : Path) (p : PinId) (value : Word)
  | driverOvercurrent (p : PinId)
  | pmuCompliance (p : PinId)
  | pmuComplianceEnd (p : PinId)
  | comparatorTransition (p : PinId) (voltage : Int) (stamp : T64)
  | dpsCfg (path : Path) (n : RidgeId) (value : Word)
  | dpsLevel (path : Path) (n : RidgeId) (value : Word)
  | dpsSlewUpdate (n : RidgeId)
  | dpsCurrentLimit (n : RidgeId)
  | dpsCompliance (n : RidgeId)
  | dpsLimitClear (n : RidgeId)
  | dpsOpenLoad (n : RidgeId)
  | dpsSenseOpen (n : RidgeId)
  | dpsSenseRestore (n : RidgeId)
  | boosterFault (n : RidgeId)
  | dpsNcoUpdate (n : RidgeId)
  | dpsNcoFreq (path : Path) (n : RidgeId) (value : Word)
  | dpsNcoPhase (path : Path) (n : RidgeId) (value : Word)
  | dpsPowerWindow (power : List (BitVec 16)) (current : List (BitVec 16))
  | dpsCapRelease (n : RidgeId)
  | dpsStatus (path : Path) (n : RidgeId) (value : Word)
  | awgStart (n : RidgeId)
  | awgSegmentEnd (e : AwgEnd)
  | stopAwg (path : Path) (n : RidgeId)
  | stopAcq (path : Path) (n : RidgeId)
  | aptNcoFreq (path : Path) (n : RidgeId) (value : Word)
  | aptNcoPhase (path : Path) (n : RidgeId) (value : Word)
  | acqStart (n : RidgeId)
  | analogTrigger (n : RidgeId) (s0 s1 : BitVec 16) (place : TrigPlace)
  | triggerHoldoffEnd (n : RidgeId)
  | recordComplete (n : RidgeId) (samples : List (BitVec 16))
  | acqPostEnd (n : RidgeId) (samples : List (BitVec 16))
  | analogBlockComplete (n : RidgeId) (samples : List (BitVec 16))
  | analogBlockCopy (n : RidgeId) (read : Secded)
  | aptHostRd (path : Path) (n : RidgeId) (value : Word)
  | captureWindowEnd (r : RidgeId)
  | captureBlockTimeout (r : RidgeId)
  | captureBlockCopy (r : RidgeId) (read : Secded)
  | rdgCapHostRd (path : Path) (r : RidgeId) (value : Word)
  | anchor (r : RidgeId)
  | packetAdmission (queue : BitVec 14)
  | staleTimer (queue : BitVec 14)
  | drainStart (queue : BitVec 14) (uncorrectable : List (BitVec 12))
  | drainDone (queue : BitVec 14)
  | queueHeadWrite (queue : BitVec 14) (value : Word)
  | doorbell (ring : Fin 64) (value : Word)
  | packetFetch (ring : Fin 64) (pkt : Packet) (completionError : Bool)
  | sqEnable (ring : Fin 64) (value : Word)
  | sqResume (ring : Fin 64) (value : Word)
  | cqEnable (ring : Fin 64) (value : Word)
  | cqHeadWrite (ring : Fin 64) (value : Word)
  | pendingNoticeWrite (ring : Fin 64)
  | cqIrqTimer (ring : Fin 64)
  | dmaWriteError (target : DmaTarget) (again : Bool)
  | timedWriteApply
  | registerWrite (path : Path) (loc : RegLoc) (value : Word)
  | replay (path : Path) (value : Word)
  | reclaim (path : Path) (value : Word)
  | linkFrameResend (portB : Bool)
  | linkDown (l : LinkTime)
  | linkRestored (l : LinkTime)
  | ringPacketArrival (reverse : Bool) (seq : Nat) (load : RingLoad)
  | ringReplyArrival (via : Via) (to_ : ReplyTo) (sender : BitVec 7) (reply : Reply)
  | enumStart
  | enumRetry
  | enumToken (via : Via) (count : BitVec 8) (own closed : Bool) (entries : List Member)
  | cairnFrameSend
  | cairnFrameReceive (f : CairnFrame) (reserved : BitVec 2) (stamp : T64)
  | cairnLoad (replicaDisagrees : Option RidgeId)
  | cairnRelaunch
  | cairnMissed
  | discoveryPulse (parent : Byte) (output : Byte)
  | echoPulse (stamp : T64)
  | echoTurnaround
  | echoReturn (output : Bool) (driven returned : T64)
  | bgTrackEcho (e : HopEcho)
  | ringEventReceive (via : Via) (e : RingEvent)
  | cspWrite (n : Fin 2) (f : CspFrame)
  | cspWriteApply (n : Fin 2)
  | cspRead (n : Fin 2) (f : CspFrame)
  | cspStatus (n : Fin 2) (f : CspFrame)
  | xipMiss (addr : BitVec 32)
  | xipLineFill (addr : BitVec 32)
  | porRelease (straps : Straps) (fuses : Fuses)
  | foxRelease
  | sfdpRead (valid xspiProfile sizeOk : Bool) (continuous : Bool)
  | firmwareVerify (img : Option FwImage)
  | patchLoad (img : Option FwImage)
  | pcieLinkUp
  | powerupCalDone
  | hbmTrainingDone (slotsOk : List Bool)
  | rsiApply (newerReadsOk otherReadsOk : Bool)
  | foxWatchdog
  | tempConversion (sensor : Fin 24) (value : Int)
  | sensorRecover (sensor : Fin 24)
  | owlGraceExpiry
  | owlRelease
  | thermalShutdown (sensor : Fin 24)
  | supplyResetFault (m : Fin 12)
  | supplyDip (m : Fin 12)
  | suspectWindowEnd (m : Fin 12)
  | monitorRelease (m : MonitorId)
  | monitorTimeout (m : Fin 12)
  | pmonGate (counts : List (BitVec 20))
  | eventDelivery (col : Option (Fin 47))
  | glbEvtFire (path : Path) (value : Word)
  | bgCal (conv : Fin 64) (gain offset : Int)
  | parkWaitExpiry
  | quietPeriodEnd
  | recoveryComplete
  | hostReset (path : Option Path) (straps : Straps)
  | reset (path : Path) (r : RidgeId)
  | ridgeResetRelease (r : RidgeId)
  | hbmTrainingLoss
  | multiplierLockLoss
  | fatalSourceDeasserts (bit : Fin 64)
  | porNAssert
  | badCmdFrame (n : Fin 2) (f : CspFrame)
  deriving DecidableEq, Repr

end Sys2Proof
end

