-- ==== Sys2Proof/Config.lean ====
section
/-! DEFINITION. The values the manual leaves open: constants with no body, so that no proof can see what they are. -/

namespace Sys2Proof

/-- Whether the slot copy of a handle stays as a cache when its hold ends (R77, R78, R249 leave the choice of slot open);
applied to the free-value counter. Free value, log entry 2. -/
opaque Config.keepsCopy : Nat → Handle → Bool

/-- The microcode address that an INTERNAL reply carries (Table 11-8). Free value, log entry 2. -/
opaque Config.microAddress : Nat → Word

/-- The detail and padding of a fault log entry that no rule fixes (Table 16-4 bytes 16-19). Free value, log entry 2. -/
opaque Config.logDetail : Nat → Word

/-- The ADC result of a wide value is the operand of its row; the rms noise of a converter that CAL_RUN records (Table 14-7
class 4 item 1). Free value, log entry 2. -/
opaque Config.noise : Nat → Word

/-- The voltage code from which a DPS in FI slews to its fault value (R163 gives no start for it). Free value, log
entry 2. -/
opaque Config.startLevel : Nat → Nat

/-- The full scale in nA of the BOOST range when SHUNT holds 0 (80 mV ÷ 0, R166). Free value, log entry 2. -/
opaque Config.boostScale : Nat

/-- Whether a value whose rounding no rule fixes goes up: a tie between the two nearest codes (R148, R154), or the fraction
of an effective limit (R172). Free value, log entry 2. -/
opaque Config.roundsUp : Int → Nat → Bool

/-- The status byte of the TICKET_END that ends an acquisition which STOP_ACQ stops with no block left to carry LAST (no rule
gives its end). Free value, log entry 2. -/
opaque Config.emptyEnd : Nat → Byte

/-- The sensor that R126 calls the core temperature sensor (Table 15-1 names none so). Free value, log entry 2. -/
opaque Config.coreSensor : Fin 24

/-- The resonator's table correction outside the 0 to 110 °C of its fused points (R124 states none). Free value, log entry
2. -/
opaque Config.tcompOutside : Int → BitVec 24

/-- How far background calibration may move a converter's gain and offset, in their codes: R349 gives its bound in percent and
microvolts, and no rule gives the step of a converter's pair. Free value, log entry 2. -/
opaque Config.bgGain : Nat
opaque Config.bgOffset : Nat

/-- The drift correction that background calibration finds for a pin's drive or compare edges, in fine units (R119, R349).
Free value, log entry 2. -/
opaque Config.drift : Nat → Nat → Int

/-- The image that an FW_UPDATE taken from a submission ring finds at its host address: the host's own memory is not part of
the model. Free value, log entry 2. -/
opaque Config.fetchedImage : BitVec 64 → Word → Nat → FwImage

/-- Whether a forwarded packet had been acknowledged as taken when its ring split within the forwarding bound (R293, R301).
Free value, log entry 2. -/
opaque Config.acknowledged : Nat → Bool

/-- q of R192 where s0 and s1 both equal LEVEL: its quotient is 0 / 0. Free value, log entry 2. -/
opaque Config.flatCrossing : Nat → Fin 257

/-- Whether an analog input is beyond its range at a sample that no record holds (R178): the port, and the tick. Free value, log
entry 2. -/
opaque Config.inputLeaves : RidgeId → Nat → Bool

/-- Whether a word of no kind that the model follows is in flight on a col when a side of it is reset (R402): the free-value
counter, the col, and whether it goes to the second-named island. Free value, log entry 2. -/
opaque Config.inFlight : Nat → Nat → Bool → Bool

/-- What the words of the PCI Express configuration space hold that Table 11-1 does not give: the vendor ID and the revision ID among
them. Free value, log entry 2. -/
opaque Config.pciConfig : Nat → Word

/-- Whether a link's oldest frame is acknowledged at a tick (R292): the port, and the tick. Free value, log entry 2. -/
opaque Config.linkAck : Bool → Nat → Bool

/-- The internal delay of an output's echo path, in fine units, as CAL_RUN has measured it (R310). Free value, log entry 2. -/
opaque Config.echoPath : Bool → Int

/-- A data word of the reply to a slave READ that is discarded as a repeat or under R329, its request CRC being right: no rule states
it. The free-value counter, and the word's place. Free value, log entry 2. -/
opaque Config.discardedRead : Nat → Nat → Word

/-- What GLB_CAIRN_LAST_CORR shows of a Δ beyond 32 bits (R307). Free value, log entry 2. -/
opaque Config.bigCorr : Int → Word

end Sys2Proof
end

