-- ==== Sys2Proof/Machine/State.lean ====
section
/-! DEFINITION. The state of the 7264 as plain data, the reasons a step can stop, and the state right after reset. -/

namespace Sys2Proof.Machine

/-- Why a step stops. -/
inductive Fault where
  /-- Raised by `step` alone, on a command whose operands lie outside what its row can carry (`Instr.WellFormed` fails).
  Safe: such a term is no command of the table. -/
  | illFormed
  deriving DecidableEq, Repr

/-- Why a command has no meaning. -/
inductive Refusal where
  /-- The command's row has no meaning yet. Raised by no arm of `exec` in this model. Safe. -/
  | notModelled (mnemonic : String)
  deriving DecidableEq, Repr

/-- A sparse store: strictly rising keys, no entry equal to what an unlisted key reads as. -/
abbrev Sparse (α : Type) := List (Nat × α)

/-! ### Sequencers (chapters 2, 3, 4) -/

/-- Sequencer states (Table 2-4). -/
inductive SeqState where
  | unbound | bound | armed | running | hold | parked
  deriving DecidableEq, Repr

/-- A vector address: segment handle and vector index (R38). -/
structure Addr where
  seg : Handle
  vec : BitVec 10
  deriving DecidableEq, Repr

/-- The outcome of the most recent MATCH that has ended (R53). -/
inductive MatchOutcome where
  | none | matched | timedOut
  deriving DecidableEq, Repr

/-- What a compare expects (Table 2-3). -/
inductive Expect where
  | low | high | mid | notMid
  deriving DecidableEq, Repr

/-- A compare window (R105): lane, expectation and its closed interval. -/
structure Window where
  lane : Fin 16
  expect : Expect
  opens : T64
  closes : T64
  deriving DecidableEq, Repr

/-- A log entry, or one MATCH repetition, whose compare windows have not all closed (R36, R52). -/
structure Entry where
  /-- log entry number; of a MATCH repetition, the repetition -/
  number : Nat
  /-- vector period in which it executed (R49) -/
  period : Nat
  /-- it is a repetition of a MATCH -/
  isRep : Bool
  masked : Bool
  /-- start of the vector -/
  start : T64
  windows : List Window
  deriving DecidableEq, Repr

/-- An armed event jump (R56). -/
structure Arm where
  source : Byte
  target : Addr
  /-- the event has reached the ridge and is not yet latched (R57), and when it did -/
  arrived : Bool
  at_ : T64
  deriving DecidableEq, Repr

/-- What follows when the vector being executed completes: the vector at `pc`, the end of the run, or a park (R41, R60). -/
inductive After where
  | go | stop | park
  deriving DecidableEq, Repr

/-- A HALT that has been posted to a ridge and waits for its time or a vector boundary (R59). -/
structure HaltReq where
  at_ : T64
  park : Bool
  deriving DecidableEq, Repr

/-- The APG registers (Table 2-7), 24 bits each. -/
structure Apg where
  x : BitVec 24
  y : BitVec 24
  xmax : BitVec 24
  ymax : BitVec 24
  dataCfg : BitVec 24
  dataSeed : BitVec 24
  defaultOp : BitVec 24
  scr : Vector (BitVec 24) 12
  map : Vector (BitVec 24) 6
  deriving DecidableEq, Repr

/-- A timing set (Table 4-3): N − 1, F, the format codes and six edge offsets per lane. -/
structure TimingSet where
  nMinus1 : BitVec 10
  fine : BitVec 10
  format : Word
  edges : Vector (Vector (BitVec 20) 6) 16
  deriving DecidableEq, Repr

/-- Per-site counters of a run's pass/fail log (R213). -/
structure SiteLog where
  site : Fin 64
  fails : Nat
  first : Option Nat
  /-- failing entries that some ridge of the site may still judge -/
  recent : List Nat
  /-- aborted in site scope: compares masked for the rest of the run (R380) -/
  aborted : Bool
  deriving DecidableEq, Repr

/-- Outcome of a run (Table 8-5). -/
inductive RunOutcome where
  | completed | invalid | gapped | aborted
  deriving DecidableEq, Repr

/-- A closed capture block (R210) waiting for its copy. -/
structure CapBlock where
  records : List (BitVec 64)
  number : Nat
  firstTime : T64
  last : Bool
  /-- time of the last record -/
  lastTime : T64
  lost : Bool
  failLost : Bool
  /-- outcome of the run, once it is over -/
  outcome : Option RunOutcome
  /-- the site summaries of a LAST block (Table 8-5), and whether one carries outcome 3 -/
  sites : List (BitVec 96)
  aborted : Bool
  deriving DecidableEq, Repr

/-- What waits to enter a stream: its time, its place among what has the same time (a lane's change by its lane, 16 a special
record or pair, 17 a log record), and whether a due LOST pair goes before it (R204, R209). -/
structure Due where
  at_ : T64
  rank : Nat
  recs : List (BitVec 64)
  loss : Bool
  deriving DecidableEq, Repr

/-- A change-capture stream armed on a ridge (R207 to R214). -/
structure Stream where
  ticket : BitVec 17
  /-- the site the ticket is armed BY_SITE on -/
  bySite : Option (Fin 64)
  lanes : BitVec 16
  queue : BitVec 14
  frames : List Nat
  /-- first byte of this stream's part of the host buffer, and its block count NBr -/
  buf : BitVec 64
  nb : Nat
  /-- records of the open block, in order -/
  cur : List (BitVec 64)
  curTime : T64
  curLast : T64
  openedAt : Nat
  curLost : Bool
  curFailLost : Bool
  /-- closed blocks in the region, oldest first, and how many of them are copied while their packets wait for admission (R245) -/
  closed : List CapBlock
  copied : Nat
  nextBlock : Nat
  /-- records in the elastic buffer at tick `elasticAt` (R209) -/
  elastic : Nat
  elasticAt : Nat
  /-- records lost since the previous LOST pair, and the time of the first -/
  lost : Nat
  lostFirst : T64
  /-- special records held until a frame is free, with their times (R209) -/
  held : List (T64 × BitVec 64)
  /-- records that have not entered the formatter, in the stream's order -/
  ahead : List Due
  /-- the capture window is open (R208), and the launch T64 that opened it -/
  active : Bool
  since : T64
  anchorAt : T64
  /-- RDG_CAP_HOST_RD as it stood when a later capture was armed -/
  rdAt : Option Nat
  /-- once its window is over: what its LAST block carries beside its records -/
  fin : Option CapBlock
  deriving DecidableEq, Repr

/-- One ridge: sequencer, APG, binding, slots, timing sets and capture (Tables 2-4 to 2-8, chapters 3, 4, 8). -/
structure Ridge where
  st : SeqState
  /-- bound first segment, MAX_BODY and declared targets (R91) -/
  first : Handle
  maxBody : Nat
  targets : List Handle
  pc : Addr
  /-- loop stack: first body vector and remaining count, top first (R46) -/
  loops : List (Addr × Word)
  /-- call stack, top first -/
  calls : List Addr
  /-- repetitions already executed of the vector at `pc` (R45, R51) -/
  rep : Nat
  /-- failing lanes of the judged MATCH repetitions, first repetition first (R51) -/
  repFails : List (BitVec 16)
  matchOut : MatchOutcome
  /-- vector periods executed in this run (R49) -/
  period : Nat
  /-- earliest failing period that the FAIL flag covers (R49) -/
  firstFail : Option Nat
  /-- periods below this one are cleared (CLR_FAIL) -/
  cleared : Nat
  /-- set directly by a MATCH TIMEOUT (R52) -/
  failNow : Bool
  /-- the flag as the last executed vector saw it (RDG_STATUS.FAIL) -/
  failSeen : Bool
  /-- entries whose windows are open, oldest first -/
  open_ : List Entry
  /-- log entries of the run (R212) -/
  entries : Nat
  maskedEntries : Nat
  inMask : Bool
  siteLogs : List SiteLog
  outcome : RunOutcome
  /-- number of the last CHECKPOINT vector executed, and whether it is of the current or last run (Table 18-3b) -/
  checkpoint : BitVec 16
  ckptValid : Bool
  /-- T64 of RUN_END while the capture window of the ended run is still open (R208) -/
  ended : Option T64
  apg : Apg
  /-- a park request is pending (R59) -/
  park : Bool
  halts : List HaltReq
  arm : Option Arm
  /-- vector periods still to run after the latch (R57); `some 0` is the jump instant -/
  jumpIn : Option Nat
  jumpTo : Addr
  /-- the vector at `pc` lies beyond a segment boundary that the ridge has not crossed: it comes with the end of the vector
  being executed, and with the rest of the gang (R54, R63, R64) -/
  atBoundary : Bool
  /-- the boundary is crossed, and a swap or a factor of Owl's is still to take effect at it (R103, R113) -/
  applyWait : Bool
  /-- what the end of the vector being executed brings -/
  after : After
  /-- start of the vector executed last in this run or since its resume -/
  ranAt : Option T64
  /-- segment of the last vector executed -/
  lastSeg : Handle
  launchAt : T64
  /-- the pending launch is a resume -/
  resume : Bool
  /-- start of the next vector (R100) -/
  start : T64
  lastPeriod : Nat
  /-- tick of the entry into HOLD or into reset, and the arrival tick's T64 of the awaited segment -/
  holdSince : Nat
  arrival : Option T64
  crc : Word
  /-- governor estimate held, in tenths of a watt (R29) -/
  estimate : Nat
  /-- Owl's factor in force and the one to apply at the next segment boundary, as exponents of 2 (R103) -/
  owlK : Nat
  owlNext : Nat
  /-- handles of resident copies that a rule holds, caches, lent copies, and pins (R77, R83, R84) -/
  resident : List Handle
  cached : List Handle
  lent : List Handle
  pins : List Handle
  /-- lookahead fetches into lent slots, with the tick at which each became due (R243) -/
  lentDue : List (Handle × Nat)
  /-- segments of the staged line whose BODY_SPAN exceeds MAX_BODY and that BODY_OVER has reported (R88) -/
  overSeen : List Handle
  /-- held bodies in force: first segment and span (R87) -/
  bodies : List (Handle × Nat)
  /-- staging fetches due, with the tick at which each became due (R92) -/
  fetches : List (Handle × Nat)
  /-- staging fetches that failed SECDED once (R96) -/
  retried : List Handle
  /-- INIT_STAGED as held at the launch tick (R85) -/
  initHeld : Bool
  bodyOver : Bool
  activeBank : Bool
  swapPending : Bool
  copyBusy : Bool
  banks : Vector (Vector TimingSet 32) 2
  stream : Option Stream
  /-- streams whose window is over, with blocks still to be copied, oldest first (R207, R210) -/
  tails : List Stream
  /-- a capture was armed when the run began: its end sends no packet of its own (R212) -/
  captured : Bool
  /-- capture blocks of the ticket delivered to the host (R200, R210) -/
  delivered : Nat
  /-- the island is held in reset (R404) -/
  inReset : Bool
  deriving DecidableEq, Repr

/-! ### Pins, supplies, analog ports (chapters 5, 6, 7) -/

/-- Driver states (Table 5-3). -/
inductive Drv where
  | vih | vil | vtt | hiz
  deriving DecidableEq, Repr

/-- One pin channel (chapter 5). -/
structure Pin where
  drv : Drv
  /-- the driver state that the vector edges ask for, which the active load follows (R135) -/
  edge : Drv
  /-- time of the lane's last transition (R108) -/
  lastEdge : Option T64
  /-- electrical mode in force (Table 5-1), 0 while a change is in progress -/
  mode : BitVec 2
  /-- a mode change sequence is in progress (R129) -/
  changing : Bool
  /-- what the comparator has shown, newest first: a state from its stamp on, or `none` from where it was not evaluated
  (R36, R137) -/
  hist : List (T64 × Option Cmp)
  /-- the VOH comparator is high, and the VOL comparator is low (R136) -/
  aboveVoh : Bool
  belowVol : Bool
  /-- the 100 kΩ pull is connected (Table 5-1) -/
  pull : Bool
  complyNow : Bool
  deriving DecidableEq, Repr

/-- Output states of a DPS (R151, R155). -/
inductive DpsOut where
  | off | fv | fi
  deriving DecidableEq, Repr

/-- One device power supply (chapter 6). -/
structure Dps where
  out : DpsOut
  /-- present forced value and its target, in codes of the mode (R156) -/
  level : Int
  target : Int
  /-- tick of the last slew step -/
  slewAt : Nat
  /-- the slew ends in a disconnection (R155) -/
  closing : Bool
  limitNow : Bool
  complyNow : Bool
  /-- regulating on FORCE through the internal sense (R161) -/
  internalSense : Bool
  phase : Word
  /-- the phase is to be reset at the next update instant (R170) -/
  phaseReset : Bool
  /-- sine amplitude in force -/
  amp : Nat
  /-- output voltage in codes times 32,767 (R168) -/
  volt : Int
  /-- effective limit of R172 -/
  effLimit : Option Nat
  /-- last NCO update instant done -/
  ncoAt : Option T64
  /-- last window's current, as a code, and dissipation in mW -/
  current : Int
  power : Nat
  boostEn : Bool
  /-- the discharge path is connected (R155, R162) -/
  disch : Bool
  /-- DPS_CFG and DPS_ILIM as they have reached the output (R164) -/
  cfgNow : Word
  ilimNow : Word
  deriving DecidableEq, Repr

/-- AWG playback in progress (R180 to R188). -/
structure Awg where
  /-- sine playback (SOURCE = 2) -/
  sine : Bool
  first : Handle
  cur : Handle
  /-- times the present image has been played -/
  played : Nat
  /-- instant of the first sample of the present pass through the image, or of the sine -/
  segAt : T64
  withRidge : Bool
  /-- images of the chain that the port holds a reference on (R182) -/
  refs : List Handle
  /-- instant of the next sample to be put out (R180) -/
  outAt : T64
  deriving DecidableEq, Repr

/-- An analog block written to the region (R200, Table 7-3). -/
structure AcqBlock where
  samples : List (BitVec 16)
  number : Nat
  time : T64
  decim : Nat
  last : Bool
  overflow : Bool
  decimChanged : Bool
  overrange : Bool
  shortPre : Bool
  recordStart : Bool
  record : Nat
  deriving DecidableEq, Repr

/-- A digitizer acquisition (R189 to R199). -/
structure Acq where
  ticket : BitVec 17
  queue : BitVec 14
  stream : Bool
  k : Nat
  pre : Nat
  post : Nat
  frames : List Nat
  buf : BitVec 64
  nb : Nat
  startAt : T64
  started : Bool
  /-- stream index of the next sample to be stored (STREAM) -/
  nextIndex : Nat
  /-- decimation exponent in force -/
  decim : Nat
  decimChanged : Bool
  /-- blocks in the region, oldest first, and how many of them are copied while their packets wait for admission (R245) -/
  blocks : List AcqBlock
  copied : Nat
  nextBlock : Nat
  /-- complete records (RING), triggers so far -/
  records : Nat
  triggers : Nat
  /-- the hold-off has passed (R194) -/
  armed : Bool
  /-- stream index of the first sample that the engine examines (R194) -/
  firstOk : Nat
  /-- hold-off in force: stream index after which it counts, and events still to pass over -/
  holdFrom : Option Nat
  holdEvents : Nat
  /-- trigger sample of the record being completed (RING) -/
  trigIndex : Option Nat
  /-- output samples from nextIndex to the end of the POST count (STREAM) -/
  postLeft : Option Nat
  /-- when an event of the named source arrived (R191) -/
  eventAt : Option T64
  /-- STOP_ACQ: no sample from this stream index on is stored -/
  stopAt : Option Nat
  /-- the LAST block has been formed -/
  ended : Bool
  /-- APT_HOST_RD as it stood when a later acquisition was armed -/
  rdAt : Option Nat
  deriving DecidableEq, Repr

/-- One analog port (chapter 7). -/
structure Port where
  awg : Option Awg
  /-- start instant of an armed playback -/
  awgAt : Option T64
  awgRidge : Bool
  /-- NCO phase at the sample instant `phaseAt` (R185, R186) -/
  phase : Word
  phaseAt : T64
  acq : Option Acq
  /-- acquisitions that have ended, with blocks still to be copied or admitted, oldest first -/
  tails : List Acq
  /-- analog blocks of the ticket delivered to the host (R200) -/
  delivered : Nat
  deriving DecidableEq, Repr

/-! ### Segment store and Marten (chapters 3, 9) -/

/-- An image in HBM: the descriptor of R74 and the payload. -/
structure Image where
  frame : Nat
  analog : Bool
  next : Handle
  span : Nat
  relPending : Bool
  crc : Word
  payload : List (BitVec 128)
  deriving DecidableEq, Repr

/-- HBM frames and images. -/
structure Store where
  /-- images by handle -/
  images : Sparse (Option Image)
  /-- frames in use by images, regions and loads, retired frames (R381), frames awaiting RECLAIM (R248) -/
  used : List Nat
  retired : List Nat
  awaiting : List Nat
  /-- allocation pointer (R240) -/
  ptr : Nat
  deriving DecidableEq, Repr

/-- A MEASURE job (R220, R228). -/
structure MeasJob where
  sel : BitVec 16
  n : Nat
  conv : Nat
  trunk : Option Nat
  pinned : Bool
  timed : Bool
  /-- first sample -/
  first : T64
  takenAt : T64
  started : Bool
  range : BitVec 3
  comply : Bool
  /-- the range changed during the window (R222) -/
  rangeMoved : Bool
  deriving DecidableEq, Repr

/-- A TIME_MEASURE job (R215 to R218). -/
structure TimuJob where
  pinA : PinId
  edgeA : BitVec 2
  pinB : Option PinId
  pinBField : Byte
  edgeB : BitVec 2
  freq : Bool
  pinned : Bool
  timed : Bool
  timu : Nat
  start : T64
  takenAt : T64
  count : Nat
  /-- timeout or gate, in ticks -/
  limit : Nat
  started : Bool
  /-- offsets after the start, and whether of input B, in order -/
  stamps : List (Nat × Bool)
  drop : Bool
  deriving DecidableEq, Repr

/-- What a ticket was issued for (R224). -/
inductive Job where
  | measure (j : MeasJob)
  | timu (j : TimuJob)
  | capture (ridges : List RidgeId) (lastSeen : List RidgeId)
  | acquire (port : RidgeId)
  deriving DecidableEq, Repr

/-- A ticket in flight (R224, Table 8-12). -/
structure Ticket where
  num : BitVec 17
  queue : BitVec 14
  ring : Fin 64
  seq : Word
  /-- resources and storage are assigned; false while WAITING for storage (R234) -/
  booked : Bool
  job : Job
  deriving DecidableEq, Repr

/-! ### Result queues (chapter 10) -/

/-- A packet of a queue (R255, R256): type, payloads of its entries. -/
structure QPacket where
  typ : BitVec 3
  payload : List (BitVec 96)
  seq : BitVec 12
  /-- check bits of a stored entry were inverted (R382, R390): `some true` uncorrectably -/
  bad : Option Bool
  deriving DecidableEq, Repr

/-- A packet that waits for admission (R259), with what its commit completes. -/
structure WaitPkt where
  typ : BitVec 3
  payload : List (BitVec 96)
  /-- the ticket it belongs to -/
  ticket : Option (BitVec 17)
  /-- it ends its ticket; of a capture ticket, its stream on this ridge -/
  final : Bool
  ridge : Option RidgeId
  deriving DecidableEq, Repr

/-- Flush modes (R268). -/
inductive FlushMode where
  | drain | discard
  deriving DecidableEq, Repr

/-- One result queue (Tables 10-1, 10-7). -/
structure Queue where
  enabled : Bool
  /-- RESERVATION as configured, and what the queue has reserved now: a lowered reservation shrinks as entries are freed (R244) -/
  reservation : Nat
  reserved : Nat
  ringBase : BitVec 64
  ringSize : Nat
  wbAddr : BitVec 64
  cring : Byte
  drainThr : Nat
  stale : Nat
  head : Word
  tail : Word
  nextSeq : BitVec 12
  /-- committed packets in storage, oldest first -/
  store : List QPacket
  waiting : List WaitPkt
  /-- entries held for jobs and for TICKET_END packets (R234, R378) -/
  held : Nat
  ringFull : Bool
  headErr : Bool
  waited : Bool
  waitCnt : Word
  discardCnt : Word
  /-- tick at which the stale timer started, and the STALE it runs with (R253, R263) -/
  timerAt : Option (Nat × Nat)
  due : Bool
  /-- a drain in progress: entries copied and SEQ of the last packet (R264) -/
  draining : Option (Nat × BitVec 12 × Nat)
  /-- tick by which the END entry of the packet being written is in storage (R257) -/
  writeEnd : Nat
  /-- a flush that has not reached its boundary, and the packets that began after it (R268) -/
  flush : Option (FlushMode × Nat)
  /-- packets a DRAIN flush still has to see in host memory, and those already drained -/
  flushLeft : Option (Nat × Nat)
  /-- not written again until latch bit 33 is cleared (R376) -/
  blocked : Bool
  deriving DecidableEq, Repr

/-! ### Host link (chapter 11) -/

/-- The members a MULTICAST reply still waits for (R289). -/
structure McState where
  /-- positions of the members that have not answered -/
  waiting : List Nat
  /-- tick at which the packet went out -/
  sentAt : Nat
  accepted : Bool
  refused : Nat
  /-- the refusal of lowest position: position, status, and its T64 -/
  lowest : Option (Nat × Byte × T64)
  /-- T64 that an ACCEPTED or DONE reply carries -/
  time : T64
  deriving DecidableEq, Repr

/-- A packet taken and not yet replied to (R274, R281). -/
structure Taken where
  /-- the enabling of its ring under which it was taken (R272) -/
  era : Nat
  seq : Word
  /-- completion ring in which it reserves an entry (R274) -/
  cq : Fin 64
  opcode : Byte
  tag : BitVec 16
  suppress : Bool
  /-- taken long command: its ring takes nothing more (R286) -/
  long : Bool
  /-- forwarded over the ring: the target's position, and the tick (R293, R301) -/
  forwarded : Option (BitVec 7 × Nat)
  mc : Option McState
  /-- the reply once formed, waiting for its turn -/
  reply : Option Reply
  deriving DecidableEq, Repr

/-- A submission ring (Table 11-3). -/
structure Sq where
  base : BitVec 64
  n : Nat
  cq : Fin 64
  enabled : Bool
  stopped : Bool
  /-- how often the ring has been enabled (model's own) -/
  era : Nat
  tail : Word
  head : Word
  seq : Word
  seqErr : Bool
  crcErr : Bool
  lenErr : Bool
  dbErr : Bool
  regErr : Bool
  taken : List Taken
  deriving DecidableEq, Repr

/-- A completion ring (Table 11-4). -/
structure Cq where
  base : BitVec 64
  n : Nat
  vector : Fin 64
  enabled : Bool
  irqCount : Nat
  irqTime : Nat
  wb : BitVec 64
  head : Word
  tail : Word
  merged : Bool
  headErr : Bool
  regErr : Bool
  reserved : Nat
  /-- entries not yet signalled, and the tick at which the oldest was written -/
  unsignalled : Nat
  oldest : Nat
  blocked : Bool
  deriving DecidableEq, Repr

/-- An MSI-X table entry and its pending bit (Table 11-1). -/
structure Msix where
  addr : BitVec 64
  data : Word
  masked : Bool
  pending : Bool
  /-- messages sent, the model's own record of the vector's signals -/
  sent : Nat
  deriving DecidableEq, Repr

/-- What a held notice is about (R275, R366, R377). -/
inductive NoticeKey where
  | queue (id : BitVec 14)
  | event (source : Byte)
  | fault (bit : Fin 64)
  deriving DecidableEq, Repr

/-- A notice kept pending for a completion ring. -/
structure Notice where
  cq : Fin 64
  key : NoticeKey
  count : Nat
  /-- bytes 0-15 of the entry, less the count of a host notice -/
  entry : BitVec 128
  deriving DecidableEq, Repr

/-- A timed write (R284). -/
structure Timed where
  index : Nat
  value : Word
  at_ : T64
  deriving DecidableEq, Repr

/-- What a reply waits for (R25, R59, R129, R155, R404). -/
inductive WaitOn where
  | pin (p : PinId)
  | dps (n : RidgeId)
  | bound (r : RidgeId)
  | resetEnd (r : RidgeId)
  /-- its data waits for a way to the Summit (R301) -/
  | summit
  deriving DecidableEq, Repr

/-- What a queue keeps in retained state (Table 14-8). -/
structure QueueKeep where
  id : BitVec 14
  reservation : Nat
  drainThr : Nat
  stale : Nat
  deriving DecidableEq, Repr

/-- A calibration item: key (CLASS, UNIT, ITEM) packed as in GLB_CAL_SEL, and its word. -/
abbrev CalTable := Sparse Word

/-- The content of a retained-state image (Table 14-8). -/
structure Retained where
  dieSerial : BitVec 128
  revision : Byte
  t64 : T64
  words : Sparse Word
  sets : List (Vector TimingSet 32)
  sites : Vector (BitVec 256) 64
  routes : Vector (BitVec 64) 256
  queues : List QueueKeep
  cal : CalTable
  oos : BitVec 64
  hops : List Word
  dly : Word
  /-- interface levels of the firmware and the patch that ran -/
  fwLevel : BitVec 16
  patchLevel : BitVec 16
  deriving DecidableEq, Repr

/-- Calibration in force (R345 to R350). -/
structure Cal where
  items : CalTable
  /-- the items as the last CAL_RUN, or the image, left them (R349) -/
  base : CalTable
  /-- CAL_RUN data is in force -/
  valid : Bool
  /-- converters out of service (R235) -/
  oos : BitVec 64
  running : Bool
  deriving DecidableEq, Repr

/-- A command whose reply waits for effects to complete; `undo` holds the parameter words it wrote as they were before
(R387 step 6). -/
structure Wait where
  hdr : Hdr
  opcode : Byte
  on : List WaitOn
  undo : List (Nat × Word)
  /-- bytes 4-7 of its DONE -/
  info : Nat
  /-- of a CAL_RUN, the corrections in force before it and the working copy that held them -/
  cal : Option (Cal × Option Retained)
  deriving DecidableEq, Repr

/-- A long command in its background engine (R286). -/
inductive LongJob where
  | save (slot : Fin 3) (copyB : Bool) (generation : Word) (image : Retained)
  /-- with the frame of a new handle, and the allocation pointer before and after it was taken -/
  | segLoad (handle : Handle) (frame : Option (Nat × Nat × Nat))
  | calRun (scope : Byte) (ridges : List RidgeId)
  | syncCal (options : Byte) (sent : Bool)
  | fwUpdate (patch : Bool) (img : FwImage)
  | flush (queue : BitVec 14)
  | ringEnum (addr : BitVec 64)
  deriving DecidableEq, Repr

structure Long where
  hdr : Hdr
  opcode : Byte
  job : LongJob
  deriving DecidableEq, Repr

/-- Host link state outside the rings. -/
structure Link where
  /-- commands taken by Badger and not yet run (R24) -/
  inbox : List Instr
  timed : List Timed
  waits : List Wait
  longs : List Long
  notices : List Notice
  /-- value of the last window read, and of the last slave read (the model's view of the read reply) -/
  winRead : Word
  cspRead : List Word
  /-- snapshot of a 64-bit counter's high word per access path: path key, high index, value (R401) -/
  snaps : List (Nat × Nat × Word)
  deriving DecidableEq, Repr

/-! ### Ring, Cairn, serial ports (chapters 12, 13) -/

/-- What travels on the Dectik ring. -/
inductive RingMsg where
  | load (l : RingLoad)
  | reply (entry : BitVec 7) (ring : Fin 64) (era : Nat) (seq : Word) (sender : BitVec 7) (r : Reply)
  | event (k : Fin 8) (position : BitVec 7)
  /-- the token, with the entries of the members that it has passed (R296) -/
  | token (count : BitVec 8) (es : List Member)
  /-- the members of a closed ring (R296) -/
  | membership (ms : List Member)
  /-- DLY values by position, with what SYNC_CAL found; of an update there is nothing found (R312, R313, R316) -/
  | dly (ms : List SyncInfo) (vals : List Word)
  deriving DecidableEq, Repr

/-- A link frame that is not acknowledged (R292): whether it goes out by RING_B, on the forward lanes, or by RING_A, on the reverse
lanes; its sequence number on that port; its sends, and the tick of the last. -/
structure RingFrame where
  portB : Bool
  seq : Nat
  msg : RingMsg
  sends : Nat
  sentAt : Nat
  deriving DecidableEq, Repr

/-- The Dectik ring (R291 to R302). -/
structure Ring where
  /-- 0 closed, 1 wrapped, 2 split, 3 not enumerated -/
  state : BitVec 2
  enumerated : Bool
  position : BitVec 7
  members : List Member
  /-- the membership is fixed (R297) -/
  fixed : Bool
  /-- a foreign token was seen (R298) -/
  twoSummit : Bool
  aUp : Bool
  bUp : Bool
  /-- links between other members that are down, by the position upstream of each -/
  far : List Nat
  /-- position upstream of the first link that went down; 0xFF for none -/
  breakPos : Byte
  tokenSent : Bool
  enumTick : Nat
  enumTime : T64
  quarantined : Bool
  /-- next sequence number to send by RING_B and by RING_A, and to receive on the forward and on the reverse lanes (R292) -/
  txB : Nat
  txA : Nat
  rxFwd : Nat
  rxRev : Nat
  /-- frames not yet acknowledged, oldest first -/
  outbox : List RingFrame
  /-- what waits for a path, with the position it is for (R301) -/
  held : List (Option Nat × RingMsg)
  deriving DecidableEq, Repr

/-- Cairn timing (R304 to R313). -/
structure Cairn where
  /-- GLB_CAIRN_CFG ROOT and PERIOD as in force since the last frame (R304) -/
  root : Bool
  period : BitVec 14
  epoch : BitVec 48
  fed : Bool
  locked : Bool
  stepHeld : Bool
  extParent : Bool
  /-- tick of the last valid frame -/
  lastFrame : Nat
  /-- a load waiting for its apply tick (R399): apply T64, Δ -/
  load : Option (T64 × Int)
  /-- relaunch pending at this T64 (R306) -/
  relaunch : Option T64
  child0 : Bool
  child1 : Bool
  discovered : Bool
  /-- last epoch sent or relaunched on the outputs, and the frame that each output last carried; `none` on one that has stayed
  low (R304, R306) -/
  sent : BitVec 48
  out0 : Option CairnFrame
  out1 : Option CairnFrame
  /-- when each output last carried a pulse of a discovery or of an echo (R310, R312) -/
  pulse0 : Option T64
  pulse1 : Option T64
  /-- parent and output of the discovery pulse that this device saw (R312) -/
  seen : Option (Byte × Byte)
  /-- stamp of a parent's echo pulse awaiting turnaround, and of the last one (R310) -/
  echo : Option T64
  echoAt : Option T64
  /-- return pulses driven -/
  echoOut : Option T64
  /-- hop sums: number of echoes and sum of y − x − 65,536, per output -/
  hop0 : Nat × Int
  hop1 : Nat × Int
  hopVal0 : Int
  hopVal1 : Int
  /-- input hop delays h of the ring's members, by position (Table 12-3) -/
  hops : List Word
  /-- GLB_CAIRN_EXT_DLY of the members, by position, as SYNC_CAL found it -/
  exts : List Word
  /-- epoch of the last background echoes (R313) -/
  trackAt : BitVec 48
  /-- DLY left by the last SYNC_CAL, and the DLY to apply at the next frame (R313) -/
  dlyBase : Int
  dlyNext : Option Int
  deriving DecidableEq, Repr

/-- One slave port (R326 to R331). -/
structure Csp where
  /-- ALIVE of the last frame whose byte 3 was received -/
  alive : Option (BitVec 4)
  /-- outcome flags of the previous frame (Table 13-3) -/
  prev : Byte
  /-- an accepted WRITE waiting for Badger -/
  write : Option (BitVec 16 × List Word)
  /-- a frame has followed the waiting WRITE -/
  followed : Bool
  /-- tick at which a WRITE frame was released -/
  writeAt : Option Nat
  /-- the last reply sent (Table 13-2): STATUS byte, ALIVE echo, words, CRC -/
  reply : Byte × BitVec 4 × List Word × BitVec 16
  /-- divider in force: a DIV written while a select is asserted waits for the next assertion (R320) -/
  div : Byte
  deriving DecidableEq, Repr

/-- Fox's execute-in-place window (R323 to R325). -/
structure Xip where
  /-- line addresses, most recently used first -/
  lines : List Nat
  /-- fetches in flight, and whether a miss demanded the line (a prefetch does not go on to the next line) -/
  filling : List (Nat × Bool)
  /-- SFDP reports continuous read, and it is active (R324) -/
  canCont : Bool
  cont : Bool
  deriving DecidableEq, Repr

/-! ### Boot, retained state, calibration (chapter 14) -/

/-- Start-up modes (Table 14-4). -/
inductive Mode where
  | normal | baseline | loader
  deriving DecidableEq, Repr

/-- Start-up state. -/
structure Boot where
  stage : BitVec 3
  mode : Mode
  fwResult : BitVec 3
  patchResult : BitVec 4
  rsiSource : BitVec 2
  rsiRefused : Bool
  calForeign : Bool
  straps : Straps
  fuses : Fuses
  /-- POR_N is low -/
  por : Bool
  /-- Bear has released FOX; Fox is in its ROM loader; SFDP, firmware read -/
  foxUp : Bool
  romLoader : Bool
  /-- Fox reloads its firmware after a watchdog restart (R340) -/
  reload : Bool
  sfdpOk : Bool
  patchDone : Bool
  /-- patch RAM, word by word from address 0x4000, and the patch's entries: ROM word in [14:0], its successor in [30:16] -/
  patchRam : List (BitVec 128)
  patchEntries : List Word
  pcieUp : Bool
  /-- the host has enabled bus mastering (R294) -/
  busMaster : Bool
  calDone : Bool
  hbmUp : Bool
  slotsRead : Bool
  /-- tick of the reset release -/
  since : Nat
  /-- base clock on the resonator; REFCLK present (R121 to R123) -/
  resonator : Bool
  refclk : Bool
  /-- the resonator correction C in 0.1 ppb (R124) -/
  xoCorr : Int
  deriving DecidableEq, Repr

/-- A retained-state slot (R352). -/
structure RSlot where
  copyB : Bool
  generation : Word
  image : Retained
  deriving DecidableEq, Repr

/-- The flash on CSP0 (Table 14-2): a slot is `none` when erased or invalid. -/
structure Flash where
  firmware : Option FwImage
  patch : Option FwImage
  slots : Vector (Option RSlot) 3
  deriving DecidableEq, Repr

/-! ### Monitors, events, Owl, Bear, cols (chapters 15, 16, 17) -/

/-- A temperature sensor and its shutdown comparator (R357, R358, R360). -/
structure Sensor where
  value : Int
  /-- the last conversion, which a broken sensor does not show -/
  raw : Int
  broken : Bool
  /-- successive conversions out of range -/
  bad : Nat
  /-- tick since which conversions have stayed in range -/
  goodSince : Nat
  /-- a valid conversion below the warning band has been seen: the warning output has released -/
  released : Bool
  /-- a valid conversion has been seen -/
  converted : Bool
  compReleased : Bool
  deriving DecidableEq, Repr

/-- A supply monitor (R359 to R362). -/
structure Smon where
  released : Bool
  /-- beyond its warning threshold now -/
  warn : Bool
  /-- beyond its reset threshold now -/
  resetLow : Bool
  /-- logged as unreleased 100 ms after the reset release (R360) -/
  timedOut : Bool
  /-- suspect window: T64 from which it runs, and its end once known -/
  suspectFrom : Option T64
  suspectTo : Option T64
  /-- earlier suspect windows, newest first -/
  suspects : List (T64 × T64)
  deriving DecidableEq, Repr

/-- Owl states (Table 15-6). -/
inductive OwlState where
  | normal | request | step1 | step2
  deriving DecidableEq, Repr

/-- Owl (R367 to R370). -/
structure Owl where
  state : OwlState
  set : BitVec 16
  /-- tick at which the grace timer started -/
  graceAt : Option Nat
  /-- tick since which GLB_THERM_MAX has been below 97.0 °C -/
  coolAt : Option Nat
  shutdown : Bool
  deriving DecidableEq, Repr

/-- A source's counter in its island (R365). -/
structure EvtSrc where
  count : Nat
  ovf : Bool
  payload : BitVec 24
  time : T64
  deriving DecidableEq, Repr

/-- The event router (R364 to R366). -/
structure Events where
  routes : Vector (BitVec 64) 256
  /-- waiting counts by source -/
  src : Sparse EvtSrc
  /-- delivered counts by source (GLB_EVT_CNT), with OVF -/
  total : Sparse (Nat × Bool)
  /-- source each col requested last -/
  last : Sparse Nat
  /-- the request in flight on a col: a source with its count and payload (R365, R400) -/
  flight : Sparse (Option (Nat × EvtSrc))
  deriving DecidableEq, Repr

/-- Fault classes (Table 16-1). -/
inductive FaultClass where
  | corrected | contained | fatal
  deriving DecidableEq, Repr

/-- A fault log entry (Table 16-4). -/
structure LogEntry where
  bit : Fin 64
  cls : FaultClass
  scope : BitVec 3
  injected : Bool
  deferred : Bool
  detection : BitVec 16
  ident : Word
  time : T64
  detail : Word
  packets : BitVec 16
  tickets : BitVec 16
  deriving DecidableEq, Repr

/-- A pending injection (R390). -/
structure Inject where
  bit : Fin 64
  left : Nat
  double : Bool
  deriving DecidableEq, Repr

/-- Bear's states (Table 16-5). -/
inductive BearState where
  | normal | parking | safe | recovering | faulted
  deriving DecidableEq, Repr

/-- Bear (chapter 16). -/
structure Bear where
  state : BearState
  latch : BitVec 64
  log : List LogEntry
  inject : List Inject
  /-- fatal sources still asserted -/
  asserted : BitVec 64
  /-- tick at which the park wait or the quiet period started -/
  parkAt : Nat
  quietAt : Option Nat
  /-- start ticks of recoveries, newest first (R388) -/
  recoveries : List Nat
  recovCnt : BitVec 16
  lastEnd : T64
  /-- the safe state is due to HBM_PHY, CSTORE, or cannot be recovered -/
  phyFault : Bool
  cstoreFault : Bool
  noRecovery : Bool
  deriving DecidableEq, Repr

/-- A col's drop counter and peer-reset flags (R402). -/
structure Col where
  drops : Word
  rstA : Bool
  rstB : Bool
  ovf : Bool
  deriving DecidableEq, Repr

/-- The state of the block. -/
structure State where
  /-- T64 master counter; the sixteen replicas hold the same value on every tick (R22) -/
  now : T64
  /-- base-clock ticks since the model's start, for timers (model's own) -/
  ticks : Nat
  /-- free-value counter (model's own) -/
  free : Nat
  /-- host memory as DMA has written it -/
  host : List Host.Cell
  /-- the parameter map: words that differ from their reset value -/
  params : Sparse Word
  boot : Boot
  flash : Flash
  /-- HBM working copy of the retained-state image -/
  working : Option Retained
  link : Link
  sq : Vector Sq 64
  cq : Vector Cq 64
  msix : Vector Msix 64
  ridges : Vector Ridge 16
  pins : Vector Pin 256
  dps : Vector Dps 16
  ports : Vector Port 16
  store : Store
  tickets : List Ticket
  lastTicket : BitVec 17
  /-- pointers of R231 for converters and TIMUs -/
  convPtr : Nat
  timuPtr : Nat
  /-- result queues by ID -/
  queues : Sparse Queue
  /-- queue served last (R262) -/
  lastQueue : BitVec 14
  sites : Vector (BitVec 256) 64
  cal : Cal
  sensors : Vector Sensor 24
  smons : Vector Smon 12
  /-- counts of the process monitors -/
  pmons : Vector (BitVec 20) 20
  owl : Owl
  events : Events
  bear : Bear
  cols : Sparse Col
  ring : Ring
  cairn : Cairn
  csps : Vector Csp 2
  xip : Xip
  /-- commands waiting, first in first out -/
  pending : List Instr
  deriving DecidableEq, Repr

/-! ### Reset -/

/-- APG registers at reset (Table 2-7): scrambler identity, every lane mapped to constant 0. -/
def Apg.reset : Apg where
  x := 0; y := 0; xmax := 0xFFFFFF#24; ymax := 0xFFFFFF#24
  dataCfg := 0xF0#24; dataSeed := 0; defaultOp := 0
  scr := Vector.ofFn fun k => BitVec.ofNat 24
    ((4 * k.val) ||| ((4 * k.val + 1) <<< 6) ||| ((4 * k.val + 2) <<< 12) ||| ((4 * k.val + 3) <<< 18))
  map := Vector.replicate 6 0x102040#24

/-- The content of every timing set before an image is applied (R110). -/
def TimingSet.reset : TimingSet where
  nMinus1 := 0; fine := 0; format := 0; edges := Vector.replicate 16 (Vector.replicate 6 0)

/-- A ridge at reset: UNBOUND (Table 2-4), every rule's value at its reset. -/
def Ridge.reset : Ridge where
  st := .unbound; first := noHandle; maxBody := 0; targets := []; pc := ⟨noHandle, 0⟩
  loops := []; calls := []; rep := 0; repFails := []; matchOut := .none; period := 0
  firstFail := none; cleared := 0; failNow := false; failSeen := false; open_ := []
  entries := 0; maskedEntries := 0; inMask := false; siteLogs := []; outcome := .completed; checkpoint := 0; ckptValid := false; ended := none
  apg := Apg.reset; park := false; halts := []; arm := none; jumpIn := none; jumpTo := ⟨noHandle, 0⟩
  atBoundary := false; applyWait := false; after := .go; ranAt := none; lastSeg := noHandle; launchAt := 0; resume := false; start := 0; lastPeriod := 1024
  holdSince := 0; arrival := none; crc := 0; estimate := 0; owlK := 0; owlNext := 0
  resident := []; cached := []; lent := []; pins := []; lentDue := []; overSeen := []; bodies := []; fetches := []; retried := []; initHeld := false
  bodyOver := false; activeBank := false; swapPending := false; copyBusy := false
  banks := Vector.replicate 2 (Vector.replicate 32 TimingSet.reset); stream := none; tails := []; captured := false; delivered := 0; inReset := false

def Pin.reset : Pin where
  drv := .hiz; edge := .hiz; lastEdge := none; mode := 0; changing := false; hist := []; aboveVoh := false; belowVol := false
  pull := true; complyNow := false

def Dps.reset : Dps where
  out := .off; level := 0; target := 0; slewAt := 0; closing := false; limitNow := false; complyNow := false
  internalSense := false; phase := 0; phaseReset := false; amp := 0; volt := 0; effLimit := none; ncoAt := none; current := 0
  power := 0; boostEn := false; disch := true; cfgNow := 0x200#32; ilimNow := 0x7FFF8001#32

def Port.reset : Port where
  awg := none; awgAt := none; awgRidge := false; phase := 0; phaseAt := 0; acq := none; tails := []; delivered := 0

/-- A queue at power-up (Table 10-1, R252). -/
def Queue.reset : Queue where
  enabled := false; reservation := 0; reserved := 0; ringBase := 0; ringSize := 12; wbAddr := 0; cring := 0xFF
  drainThr := 16; stale := 100; head := 0; tail := 0; nextSeq := 0; store := []; waiting := []; held := 0
  ringFull := false; headErr := false; waited := false; waitCnt := 0; discardCnt := 0; timerAt := none; due := false
  draining := none; writeEnd := 0; flush := none; flushLeft := none; blocked := false

/-- A submission ring at reset (Table 11-3). -/
def Sq.reset : Sq where
  base := 0; n := 8; cq := 0; enabled := false; stopped := false; era := 0; tail := 0; head := 0; seq := 0
  seqErr := false; crcErr := false; lenErr := false; dbErr := false; regErr := false; taken := []

/-- A completion ring at reset (Table 11-4). -/
def Cq.reset : Cq where
  base := 0; n := 6; vector := 0; enabled := false; irqCount := 1; irqTime := 0; wb := 0; head := 0; tail := 0
  merged := false; headErr := false; regErr := false; reserved := 0; unsignalled := 0; oldest := 0; blocked := false

def Msix.reset : Msix where
  addr := 0; data := 0; masked := true; pending := false; sent := 0

/-- Strap samples before a reset row has sampled them: the boot setting of R319, MSTR low, ring 0. DESIGN CHOICE, log
entry 3. -/
def Straps.reset : Straps where
  mstr := false; ringId := 0; csp0Slave := false; csp1Slave := true; refclkClean := false

def Fuses.reset : Fuses where
  dieSerial := 0; debug := false; xoTcomp := List.replicate 12 0; rowError := false; keyRowError := false
  debugRowError := false

def Boot.reset : Boot where
  stage := 0; mode := .normal; fwResult := 0; patchResult := 0; rsiSource := 0; rsiRefused := false
  calForeign := false; straps := Straps.reset; fuses := Fuses.reset; por := true; foxUp := false; romLoader := true; reload := false
  sfdpOk := false; patchDone := false; patchRam := []; patchEntries := []; pcieUp := false; busMaster := false; calDone := false; hbmUp := false; slotsRead := false
  since := 0; resonator := false; refclk := false; xoCorr := 0

def Flash.reset : Flash where
  firmware := none; patch := none; slots := Vector.replicate 3 none

def Link.reset : Link where
  inbox := []; timed := []; waits := []; longs := []; notices := []; winRead := 0; cspRead := []; snaps := []

def Store.reset : Store where
  images := []; used := []; retired := []; awaiting := []; ptr := 0

def Cal.reset : Cal where
  items := []; base := []; valid := false; oos := 0; running := false

/-- A sensor powers up asserted (R360). -/
def Sensor.reset : Sensor where
  value := 0; raw := 0; broken := false; bad := 0; goodSince := 0; released := false; converted := false; compReleased := false

/-- A supply monitor powers up asserted (R360). -/
def Smon.reset : Smon where
  released := false; warn := false; resetLow := false; timedOut := false; suspectFrom := none; suspectTo := none; suspects := []

def Owl.reset : Owl where
  state := .normal; set := 0; graceAt := none; coolAt := none; shutdown := false

def Events.reset : Events where
  routes := Vector.replicate 256 0; src := []; total := []; last := []; flight := []

def Bear.reset : Bear where
  state := .normal; latch := 0; log := []; inject := []; asserted := 0; parkAt := 0; quietAt := none
  recoveries := []; recovCnt := 0; lastEnd := 0; phyFault := false; cstoreFault := false; noRecovery := false

def Ring.reset : Ring where
  state := 3; enumerated := false; position := 0; members := []; fixed := false; twoSummit := false; aUp := true; bUp := true; far := []
  breakPos := 0xFF; tokenSent := false; enumTick := 0; enumTime := 0; quarantined := false
  txB := 0; txA := 0; rxFwd := 0; rxRev := 0; outbox := []; held := []

def Cairn.reset : Cairn where
  root := false; period := 9; epoch := 0; fed := false; locked := false; stepHeld := false; extParent := false
  lastFrame := 0; load := none; relaunch := none; child0 := false; child1 := false; discovered := false; sent := 0
  out0 := none; out1 := none; pulse0 := none; pulse1 := none; seen := none; echoAt := none; hops := []; exts := []; trackAt := 0
  echo := none; echoOut := none; hop0 := (0, 0); hop1 := (0, 0); hopVal0 := 0; hopVal1 := 0; dlyBase := 0
  dlyNext := none

def Csp.reset : Csp where
  alive := none; prev := 0; write := none; followed := false; writeAt := none; reply := (0, 0, [], 0); div := 7

def Xip.reset : Xip where
  lines := []; filling := []; canCont := false; cont := false

/-- The machine under reset, POR_N low: STAGE 0 of Table 14-1 starts at POR_RELEASE (R424); every word at the reset value of its table. -/
def State.reset : State where
  now := 0; ticks := 0; free := 0; host := []; params := []
  boot := Boot.reset; flash := Flash.reset; working := none; link := Link.reset
  sq := Vector.replicate 64 Sq.reset; cq := Vector.replicate 64 Cq.reset; msix := Vector.replicate 64 Msix.reset
  ridges := Vector.replicate 16 Ridge.reset; pins := Vector.replicate 256 Pin.reset
  dps := Vector.replicate 16 Dps.reset; ports := Vector.replicate 16 Port.reset
  store := Store.reset; tickets := []; lastTicket := 131071#17; convPtr := 0; timuPtr := 0
  queues := []; lastQueue := 0; sites := Vector.replicate 64 0; cal := Cal.reset
  sensors := Vector.replicate 24 Sensor.reset; smons := Vector.replicate 12 Smon.reset
  pmons := Vector.replicate 20 0; owl := Owl.reset; events := Events.reset; bear := Bear.reset; cols := []
  ring := Ring.reset; cairn := Cairn.reset; csps := Vector.replicate 2 Csp.reset; xip := Xip.reset; pending := []

end Sys2Proof.Machine
end

