-- ==== Sys2Proof/Machine/Operands.lean ====
section
/-! DEFINITION. Bit fields, signed readings, byte order, CRCs, times, sparse stores and the sine: the forms in which the
7264's commands and words carry their values. -/

namespace Sys2Proof.Machine

/-! ### Fields (R4) -/

/-- Bits [hi:lo] of a number, as a number. -/
def bits (w hi lo : Nat) : Nat := (w >>> lo) % 2 ^ (hi - lo + 1)

/-- Bit i of a number. -/
def bit (w i : Nat) : Bool := w.testBit i

/-- A flag as a bit at position i. -/
def flag (b : Bool) (i : Nat) : Nat := if b then 2 ^ i else 0

/-- A number read as a signed value of w bits. -/
def signed (w x : Nat) : Int :=
  let y := x % 2 ^ w
  if y < 2 ^ (w - 1) then (y : Int) else (y : Int) - 2 ^ w

/-- The w-bit code of a signed value. -/
def unsign (w : Nat) (i : Int) : Nat := (i % (2 ^ w : Int)).toNat

/-- Clamp to [lo, hi]. -/
def clampI (lo hi x : Int) : Int := max lo (min hi x)

/-- Ceiling division. -/
def cdiv (a b : Nat) : Nat := (a + b - 1) / b

/-- Nearest integer to a / b (b > 0), halves away from zero (R197, R221). -/
def roundDiv (a : Int) (b : Nat) : Int :=
  if 0 ≤ a then ((2 * a.toNat + b) / (2 * b) : Nat) else -(((2 * (-a).toNat + b) / (2 * b) : Nat) : Int)

/-- Nearest integer to a / b (b > 0), the choice at a tie left free (R148, R154; log entry 2). -/
def nearest (a : Int) (b : Nat) : Int :=
  let q := a / b
  let r := (a % b).toNat
  if 2 * r < b then q else if b < 2 * r then q + 1 else if Config.roundsUp a b then q + 1 else q

/-- A quotient whose rounding is left free (log entry 2). -/
def openDiv (a b : Nat) : Nat := a / b + (if a % b ≠ 0 ∧ Config.roundsUp a b then 1 else 0)

/-! ### Bytes, little-endian (R5) -/

/-- The n low bytes of a number, lowest first. -/
def leBytes : Nat → Nat → List Byte
  | 0, _ => []
  | n + 1, v => BitVec.ofNat 8 v :: leBytes n (v / 256)

/-- The number that bytes spell, lowest first. -/
def leNat : List Byte → Nat
  | [] => 0
  | b :: bs => b.toNat + 256 * leNat bs

/-- Bytes at [off, off + n) of a byte string, missing bytes zero. -/
def leAt (bs : List Byte) (off n : Nat) : Nat := leNat ((bs.drop off).take n)

/-- A byte string of exactly n bytes, cut or padded with zeros. -/
def padTo (n : Nat) (bs : List Byte) : List Byte := (bs.take n) ++ List.replicate (n - bs.length) 0

/-! ### CRCs (R278, R304, R326) -/

/-- Eight reflected steps of the CRC-32 of R278. -/
def crc32Bits : Nat → Nat → Nat
  | 0, c => c
  | k + 1, c => crc32Bits k (if c % 2 = 1 then (c / 2) ^^^ 0xEDB88320 else c / 2)

/-- One byte of the CRC-32. -/
def crc32Byte (c : Nat) (b : Byte) : Nat := crc32Bits 8 (c ^^^ b.toNat)

/-- The Akham packet CRC: IEEE 802.3, reflected, initial and final 0xFFFFFFFF (R278). -/
def crc32 (bs : List Byte) : Word := BitVec.ofNat 32 ((bs.foldl crc32Byte 0xFFFFFFFF) ^^^ 0xFFFFFFFF)

/-- One fold of the gang CRC over bits [108:64] of a vector and its period (R63). The rule gives no polynomial; only equality
of two folds is ever used, and the CRC of R278 serves. DEDUCED, log entry 10. -/
def gangFold (c : Word) (fields period : Nat) : Word :=
  BitVec.ofNat 32 ((leBytes 6 fields ++ leBytes 4 period).foldl crc32Byte c.toNat)

/-- Steps of an MSB-first CRC of the given width and polynomial. -/
def crcMsbBits (w poly : Nat) : Nat → Nat → Nat
  | 0, c => c
  | k + 1, c =>
    crcMsbBits w poly k (if c.testBit (w - 1) then ((2 * c) % 2 ^ w) ^^^ poly else (2 * c) % 2 ^ w)

/-- The CRC-16 of slave frames: 0x1021, initial 0xFFFF, MSB first (R326). -/
def crc16 (bs : List Byte) : BitVec 16 :=
  BitVec.ofNat 16 (bs.foldl (fun c b => crcMsbBits 16 0x1021 8 (c ^^^ (b.toNat <<< 8))) 0xFFFF)

/-- The CRC-8 of a Cairn frame over bits 0 to 63 in transmission order: 0x07, initial 0 (Table 12-4). -/
def crc8Bits (v : Nat) : Nat → Nat → Nat → Nat
  | 0, _, c => c
  | n + 1, i, c =>
    let c' := if v.testBit i then c ^^^ 0x80 else c
    crc8Bits v n (i + 1) (crcMsbBits 8 0x07 1 c')

def crc8 (v : Nat) : Byte := BitVec.ofNat 8 (crc8Bits v 64 0 0)

/-! ### Times (R12, R13, R99) -/

/-- Fine units in n ticks. -/
def ticksFu (n : Nat) : T64 := BitVec.ofNat 64 (n * 1024)

/-- Ticks in n microseconds and in n milliseconds: the base clock is 1.5 GHz. -/
def usTicks (n : Nat) : Nat := n * 1500
def msTicks (n : Nat) : Nat := n * 1500000

/-- Time a is later than time b (R13). -/
def later (a b : T64) : Bool := decide (0 < (a - b).toInt)

/-- Instant t has been reached at time now (R13). -/
def reached (now t : T64) : Bool := decide (0 ≤ (now - t).toInt)

/-- The signed difference a − b in fine units (R13). -/
def timeDiff (a b : T64) : Int := (a - b).toInt

/-- COARSE of a time (Table 0-6). -/
def coarse (t : T64) : Nat := t.toNat / 1024

/-- First instant at or after t whose COARSE is a multiple of m and whose FINE is 0. -/
def gridAfter (m : Nat) (t : T64) : T64 :=
  BitVec.ofNat 64 (cdiv (cdiv t.toNat 1024) m * m * 1024)

/-- First base-clock tick at or after t (R284). -/
def tickAfter (t : T64) : T64 := gridAfter 1 t

/-! ### Sparse stores -/

/-- What key k reads as. -/
def sget {α : Type} (d : Nat → α) : Sparse α → Nat → α
  | [], k => d k
  | (j, v) :: m, k => if k = j then v else sget d m k

/-- Store v at key k, keeping the canonical form. -/
def sput {α : Type} [DecidableEq α] (d : Nat → α) : Sparse α → Nat → α → Sparse α
  | [], k, v => if v = d k then [] else [(k, v)]
  | (j, w) :: m, k, v =>
    if k < j then (if v = d k then (j, w) :: m else (k, v) :: (j, w) :: m)
    else if k = j then (if v = d k then m else (k, v) :: m)
    else (j, w) :: sput d m k v

/-- The canonical form: keys above lo, strictly rising, no entry equal to its default. -/
def swfFrom {α : Type} [DecidableEq α] (d : Nat → α) : Option Nat → Sparse α → Bool
  | _, [] => true
  | lo, (j, v) :: m => (match lo with | none => true | some l => decide (l < j)) && decide (v ≠ d j) && swfFrom d (some j) m

/-- The canonical form of a whole store. -/
def swf {α : Type} [DecidableEq α] (d : Nat → α) (m : Sparse α) : Bool := swfFrom d none m

/-- The keys listed. -/
def skeys {α : Type} (m : Sparse α) : List Nat := m.map Prod.fst

/-! ### Host memory -/

/-- What a byte of host memory that DMA has not written reads as. DESIGN CHOICE, log entry 9. -/
def hostDflt : Nat → Byte := fun _ => 0

/-- The canonical form of the memory of host bytes that DMA has written. -/
abbrev Memory.wf (m : List Host.Cell) : Prop := swf hostDflt m = true

/-- Read one byte of host memory. -/
def hostByte (m : List Host.Cell) (a : Nat) : Byte := sget hostDflt m a

/-- Write bytes at an address, wrapping at 2^64. -/
def hostPut (m : List Host.Cell) : Nat → List Byte → List Host.Cell
  | _, [] => m
  | a, b :: bs => sput hostDflt (hostPut m (a + 1) bs) (a % 2 ^ 64) b

/-! ### Sine (R168, R185) -/

/-- Fixed-point terms of the sine series at angle x (scaled by 2^60), alternating. -/
def sinTerms (x2 : Int) : Nat → Nat → Int → Int
  | 0, _, _ => 0
  | n + 1, k, t => t + sinTerms x2 n (k + 2) (-(t * x2 / 2 ^ 60 / ((k + 1) * (k + 2) : Nat)))

/-- sin(2π·φ/2^32) for φ in the first quadrant, scaled by 2^60; 2π·2^60 is rounded to an integer. -/
def sinQuad (φ : Nat) : Int :=
  let x : Int := ((φ * 7244019458077122842 : Nat) : Int) / 2 ^ 32
  sinTerms (x * x / 2 ^ 60) 16 1 x

/-- sin(2π·φ/2^32) scaled by 2^60. -/
def sin60 (φ : Nat) : Int :=
  let q := φ / 2 ^ 30 % 4
  let r := φ % 2 ^ 30
  if q = 0 then sinQuad r else if q = 1 then sinQuad (2 ^ 30 - r)
  else if q = 2 then -(sinQuad r) else -(sinQuad (2 ^ 30 - r))

/-- round(A · sin(2π·φ/2^32)) (R185). -/
def sineSample (a φ : Nat) : Int := roundDiv (a * sin60 φ) (2 ^ 60)

/-- TABLE[i] of R168. -/
def sineTable (i : Nat) : Int := sineSample 32767 (i * 2 ^ 22)

/-! ### Lists and units -/

/-- All ridge numbers, in order. -/
def allRidges : List RidgeId := List.finRange 16

/-- All pin numbers, in order. -/
def allPins : List PinId := List.finRange 256

/-- Replace by f the element at index i. -/
def vmod {α : Type} {n : Nat} (v : Vector α n) (i : Fin n) (f : α → α) : Vector α n := v.set i (f v[i])

/-- Global pin number of a ridge's lane (R9). -/
def pinOf (r : RidgeId) (l : Fin 16) : PinId := ⟨16 * r.val + l.val, by omega⟩

/-- Ridge and lane of a pin (R9). -/
def pinRidge (p : PinId) : RidgeId := ⟨p.val / 16, by omega⟩
def pinLane (p : PinId) : Fin 16 := ⟨p.val % 16, by omega⟩

/-- Insert into a list kept without repeats. -/
def addOnce {α : Type} [DecidableEq α] (x : α) (l : List α) : List α := if x ∈ l then l else l ++ [x]

/-- The first index from `i` on, within `n` candidates, that passes. -/
def firstFrom (ok : Nat → Bool) : Nat → Nat → Option Nat
  | 0, _ => none
  | n + 1, i => if ok i then some i else firstFrom ok n (i + 1)

end Sys2Proof.Machine
end

