-- ==== Sys2Proof/Machine/Apg.lean ====
section
/-! DEFINITION. The algorithmic pattern generator (R65 to R69). -/

namespace Sys2Proof.Machine

/-- Scrambler entry k (Table 2-7). -/
def Apg.entry (a : Apg) (k : Nat) : Nat := bits (a.scr.toList.getD (k / 4) 0).toNat (6 * (k % 4) + 5) (6 * (k % 4))

/-- SA[k] of R66. -/
def Apg.addrBit (a : Apg) (k : Nat) : Bool :=
  decide (a.entry k < 48) && (a.y.toNat * 2 ^ 24 + a.x.toNat).testBit (a.entry k)

/-- The background bit of R66. -/
def Apg.background (a : Apg) : Bool :=
  match bits a.dataCfg.toNat 1 0 with
  | 0 => false
  | 1 => a.x.getLsbD 0 ^^ a.y.getLsbD 0
  | 2 => a.y.getLsbD 0
  | _ => a.x.getLsbD 0

/-- D of R66. -/
def Apg.data (a : Apg) : Nat :=
  let flip := fun (b : Bool) => if b then 0xFFFF else 0
  ((bits a.dataSeed.toNat 15 0 ^^^ flip a.background) ^^^ flip (a.dataCfg.getLsbD 2)) % 2 ^ (bits a.dataCfg.toNat 7 4 + 1)

/-- The selector of a lane (Table 2-7). -/
def Apg.selector (a : Apg) (l : Fin 16) : Nat :=
  bits (a.map.toList.getD (l.val / 3) 0).toNat (7 * (l.val % 3) + 6) (7 * (l.val % 3))

/-- The generator bit mapped to a lane (R67). -/
def Apg.laneBit (a : Apg) (l : Fin 16) : Bool :=
  let k := a.selector l
  if k < 48 then a.addrBit k else if k < 64 then a.data.testBit (k - 48) else k == 65

/-- One counter under XACT or YACT: its next value and whether it wraps (Table 2-8, R68, R69). -/
def apgStep (act : Nat) (v top : BitVec 24) : BitVec 24 × Bool :=
  match act with
  | 1 => if top.toNat ≤ v.toNat then (0, true) else (v + 1, false)
  | 2 => if v = 0 ∨ top.toNat < v.toNat then (top, true) else (v - 1, false)
  | 3 => (0, false)
  | 4 => (top, false)
  | _ => (v, false)

/-- An APG operation (Table 2-8); `doX` and `doY` say whether it applies to each counter (R69). -/
def Apg.oper (a : Apg) (op : Nat) (doX doY : Bool) : Apg :=
  let xs := if doX then apgStep (bits op 2 0) a.x a.xmax else (a.x, false)
  let y := if doY && (!bit op 6 || xs.2) then (apgStep (bits op 5 3) a.y a.ymax).1 else a.y
  { a with x := xs.1, y := y, dataCfg := if bit op 7 then a.dataCfg ^^^ 4#24 else a.dataCfg }

/-- APG_LOAD (Table 2-7); reserved bits stay 0, an index not in the table is ignored. -/
def Apg.load (a : Apg) (i : Nat) (v : BitVec 24) : Apg :=
  match i with
  | 0x00 => { a with x := v }
  | 0x01 => { a with y := v }
  | 0x02 => { a with xmax := v }
  | 0x03 => { a with ymax := v }
  | 0x05 => { a with dataCfg := v &&& 0xF7#24 }
  | 0x06 => { a with dataSeed := v &&& 0xFFFF#24 }
  | 0x07 => { a with defaultOp := v &&& 0xFF#24 }
  | n =>
    if h : 8 ≤ n ∧ n < 20 then { a with scr := a.scr.set (n - 8) v (by omega) }
    else if h : 24 ≤ n ∧ n < 30 then { a with map := a.map.set (n - 24) (v &&& (if n = 29 then 0x7F#24 else 0x1FFFFF#24)) (by omega) }
    else a

/-- The APG after a vector that carries APG_LOAD, with or without APG_ADV (R69). -/
def Apg.loadAdv (a : Apg) (i : Nat) (v : BitVec 24) (adv : Bool) : Apg :=
  if adv then (a.oper a.defaultOp.toNat (i != 0) (i != 1)).load i v else a.load i v

/-- The APG at a launch (R42). -/
def Apg.launch (a : Apg) : Apg := { a with x := 0, y := 0, dataCfg := a.dataCfg &&& 0xFFFFFB#24 }

end Sys2Proof.Machine
end

