-- ==== Sys2Proof/Machine/ParamTable.lean ====
section
/-! DEFINITION. The parameter map as a table (chapter 18): where each word lies, its access code, its reset value, its
writable bits, and the value checks that depend on the index and the value alone (R285). -/

namespace Sys2Proof.Machine

/-- Access codes (Table 0-4). -/
inductive Access where
  | rw | ro | rc | w1c | wo | rwl
  deriving DecidableEq, Repr

/-- A row of the map: access, reset value, and the bits a write can change (for W1C: the bits a 1 clears). -/
structure WordInfo where
  access : Access
  reset : Nat
  mask : Nat
  deriving DecidableEq, Repr

/-- Blocks of Table 18-1. -/
inductive Block where
  | pin | ridge | dps | port | global
  deriving DecidableEq, Repr

/-- Block, unit and word of an index (R405). -/
def locate (i : Nat) : Block × Nat × Nat :=
  if i < 0x1000 then (.pin, i / 16, i % 16)
  else if i < 0x1400 then (.ridge, (i - 0x1000) / 64, (i - 0x1000) % 64)
  else if i < 0x1600 then (.dps, (i - 0x1400) / 32, (i - 0x1400) % 32)
  else if i < 0x1800 then (.port, (i - 0x1600) / 32, (i - 0x1600) % 32)
  else (.global, 0, i - 0x1800)

/-- Index of word w of a pin, ridge, DPS or port (R405). -/
def pinW (p : PinId) (w : Nat) : Nat := 16 * p.val + w
def rdgW (r : RidgeId) (w : Nat) : Nat := 0x1000 + 64 * r.val + w
def dpsW (n : RidgeId) (w : Nat) : Nat := 0x1400 + 32 * n.val + w
def aptW (n : RidgeId) (w : Nat) : Nat := 0x1600 + 32 * n.val + w

/-- Table 5-13 and PIN_DESKEW of Table 4-9. -/
def pinWord : Nat → Option WordInfo
  | 0 => some ⟨.rwl, 0, 0xFF⟩
  | 1 | 2 | 3 | 4 | 5 | 10 => some ⟨.rw, 0x4000, 0xFFFF⟩
  | 6 => some ⟨.rw, 0xF000, 0xFFFF⟩
  | 7 => some ⟨.rw, 0x1000, 0xFFFF⟩
  | 8 | 9 => some ⟨.rw, 0, 0xFFFF⟩
  | 11 => some ⟨.rwl, 4, 0xF⟩
  | 12 => some ⟨.rw, 0x4000, 0xFFFF⟩
  | 13 => some ⟨.rw, 0x7FFF8001, 0xFFFFFFFF⟩
  | 14 => some ⟨.rwl, 0, 0x0FFF0FFF⟩
  | 15 => some ⟨.w1c, 0xE0, 0x1D⟩
  | _ => none

/-- Table 18-2. -/
def ridgeWord : Nat → Option WordInfo
  | 0x00 => some ⟨.rwl, 0, 1⟩
  | 0x01 => some ⟨.w1c, 0, 8⟩
  | 0x02 => some ⟨.rc, 0, 0⟩
  | 0x10 => some ⟨.rwl, 192, 0xFFF⟩
  | 0x11 => some ⟨.ro, 0, 0⟩
  | 0x12 => some ⟨.w1c, 0, 7⟩
  | 0x13 => some ⟨.rc, 0, 0⟩
  | 0x18 => some ⟨.rwl, 1, 0x7FF⟩
  | 0x19 => some ⟨.w1c, 0, 0x18⟩
  | 0x1A | 0x1B => some ⟨.ro, 0, 0⟩
  | 0x1C => some ⟨.rc, 0, 0⟩
  | 0x20 => some ⟨.rw, 0, 0xFFFFFFFF⟩
  | 0x21 => some ⟨.w1c, 0, 0x1C⟩
  | 0x22 => some ⟨.rc, 0, 0⟩
  | 0x23 => some ⟨.ro, 0, 0⟩
  | 0x30 => some ⟨.wo, 0, 1⟩
  | _ => none

/-- Table 6-6. -/
def dpsWord : Nat → Option WordInfo
  | 0 => some ⟨.rwl, 0x200, 0x3FF⟩
  | 1 => some ⟨.rw, 0, 0xFFFF⟩
  | 2 => some ⟨.rw, 0x7FFF8001, 0xFFFFFFFF⟩
  | 3 => some ⟨.rw, 0xEA600000, 0xFFFFFFFF⟩
  | 4 => some ⟨.rw, 1, 0x1FFF⟩
  | 5 => some ⟨.rw, 1, 0x3FF⟩
  | 6 => some ⟨.rw, 0, 0x1FFFF⟩
  | 7 => some ⟨.rw, 0, 0x7FFFF⟩
  | 8 => some ⟨.rw, 0, 0xFFFF⟩
  | 9 => some ⟨.rw, 430, 0xFFFFFFFF⟩
  | 10 => some ⟨.rw, 0, 0xFFFFFFFF⟩
  | 11 => some ⟨.rw, 0, 0x1FFF⟩
  | 12 => some ⟨.rwl, 0, 0xFFFFF1⟩
  | 13 => some ⟨.w1c, 0, 0x3B5⟩
  | 14 => some ⟨.ro, 0, 0⟩
  | 15 => some ⟨.ro, 0x7FFF, 0⟩
  | _ => none

/-- Table 7-6. -/
def portWord : Nat → Option WordInfo
  | 0 => some ⟨.rwl, 0, 0x3F⟩
  | 1 => some ⟨.rwl, 0xFFFFF, 0xFFFFF⟩
  | 2 | 9 => some ⟨.rw, 0x4000, 0xFFFF⟩
  | 3 => some ⟨.rwl, 0, 0xFFFFFF⟩
  | 4 | 5 => some ⟨.rw, 0, 0xFFFFFFFF⟩
  | 6 => some ⟨.rw, 0, 0x7FFF⟩
  | 7 => some ⟨.rwl, 0, 0x0FFF0FFF⟩
  | 8 => some ⟨.rwl, 0, 0x1FF⟩
  | 10 => some ⟨.rwl, 0, 0xFFF⟩
  | 11 => some ⟨.rwl, 0, 0x7FFFFFFF⟩
  | 12 => some ⟨.rwl, 0, 0xFFFFFFFF⟩
  | 13 => some ⟨.wo, 0, 3⟩
  | 14 => some ⟨.w1c, 0, 0x7C⟩
  | 15 => some ⟨.rc, 0, 0⟩
  | 16 => some ⟨.rw, 0, 0xFFFFFFFF⟩
  | 17 => some ⟨.ro, 0, 0⟩
  | _ => none

/-- Names of the global words that the model uses, as offsets in the global block (Table 18-4). -/
def gID := 0x1800
def gSTATUS := 0x1801
def gCLKCFG := 0x1890
def gCLKSTATUS := 0x1891
def gXOAGE := 0x1892
def gXOTCOMP := 0x1893
def gMARTENCFG := 0x18C0
def gSEED := 0x18C1
def gSHARECAP := 0x18C8
def gPLACEWAIT := 0x18C9
def gWINERR := 0x18D0
def gTIMEDERR := 0x18D1
def gRINGCFG := 0x18E1
def gRINGSTATUS := 0x18E2
def gRINGRETRY := 0x18E4
def gCAIRNCFG := 0x18E5
def gCAIRNSTATUS := 0x18E6
def gCAIRNDLY := 0x18E9
def gEXTDLY := 0x18EA
def gLASTCORR := 0x18EB
def gCAIRNMISSED := 0x18EC
def gCSPCFG (n : Fin 2) : Nat := 0x18F0 + 2 * n.val
def gCSPSTATUS (n : Fin 2) : Nat := 0x18F1 + 2 * n.val
def gCSPBAD (n : Fin 2) : Nat := 0x18F4 + n.val
def gFWLEVELS := 0x1901
def gRSIA := 0x1902
def gRSIB := 0x1903
def gRSIAPPLIED := 0x1904
def gCALCFG := 0x1905
def gCALSTATUS := 0x1906
def gCALFAIL := 0x1907
def gCALSEL := 0x1908
def gOWLCFG := 0x1911
def gOWLSTATUS := 0x1912
def gSMONSTATUS := 0x1913
def gEVTCFG := 0x1914
def gEVTSEL := 0x1916
def gSMON (m : Fin 12) : Nat := 0x1918 + m.val
def gPMONSEL := 0x193C
def gFAULTCFG := 0x1942
def gFAULTPARK := 0x1943
def gFAULTCRING := 0x1944
def gCECOUNT := 0x1947
def gCOLSEL := 0x1950

/-- The global block (Tables 3-4 to 18-5), by offset from 0x1800. GLB_CAIRN_CFG.ROOT and GLB_CSPn_CFG.ROLE take their
reset value from the straps (R304, R319); the table holds the other bits. -/
def globalWord : Nat → Option WordInfo
  | 0x000 => some ⟨.ro, 0x72640042, 0⟩
  | 0x001 => some ⟨.ro, 4, 0⟩
  | 0x002 => some ⟨.rw, 0, 0xFFFF⟩
  | 0x080 => some ⟨.ro, 1047488, 0⟩
  | 0x081 | 0x082 => some ⟨.ro, 0, 0⟩
  | 0x090 => some ⟨.rw, 3, 3⟩
  | 0x091 => some ⟨.w1c, 0, 4⟩
  | 0x092 => some ⟨.rw, 0, 0xFFFFFF⟩
  | 0x093 | 0x094 | 0x095 => some ⟨.ro, 0, 0⟩
  | 0x0A0 => some ⟨.ro, 0, 0⟩
  | 0x0B0 | 0x0B1 | 0x0B2 | 0x0B3 => some ⟨.ro, 0, 0⟩
  | 0x0C0 => some ⟨.rw, 2, 3⟩
  | 0x0C1 => some ⟨.rw, 0, 0x1FFFFF⟩
  | 0x0C2 => some ⟨.wo, 0, 1⟩
  | 0x0C3 | 0x0C4 | 0x0C5 | 0x0C6 => some ⟨.ro, 0, 0⟩
  | 0x0C7 => some ⟨.ro, 0x40000, 0⟩
  | 0x0C8 => some ⟨.rw, 0x8000, 0x7FFFF⟩
  | 0x0C9 => some ⟨.rc, 0, 0⟩
  | 0x0D0 | 0x0D1 => some ⟨.w1c, 0, 0x80000000⟩
  | 0x0E0 => some ⟨.ro, 0, 0⟩
  | 0x0E1 => some ⟨.rw, 1, 1⟩
  | 0x0E2 => some ⟨.w1c, 3, 0x20⟩
  | 0x0E3 => some ⟨.ro, 0, 0⟩
  | 0x0E4 => some ⟨.rc, 0, 0⟩
  | 0x0E5 => some ⟨.rw, 0x90002, 0x3FFF0003⟩
  | 0x0E6 => some ⟨.w1c, 0x40, 0x3C⟩
  | 0x0E7 | 0x0E8 | 0x0E9 => some ⟨.ro, 0, 0⟩
  | 0x0EA => some ⟨.rw, 0, 0xFFFFFFFF⟩
  | 0x0EB => some ⟨.ro, 0, 0⟩
  | 0x0EC => some ⟨.rc, 0, 0⟩
  | 0x0F0 => some ⟨.rw, 0x700, 0xFF01⟩
  | 0x0F1 | 0x0F3 => some ⟨.w1c, 0, 0x7F8⟩
  | 0x0F2 => some ⟨.rw, 0x701, 0xFF01⟩
  | 0x0F4 | 0x0F5 => some ⟨.rc, 0, 0⟩
  | 0x100 | 0x101 | 0x102 | 0x103 | 0x104 => some ⟨.ro, 0, 0⟩
  | 0x105 => some ⟨.rw, 1, 1⟩
  | 0x106 => some ⟨.w1c, 0x80, 0x3F⟩
  | 0x107 => some ⟨.ro, 0, 0⟩
  | 0x108 => some ⟨.rw, 0, 0xFFFF⟩
  | 0x109 | 0x10A => some ⟨.ro, 0, 0⟩
  | 0x110 => some ⟨.ro, 0, 0⟩
  | 0x111 => some ⟨.rw, 0x32, 0x3FF⟩
  | 0x112 => some ⟨.w1c, 0, 0xC⟩
  | 0x113 => some ⟨.w1c, 0, 0x0FFF0000⟩
  | 0x114 => some ⟨.rw, 0xFF, 0xFF⟩
  | 0x115 => some ⟨.wo, 0, 0xF⟩
  | 0x116 => some ⟨.rw, 0, 0xFF⟩
  | 0x117 => some ⟨.rc, 0, 0⟩
  | 0x13C => some ⟨.rw, 0, 0x1F⟩
  | 0x13D => some ⟨.ro, 0, 0⟩
  | 0x140 | 0x141 => some ⟨.w1c, 0, 0xFFFFFFFF⟩
  | 0x142 => some ⟨.rw, 0x02820064, 0x1FFFFFFF⟩
  | 0x143 => some ⟨.rw, 0, 0xFFFF⟩
  | 0x144 => some ⟨.rw, 0xFF, 0xFF⟩
  | 0x145 | 0x146 => some ⟨.ro, 0, 0⟩
  | 0x147 => some ⟨.rc, 0, 0⟩
  | 0x148 => some ⟨.wo, 0, 1⟩
  | 0x150 => some ⟨.rw, 0, 0x3F⟩
  | 0x151 => some ⟨.rc, 0, 0⟩
  | 0x152 => some ⟨.w1c, 0, 7⟩
  | n => if 0x118 ≤ n ∧ n ≤ 0x123 then some ⟨.rw, 0x0266019A, 0x03FF03FF⟩
         else if 0x124 ≤ n ∧ n ≤ 0x13B then some ⟨.ro, 0, 0⟩ else none

/-- The row of an index; `none` for a reserved index or one above 0x19FF (R407, R408). -/
def wordInfo (i : Nat) : Option WordInfo :=
  if 0x1A00 ≤ i then none
  else match locate i with
    | (.pin, _, w) => pinWord w
    | (.ridge, _, w) => ridgeWord w
    | (.dps, _, w) => dpsWord w
    | (.port, _, w) => portWord w
    | (.global, _, w) => globalWord w

/-- What the map stores for an index before anything writes it: the table's reset value, less the bits of a W1C word that
are computed from the state. -/
def resetWord (i : Nat) : Word :=
  match wordInfo i with
  | none => 0
  | some w => BitVec.ofNat 32 (if w.access = .w1c then w.reset &&& w.mask else w.reset)

/-- The word is kept in retained state (R351). -/
def isRetained (i : Nat) : Bool :=
  match wordInfo i with
  | none => false
  | some w => (w.access = .rw ∨ w.access = .rwl) &&
    !(i = gCALSEL ∨ (0x1600 ≤ i ∧ i < 0x1800 ∧ i % 32 = 16) ∨ (0x1000 ≤ i ∧ i < 0x1400 ∧ i % 64 = 0x20))

/-- A voltage level code in [lo, hi] (R138). -/
def inRange (lo hi x : Nat) : Bool := decide (lo ≤ x) && decide (x ≤ hi)

/-- Both halves are current codes with low below high (R146, R153). -/
def currentPair (v : Nat) : Bool :=
  let lo := bits v 15 0; let hi := bits v 31 16
  lo != 0x8000 && hi != 0x8000 && decide (signed 16 lo < signed 16 hi)

/-- A selection of Table 14-7 (R350). -/
def calSelOk (v : Nat) : Bool :=
  let u := bits v 7 0; let it := bits v 12 8; let c := bits v 15 13
  match c with
  | 0 => decide (it ≤ 29)
  | 1 => decide (it ≤ 3)
  | 2 => decide (u ≤ 15) && decide (it ≤ 13)
  | 3 => decide (u ≤ 15) && decide (it ≤ 7)
  | 4 => decide (u ≤ 63) && decide (it ≤ 1)
  | 5 => decide (u ≤ 15) && decide (it ≤ 1)
  | _ => false

/-- A completion ring number or 0xFF. -/
def cringOk (v : Nat) : Bool := decide (v ≤ 63) || v == 0xFF

/-- The value checks that hold in every state, on a value whose reserved bits are already clear (R6, R285). -/
def staticOk (i v : Nat) : Bool :=
  match locate i with
  | (.pin, _, w) =>
    if w = 0 then bits v 1 0 != 3
    else if w = 1 ∨ w = 2 ∨ w = 3 ∨ w = 10 then inRange 0x2000 0xD000 v
    else if w = 4 ∨ w = 5 ∨ w = 6 ∨ w = 7 then inRange 0x1000 0xF000 v
    else if w = 8 ∨ w = 9 then decide (v ≤ 64000)
    else if w = 11 then decide (bits v 3 1 ≤ 4)
    else true
  | (.ridge, _, w) => if w = 0x18 then inRange 1 1024 v else if w = 0x10 then decide (v ≤ 3072) else true
  | (.dps, _, w) =>
    if w = 0 then bits v 1 0 != 3 && decide (bits v 4 2 ≤ 5)
    else if w = 2 then currentPair v
    else if w = 3 then decide (bits v 31 16 ≤ 60000) && decide (bits v 15 0 < bits v 31 16)
    else if w = 4 then inRange 1 4096 v
    else if w = 5 then inRange 1 1000 v
    else if w = 6 then decide (bits v 15 0 ≤ 60000)
    else if w = 7 then decide (bits v 15 0 ≤ 60000) && bits v 17 16 != 3
    else if w = 8 then v != 0x8000
    else if w = 9 then inRange 430 214748365 v
    else if w = 11 then decide (v ≤ 5000)
    else if w = 12 then bits v 0 0 == 0 || inRange 10000 1000000 (bits v 23 4)
    else true
  | (.port, _, w) =>
    if w = 0 then bits v 1 0 != 3 && bits v 4 3 != 3
    else if w = 2 ∨ w = 9 then inRange 0x2000 0xA000 v
    else if w = 4 then decide (v ≤ 1717986918)
    else if w = 8 then bits v 1 0 != 3 && decide (bits v 8 5 ≤ 8)
    else if w = 10 then bits v 1 0 != 3
    else true
  | (.global, _, _) =>
    if i = gXOAGE then decide (-200000 ≤ signed 24 v) && decide (signed 24 v ≤ 200000)
    else if i = gSEED then decide (v < 1047488)
    else if i = gSHARECAP then inRange 1 262144 v
    else if i = gCAIRNCFG then decide (bits v 29 16 < 10000)
    else if i = gEXTDLY then decide (-16777215 ≤ signed 32 v) && decide (signed 32 v ≤ 16777215)
    else if i = gCALSEL then calSelOk v
    else if i = gOWLCFG then inRange 1 1000 v
    else if i = gEVTCFG then cringOk v
    else if 0x1918 ≤ i ∧ i ≤ 0x1923 then
      inRange 308 716 (bits v 9 0) && inRange 308 716 (bits v 25 16) && decide (bits v 9 0 < bits v 25 16)
    else if i = gPMONSEL then decide (v < 20)
    else if i = gFAULTCFG then inRange 1 10000 (bits v 13 0) && inRange 1 60 (bits v 27 22)
    else if i = gFAULTPARK then decide (v ≤ 50000)
    else if i = gFAULTCRING then cringOk v
    else if i = gCOLSEL then decide (v ≤ 46)
    else true

end Sys2Proof.Machine
end

