-- ==== Sys2Proof/Machine/Flags.lean ====
section
/-! DEFINITION. The words of the parameter map as the hardware itself reads and updates them: fields, sticky flags and
saturating counters (Table 0-4). -/

namespace Sys2Proof.Machine

/-- The value the map stores for an index. -/
def word (s : State) (i : Nat) : Nat := (sget resetWord s.params i).toNat

/-- Bits [hi:lo] of a word. -/
def field (s : State) (i hi lo : Nat) : Nat := bits (word s i) hi lo

/-- Bit b of a word. -/
def isSet (s : State) (i b : Nat) : Bool := (word s i).testBit b

/-- Store a word. -/
def putWord (s : State) (i v : Nat) : State :=
  { s with params := sput resetWord s.params i (BitVec.ofNat 32 v) }

/-- Set the bits of a mask: a sticky flag. -/
def setBits (s : State) (i m : Nat) : State := putWord s i (word s i ||| m)

/-- Clear the bits of a mask. -/
def clrBits (s : State) (i m : Nat) : State := putWord s i (word s i &&& (0xFFFFFFFF ^^^ m))

/-- Replace bits [hi:lo]. -/
def putField (s : State) (i hi lo v : Nat) : State :=
  putWord s i (word s i - field s i hi lo * 2 ^ lo + v % 2 ^ (hi - lo + 1) * 2 ^ lo)

/-- A counter that saturates at 0xFFFFFFFF. -/
def bump (s : State) (i n : Nat) : State := putWord s i (min 0xFFFFFFFF (word s i + n))

/-- A largest-value record that saturates. -/
def keepMax (s : State) (i v cap : Nat) : State := putWord s i (max (word s i) (min v cap))

/-! ### Calibration items (Table 14-7) -/

/-- Key of an item, as GLB_CAL_SEL packs it. -/
def calKey (cls unit item : Nat) : Nat := unit + item * 256 + cls * 8192

/-- The item is a gain and offset pair. -/
def calIsPair (key : Nat) : Bool :=
  let c := key / 8192
  let i := key / 256 % 32
  c == 0 || c == 2 || (c == 3 && decide (i ≤ 5)) || (c == 4 && i == 0)

/-- What an item holds before any calibration: gain 1 with no offset, and no delay. PRESUMED, log entry 8. -/
def calDflt (key : Nat) : Word := if calIsPair key then 16384 else 0

def calWord (s : State) (cls unit item : Nat) : Nat := (sget calDflt s.cal.items (calKey cls unit item)).toNat

/-- A delay item in fine units. -/
def calDelay (s : State) (cls unit item : Nat) : Int := signed 16 (calWord s cls unit item)

/-- code_out of R139, and whether a bound cut it (R140). -/
def correct (pair x : Nat) : Nat × Bool :=
  let v : Int := ((bits pair 15 0 * x + 8192) / 16384 : Nat) + signed 16 (bits pair 31 16)
  ((clampI 0 65535 v).toNat, decide (v < 0) || decide (65535 < v))

end Sys2Proof.Machine
end

