-- ==== Sys2Proof/Machine/Ops.lean ====
section
/-! DEFINITION. The operations that every family of commands shares: updates of one unit, the SAFE condition, events,
completion rings, notices, replies, and the fault log. -/

namespace Sys2Proof.Machine

/-! ### One unit at a time -/

def modR (s : State) (r : RidgeId) (f : Ridge → Ridge) : State := { s with ridges := vmod s.ridges r f }
def modPin (s : State) (p : PinId) (f : Pin → Pin) : State := { s with pins := vmod s.pins p f }
def modDps (s : State) (n : RidgeId) (f : Dps → Dps) : State := { s with dps := vmod s.dps n f }
def modPort (s : State) (n : RidgeId) (f : Port → Port) : State := { s with ports := vmod s.ports n f }
def modSq (s : State) (q : Fin 64) (f : Sq → Sq) : State := { s with sq := vmod s.sq q f }
def modCq (s : State) (c : Fin 64) (f : Cq → Cq) : State := { s with cq := vmod s.cq c f }

def modCsp (s : State) (n : Fin 2) (f : Csp → Csp) : State := { s with csps := vmod s.csps n f }

/-- A queue nothing has configured (R252). -/
def qDflt : Nat → Queue := fun _ => Queue.reset

def getQ (s : State) (id : Nat) : Queue := sget qDflt s.queues id

/-- Entries in storage (R259). -/
def Queue.depth (q : Queue) : Nat := q.store.foldl (fun n p => n + p.payload.length) 0

/-- Entries in storage and entries held for jobs (R234, R378). -/
def Queue.used (q : Queue) : Nat := q.depth + q.held

/-- A lowered reservation is kept for the entries that the queue still holds, and shrinks as they are freed (R244). -/
def Queue.shrink (q : Queue) : Queue := { q with reserved := max q.reservation (min q.reserved q.used) }

def modQ (s : State) (id : Nat) (f : Queue → Queue) : State :=
  { s with queues := sput qDflt s.queues id (f (getQ s id)).shrink }

def colDflt : Nat → Col := fun _ => ⟨0, false, false, false⟩
def modCol (s : State) (c : Nat) (f : Col → Col) : State :=
  { s with cols := sput colDflt s.cols c (f (sget colDflt s.cols c)) }

/-- Apply an operation for every element of a list, in order. -/
def each {α : Type} (l : List α) (f : State → α → State) (s : State) : State := l.foldl f s

/-- A free value: the counter that selects it advances (log entry 2). -/
def tickFree (s : State) : State := { s with free := s.free + 1 }

/-! ### Conditions of the whole device -/

/-- The retained-state image has been applied (STAGE 6, R332). -/
def booted (s : State) : Bool := s.boot.stage == 6

/-- Bear holds the safe state (Table 16-5: SAFE, RECOVERING or FAULTED). -/
def bearSafe (s : State) : Bool :=
  match s.bear.state with
  | .safe | .recovering | .faulted => true
  | .normal | .parking => false

/-- Ridges in the scope of a CAL_RUN in progress (R346). -/
def calRidges (s : State) : List RidgeId :=
  s.link.longs.flatMap fun l => match l.job with
    | .calRun _ rs => rs
    | _ => []

/-- A cause of the SAFE condition holds on the pins of a ridge (R131, R346, R371, Table 15-2). -/
def pinSafe (s : State) (r : RidgeId) : Bool :=
  !booted s || bearSafe s || s.owl.shutdown || s.ridges[r].inReset || decide (r ∈ calRidges s) ||
    !s.smons[7].released || !s.smons[8].released

/-- A cause that keeps a DPS in OFF with discharge holds (R162, R332, R346, R371). -/
def dpsForcedOff (s : State) (n : RidgeId) : Bool :=
  !booted s || s.owl.shutdown || decide (n ∈ calRidges s)

/-- The comparator is not evaluated from now on (R36, R137). -/
def Pin.blind (x : Pin) (now : T64) : Pin :=
  match x.hist with
  | (_, some _) :: _ => { x with hist := (now, none) :: x.hist }
  | _ => x

/-- A pin in the SAFE condition: driver at high-Z, PMU disconnected, comparator not evaluated (Table 5-1). It returns to
the mode of PIN_CFG when the cause ends (R131). -/
def Pin.toSafe (x : Pin) (cfgMode : Nat) (now : T64) : Pin :=
  { x.blind now with drv := .hiz, edge := .hiz, mode := 0, changing := cfgMode != 0, pull := true, complyNow := false }

/-- A DPS in OFF, with or without the discharge path (R155). -/
def Dps.toOff (disch : Bool) (x : Dps) : Dps :=
  { x with out := .off, level := 0, target := 0, closing := false, limitNow := false, complyNow := false,
           internalSense := false, effLimit := none, volt := 0, boostEn := false, disch := disch }

/-- The electrical conditions that hold whatever a command did: R131 for the pins, R162, R346 and R371 for the DPS. -/
def settle (s : State) : State :=
  { s with
    pins := Vector.ofFn fun p => if pinSafe s (pinRidge p) then s.pins[p].toSafe (field s (pinW p 0) 1 0) s.now else s.pins[p]
    dps := Vector.ofFn fun n => if dpsForcedOff s n then (s.dps[n]).toOff true else s.dps[n] }

/-- A command's outcome: its effect, with the standing conditions in force, on everything but the queue of waiting
commands. -/
def done (s t : State) : Host.Outcome State Fault Refusal := .next { settle t with pending := s.pending }

/-- The ridge runs, in the sense of the RWL access code (R41). -/
def runs (s : State) (r : RidgeId) : Bool :=
  match s.ridges[r].st with
  | .armed | .running | .hold | .parked => true
  | .unbound | .bound => false

/-- Code of a sequencer state (Table 2-4). -/
def SeqState.code : SeqState → Nat
  | .unbound => 0 | .bound => 1 | .armed => 2 | .running => 3 | .hold => 4 | .parked => 5

/-- Ridges of a pin mask. -/
def maskRidges (m : BitVec 256) : List RidgeId := allRidges.filter fun r => (m.toNat >>> (16 * r.val)) % 65536 != 0

/-- Sites with a pin on the ridge. -/
def sitesOn (s : State) (r : RidgeId) : List (Fin 64) :=
  (List.finRange 64).filter fun k => (s.sites[k].toNat >>> (16 * r.val)) % 65536 != 0

/-- Lanes of a site on a ridge. -/
def siteLanes (s : State) (k : Fin 64) (r : RidgeId) : BitVec 16 := BitVec.ofNat 16 (s.sites[k].toNat >>> (16 * r.val))

/-- The site that a pin belongs to, if any (R10). -/
def siteOf (s : State) (p : PinId) : Option (Fin 64) := (List.finRange 64).find? fun k => s.sites[k].getLsbD p.val

/-- The ridges that share a site with one of a set. -/
def shareSite (s : State) (g : List RidgeId) : List RidgeId :=
  allRidges.filter fun r => decide (r ∈ g) || (List.finRange 64).any fun k =>
    decide (r ∈ maskRidges s.sites[k]) && g.any fun q => decide (q ∈ maskRidges s.sites[k])

/-- Closure under sharing a site (R62): fifteen rounds reach every ridge. -/
def closeGang (s : State) : Nat → List RidgeId → List RidgeId
  | 0, g => g
  | n + 1, g => closeGang s n (shareSite s g)

/-- The gang of a ridge (R62). -/
def gang (s : State) (r : RidgeId) : List RidgeId := closeGang s 15 [r]

/-- The gangs of several ridges. -/
def gangs (s : State) (rs : List RidgeId) : List RidgeId := closeGang s 15 rs

/-! ### Events (R364, R365, R427) -/

/-- The col that carries a source into the router; none for a source of AON (R427). -/
def colOf (src : Nat) : Option Nat :=
  if src < 0xD0 then some (16 + src % 16)
  else if src = 0xD0 ∨ src = 0xD1 ∨ src = 0xD7 ∨ src = 0xDE ∨ 0xF0 ≤ src then some 40
  else if (0xD3 ≤ src ∧ src ≤ 0xD6) ∨ src = 0xDD ∨ (0xE8 ≤ src ∧ src ≤ 0xEF) then some 43
  else none

def evtDflt : Nat → EvtSrc := fun _ => ⟨0, false, 0, 0⟩

def flightDflt : Nat → Option (Nat × EvtSrc) := fun _ => none
def lastDflt : Nat → Nat := fun _ => 255

/-- The request in flight on a col. -/
def flightOf (s : State) (c : Nat) : Option (Nat × EvtSrc) := sget flightDflt s.events.flight c

/-- The col requests a source: its count and payload leave the counter (R365). -/
def request (s : State) (c src : Nat) : State :=
  { s with events := { s.events with
    flight := sput flightDflt s.events.flight c (some (src, sget evtDflt s.events.src src))
    src := sput evtDflt s.events.src src (evtDflt src)
    last := sput lastDflt s.events.last c src } }

/-- A source fires: its count and latest payload go with the request of an idle col at once, and wait for the next request of
a busy one; the counter saturates at 255 (R365, R400). -/
def raise (s : State) (src payload : Nat) : State :=
  let e := sget evtDflt s.events.src src
  let full := e.count == 255
  let e' : EvtSrc := { count := min 255 (e.count + 1), ovf := e.ovf || full, payload := BitVec.ofNat 24 payload, time := s.now }
  let s := { s with events := { s.events with src := sput evtDflt s.events.src src e' } }
  match colOf src with
  | some c => if full then modCol s c fun x => { x with ovf := true } else if flightOf s c = none then request s c src else s
  | none => s

/-! ### Completion rings (R274 to R276) -/

/-- DMA can write: not in the safe state, not after thermal shutdown (R371, R385). -/
def dmaOk (s : State) : Bool :=
  !s.owl.shutdown && (match s.bear.state with | .safe | .faulted => false | _ => true)

/-- Entries neither written nor consumed. -/
def Cq.free (q : Cq) : Nat := 2 ^ q.n - (q.tail - q.head).toNat

/-- A free entry that is not reserved (R274). -/
def Cq.spare (q : Cq) : Bool := q.enabled && decide (q.reserved < q.free)

/-- The completion ring can be written now. -/
def cqOpen (s : State) (c : Fin 64) : Bool := dmaOk s && s.cq[c].enabled && !s.cq[c].blocked

/-- Signal the ring's MSI-X vector; a masked vector keeps its pending bit (R276, Table 11-1). -/
def signalCq (s : State) (c : Fin 64) : State :=
  let v := s.cq[c].vector
  let s := modCq s c fun q => { q with unsignalled := 0 }
  { s with msix := vmod s.msix v fun m => if m.masked then { m with pending := true } else { m with sent := m.sent + 1 } }

/-- Write an entry, then the writeback, then the interrupt rule (R276). -/
def cqWrite (s : State) (c : Fin 64) (entry : List Byte) : State :=
  let q := s.cq[c]
  let tail := q.tail + 1
  let host := hostPut s.host (q.base.toNat + 16 * (q.tail.toNat % 2 ^ q.n)) (padTo 16 entry)
  let host := hostPut host q.wb.toNat (leBytes 4 tail.toNat ++ leBytes 4 0)
  let un := q.unsignalled + 1
  let s := modCq { s with host := host } c fun x =>
    { x with tail := tail, unsignalled := un, oldest := if q.unsignalled = 0 then s.ticks else q.oldest }
  if q.irqTime = 0 ∨ q.irqCount ≤ un then signalCq s c else s

/-! ### Notices (R275, R366, R377) -/

/-- Bytes of a notice; a host notice carries its count in byte 3. -/
def Notice.bytes (n : Notice) : List Byte :=
  match n.key with
  | .event _ => leBytes 16 (n.entry.toNat ||| (min 255 n.count <<< 24))
  | _ => leBytes 16 n.entry.toNat

/-- A notice goes out now: the ring is open and an unreserved entry is free. -/
def noticeOut (s : State) (c : Fin 64) : Bool := cqOpen s c && s.cq[c].spare

/-- The notice pending for a key takes a later one up: counts add, OVERFLOW stays, the rest is the later one's (R275, R366). -/
def Notice.merge (m n : Notice) : Notice :=
  { n with count := m.count + n.count
           entry := match n.key with | .event _ => n.entry ||| (m.entry &&& BitVec.ofNat 128 (2 ^ 63)) | _ => n.entry }

/-- Post a notice: written, merged into the one pending for its key, or kept pending (R275, R366). -/
def postNotice (s : State) (n : Notice) : State :=
  let same := fun (m : Notice) => decide (m.cq = n.cq ∧ m.key = n.key)
  if s.link.notices.any same then
    let l := s.link.notices.map fun m => if same m then m.merge n else m
    modCq { s with link := { s.link with notices := l } } n.cq fun q => { q with merged := true }
  else if noticeOut s n.cq then cqWrite s n.cq n.bytes
  else { s with link := { s.link with notices := s.link.notices ++ [n] } }

/-- A completion-ring number held in a word, where 0xFF means none. -/
def cringOf (v : Nat) : Option (Fin 64) := if h : v < 64 then some ⟨v, h⟩ else none

/-! ### The ring between two positions (R291, R300, R301) -/

/-- Steps downstream from one position to another. -/
def ringDist (s : State) (a b : Nat) : Nat :=
  let n := s.ring.members.length
  (b % n + n - a % n) % n

/-- Positions upstream of the links that are down. -/
def downLinks (s : State) : List Nat :=
  let n := s.ring.members.length
  let p := s.ring.position.toNat
  let l := if s.ring.bUp then s.ring.far else addOnce p s.ring.far
  if s.ring.aUp then l else addOnce ((p + n - 1) % n) l

/-- No down link lies on the way downstream from a to b. -/
def clearWay (s : State) (a b : Nat) : Bool := (downLinks s).all fun l => decide (ringDist s a b ≤ ringDist s a l)

/-- Two positions reach each other, downstream or by the wrap. -/
def ringReach (s : State) (a b : Nat) : Bool := clearWay s a b || clearWay s b a

/-- A member can be reached from this device: it answered the last enumeration, and no split lies between. -/
def reachable (s : State) (t : Nat) : Bool :=
  ringReach s s.ring.position.toNat t && (match s.ring.members[t]? with | some m => m.reachable | none => false)

/-! ### What leaves on the ring (R291, R292, R300, R301) -/

def modRing (s : State) (f : Ring → Ring) : State := { s with ring := f s.ring }

/-- A frame goes out by RING_B or by RING_A. -/
def frameOut (s : State) (portB : Bool) (m : RingMsg) : State :=
  modRing s fun r =>
    { r with txB := r.txB + portB.toNat, txA := r.txA + (!portB).toNat
             outbox := r.outbox ++ [⟨portB, if portB then r.txB else r.txA, m, 1, s.ticks⟩] }

/-- The port by which forward traffic leaves: RING_B, or RING_A, on its reverse lanes, where the link of RING_B is down (R300). -/
def forwardPort (s : State) : Option Bool := if s.ring.bUp then some true else if s.ring.aUp then some false else none

/-- Forward traffic leaves, or waits for a path (R301). -/
def sendRing (s : State) (dest : Option Nat) (m : RingMsg) : State :=
  let open_ := match dest with | some p => reachable s p | none => true
  match open_, forwardPort s with
  | true, some b => frameOut s b m
  | _, _ => modRing s fun r => { r with held := r.held ++ [(dest, m)] }

/-! ### Replies (R25, R281, R289) -/

/-- The 16 bytes of a reply (Table 11-7). -/
def replyBytes (r : Reply) : List Byte :=
  leBytes 1 r.opcode.toNat ++ leBytes 1 r.status.toNat ++ leBytes 2 r.tag.toNat ++ leBytes 4 r.info.toNat ++ leBytes 8 r.time.toNat

def setTaken (s : State) (q : Fin 64) (l : List Taken) : State := modSq s q fun x => { x with taken := l }

/-- The packet of this enabling and SEQ, not yet answered (R272). -/
def Taken.waits (t : Taken) (era : Nat) (seq : Word) : Bool := decide (t.era = era ∧ t.seq = seq ∧ t.reply = none)

def modTaken (s : State) (q : Fin 64) (era : Nat) (seq : Word) (f : Taken → Taken) : State :=
  setTaken s q (s.sq[q].taken.map fun t => if t.waits era seq then f t else t)

def unreserve (s : State) (c : Fin 64) : State := modCq s c fun x => { x with reserved := x.reserved - 1 }

/-- Write the replies that stand at the front of a ring's list of taken packets, in order (R281), each to the completion ring in which
it reserved its entry; a suppressed DONE or ACCEPTED only releases its entry (R274, R279). -/
def deliverList (q : Fin 64) : List Taken → State → State
  | [], s => setTaken s q []
  | t :: ts, s =>
    match t.reply with
    | none => setTaken s q (t :: ts)
    | some r =>
      if t.suppress && decide (r.status.toNat ≤ 1) then deliverList q ts (unreserve s t.cq)
      else if cqOpen s t.cq then deliverList q ts (cqWrite (unreserve s t.cq) t.cq (replyBytes r))
      else setTaken s q (t :: ts)

def deliver (s : State) (q : Fin 64) : State := deliverList q s.sq[q].taken s

/-- Give the taken packet its reply, then write what may be written. -/
def setReply (s : State) (q : Fin 64) (era : Nat) (seq : Word) (r : Reply) : State :=
  deliver (modTaken s q era seq fun t => { t with reply := some r }) q

/-- One member's reply to a MULTICAST packet (R289). Of an ACCEPTED reply the time is that of the last member that accepted, of a DONE
reply that of the last member. DESIGN CHOICE, log entry 70. -/
def McState.add (m : McState) (pos : Nat) (r : Reply) : McState :=
  let low := match m.lowest with
    | some x => if x.1 ≤ pos then x else (pos, r.status, r.time)
    | none => (pos, r.status, r.time)
  { m with
    waiting := m.waiting.erase pos, accepted := m.accepted || r.status == 1
    refused := m.refused + (if 1 < r.status.toNat then 1 else 0), lowest := if 1 < r.status.toNat then some low else m.lowest
    time := if r.status = 1 ∨ (r.status = 0 ∧ !m.accepted) then r.time else m.time }

/-- The single reply of a MULTICAST packet once every member has answered (R289). -/
def McState.reply (m : McState) (t : Taken) : Reply :=
  match m.lowest with
  | some x => ⟨t.opcode, x.2.1, t.tag, BitVec.ofNat 32 (min 65535 m.refused + x.1 * 65536), x.2.2⟩
  | none => ⟨t.opcode, if m.accepted then 1 else 0, t.tag, 0, m.time⟩

/-- A member's reply to a packet of ring q: the packet's own, or one of a MULTICAST's. -/
def memberReply (s : State) (q : Fin 64) (era : Nat) (seq : Word) (pos : Nat) (r : Reply) : State :=
  match s.sq[q].taken.find? fun t => t.waits era seq with
  | none => s
  | some t =>
    match t.mc with
    | none => setReply s q era seq r
    | some m =>
      if !m.waiting.contains pos then s
      else
        let m := m.add pos r
        let s := modTaken s q era seq fun t => { t with mc := some m }
        if m.waiting = [] then setReply s q era seq (m.reply t) else s

/-- Answer a command: over the ring for a forwarded packet, else to its own submission ring (R281, R293). -/
def answer (s : State) (h : Hdr) (op st info : Nat) (time : T64) : State :=
  let r : Reply := ⟨BitVec.ofNat 8 op, BitVec.ofNat 8 st, h.tag, BitVec.ofNat 32 info, time⟩
  match h.remote with
  | some e => sendRing s (some e.toNat) (.reply e h.ring h.era h.seq s.ring.position r)
  | none => memberReply s h.ring h.era h.seq s.ring.position.toNat r

/-- DONE, ACCEPTED and the refusals (Table 11-8); bytes 8-15 of DONE and of a refusal hold the present T64. -/
def replyDone (s : State) (h : Hdr) (op info : Nat) : State := answer s h op 0x00 info s.now
def replyAccepted (s : State) (h : Hdr) (op info : Nat) (t : T64) : State := answer s h op 0x01 info t
def refuse (s : State) (h : Hdr) (op st info : Nat) : State := answer s h op st info s.now

/-- Status codes (Table 11-8). -/
def BAD_OPCODE := 0x10
def BAD_LENGTH := 0x11
def BAD_PARAM := 0x12
def BAD_TARGET := 0x13
def CRC_ERROR := 0x14
def BUSY := 0x20
def NOT_IN_BASELINE := 0x21
def LATE := 0x22
def MEMBER_QUARANTINED := 0x23
def THROTTLED := 0x24
def TS_ACTIVE := 0x31
def SEG_BUSY := 0x32
def SEG_NOT_FOUND := 0x33
def CAPTURE_TOO_LONG := 0x41
def TICKETS_EXHAUSTED := 0x42
def ABORTED_FAULT := 0x50
def ABORTED_RESET := 0x51
def AUTH_FAIL := 0x60
def INTERNAL := 0xFF

/-- Opcodes of long commands (Table 11-9, R286). -/
def longOp (op : Nat) : Bool := decide (op ∈ [0x08, 0x09, 0x10, 0x31, 0x48, 0x58, 0x59, 0x60])

/-- A packet joins the ring's list and reserves a completion entry. -/
def addTaken (s : State) (q : Fin 64) (t : Taken) : State :=
  let s := modSq s q fun x => { x with taken := x.taken ++ [t] }
  modCq s t.cq fun c => { c with reserved := c.reserved + 1 }

/-- The packet is taken: it has an entry in its ring's list and a reserved completion entry (R274). A row that reaches the
model without PACKET_FETCH gets them here. -/
def ensureTaken (s : State) (h : Hdr) (op : Nat) : State :=
  match h.remote with
  | some _ => s
  | none =>
    if s.sq[h.ring].taken.any fun t => t.waits h.era h.seq then s
    else addTaken s h.ring
      { era := h.era, seq := h.seq, cq := s.sq[h.ring].cq, opcode := BitVec.ofNat 8 op, tag := h.tag, suppress := h.suppress
        long := longOp op, forwarded := none, mc := none, reply := none }

/-- A long command goes to a background engine (R286). -/
def startLong (s : State) (h : Hdr) (op : Nat) (job : LongJob) : State :=
  { s with link := { s.link with longs := s.link.longs ++ [⟨h, BitVec.ofNat 8 op, job⟩] } }

/-- The long command whose job passes a test, and the state without it. -/
def findLong (s : State) (p : LongJob → Bool) : Option Long := s.link.longs.find? fun l => p l.job
def dropLong (s : State) (l : Long) : State := { s with link := { s.link with longs := s.link.longs.filter (· ≠ l) } }

/-! ### DMA writes (R294, R301) -/

/-- The device's DMA leaves by the ring, for the Summit to issue. -/
def viaSummit (s : State) : Bool :=
  s.ring.enumerated && s.ring.position != 0 && !(isSet s gRINGCFG 0 && s.boot.pcieUp && s.boot.busMaster)

/-- A DMA write: to host memory over the own link, or over the ring to the Summit. -/
def dmaWrite (s : State) (addr : Nat) (data : List Byte) : State :=
  if viaSummit s then sendRing s (some 0) (.load (.dma (BitVec.ofNat 64 addr) data)) else { s with host := hostPut s.host addr data }

/-! ### Replies that wait for effects (R25, R59, R129, R155, R404) -/

/-- What a reply waits for has come. While a cause of the SAFE condition keeps a pin from its new mode, the reply to its PIN_CFG write
does not wait. DESIGN CHOICE, log entry 60. -/
def waitOver (s : State) : WaitOn → Bool
  | .pin p => !s.pins[p].changing || pinSafe s (pinRidge p)
  | .dps n => !s.dps[n].closing
  | .bound r => match s.ridges[r].st with | .bound | .unbound => true | _ => false
  | .resetEnd r => !s.ridges[r].inReset
  | .summit => !viaSummit s || reachable s 0

/-- Answer DONE to each waiting command whose effects are complete; none is answered in the safe state (R387). -/
def serveWaits (s : State) : State :=
  if bearSafe s || s.owl.shutdown then s else
  let (ready, rest) := s.link.waits.partition fun w => w.on.all (waitOver s)
  each ready (fun s w => replyDone s w.hdr w.opcode.toNat w.info) { s with link := { s.link with waits := rest } }

/-- Reply data goes out, and then DONE with its length; where its way to the Summit is cut, the reply waits with it (R294, R301). -/
def dataReply (s : State) (h : Hdr) (op addr : Nat) (data : List Byte) : State :=
  let s := dmaWrite s addr data
  if viaSummit s && !reachable s 0 then
    { s with link := { s.link with waits := s.link.waits ++ [⟨h, BitVec.ofNat 8 op, [.summit], [], data.length, none⟩] } }
  else replyDone s h op data.length

/-- DONE, at once or when what the command waits for has come. -/
def waitFor (s : State) (w : Wait) : State := serveWaits { s with link := { s.link with waits := s.link.waits ++ [w] } }

/-- DONE, at once or when the listed effects are complete. -/
def doneWhen (s : State) (h : Hdr) (op : Nat) (on : List WaitOn) (undo : List (Nat × Word)) : State :=
  waitFor s ⟨h, BitVec.ofNat 8 op, on, undo, 0, none⟩

/-! ### The fault log (R375, R377, Table 16-4) -/

def FaultClass.code : FaultClass → Nat
  | .corrected => 0 | .contained => 1 | .fatal => 2

/-- The 32 bytes of a log entry. -/
def LogEntry.bytes (e : LogEntry) : List Byte :=
  leBytes 1 e.bit.val ++
    leBytes 1 (e.cls.code + 4 * e.scope.toNat + flag e.injected 5 + flag e.deferred 6) ++
    leBytes 2 e.detection.toNat ++ leBytes 4 e.ident.toNat ++ leBytes 8 e.time.toNat ++ leBytes 4 e.detail.toNat ++
    leBytes 2 e.packets.toNat ++ leBytes 2 e.tickets.toNat ++ leBytes 8 0

/-- What a detection says of itself. -/
structure Detect where
  bit : Fin 64
  det : Nat
  cls : FaultClass
  /-- code of Table 16-2 and its identity -/
  scope : Nat
  ident : Nat
  /-- bytes 16-19 where a rule gives them -/
  detail : Option Nat
  injected : Bool
  deferred : Bool
  deriving DecidableEq, Repr

/-- Packets that wait in any queue without being committed. -/
def waitTotal (s : State) : Nat := s.queues.foldl (fun n q => n + q.2.waiting.length) 0

/-- Latch the source, count a corrected fault, write the log entry and the fault notice (R375, R377). -/
def logFault (s : State) (d : Detect) (packets tickets : Nat) : State :=
  let first := !s.bear.latch.getLsbD d.bit.val
  let s := { s with bear := { s.bear with latch := s.bear.latch ||| BitVec.ofNat 64 (2 ^ d.bit.val) } }
  let s := if d.cls = .corrected then bump s gCECOUNT 1 else s
  if d.cls = .corrected ∧ !first then s
  else
    let e : LogEntry :=
      { bit := d.bit, cls := d.cls, scope := BitVec.ofNat 3 d.scope, injected := d.injected, deferred := d.deferred,
        detection := BitVec.ofNat 16 d.det, ident := BitVec.ofNat 32 d.ident, time := s.now,
        detail := match d.detail with | some x => BitVec.ofNat 32 x | none => Config.logDetail s.free,
        packets := BitVec.ofNat 16 packets, tickets := BitVec.ofNat 16 tickets }
    let log := s.bear.log ++ [e]
    let s := tickFree { s with bear := { s.bear with log := log.drop (log.length - 64) } }
    match cringOf (field s gFAULTCRING 7 0) with
    | none => s
    | some c =>
      let b := leNat e.bytes
      let entry := 0x82 + bits b 15 0 * 2 ^ 16 + bits b 63 32 * 2 ^ 32 + bits b 127 64 * 2 ^ 64
      postNotice s ⟨c, .fault d.bit, 1, BitVec.ofNat 128 entry⟩

/-- A corrected fault (R372). -/
def corrected (s : State) (bit : Fin 64) (det : Nat) (injected : Bool) : State :=
  logFault s ⟨bit, det, .corrected, 0, 0, none, injected, false⟩ 0 0

/-- A contained fault: one rollback, then its log entry with what the rollback removed (R373, R378). In the safe state the
rollback is absorbed into the recovery (R383). -/
def contained (s : State) (d : Detect) (rollback : State → State) : State :=
  let t := if bearSafe s then s else rollback s
  logFault t d (waitTotal s - waitTotal t) (s.tickets.length - t.tickets.length)

/-- A pending injection on a source, used up by one access (R390). -/
def injectOn (s : State) (bit : Fin 64) : Option Bool := (s.bear.inject.find? fun j => decide (j.bit = bit)).map (·.double)
def useInject (s : State) (bit : Fin 64) : State :=
  { s with bear := { s.bear with inject := s.bear.inject.filterMap fun j =>
      if j.bit = bit then (if j.left ≤ 1 then none else some { j with left := j.left - 1 }) else some j } }

/-- The corrected outcome of an access with a single inverted bit; `none` when no injection is pending, `some false` when
it was corrected here, `some true` when two bits are inverted. -/
def accessInject (s : State) (bit : Fin 64) : State × Option Bool :=
  match injectOn s bit with
  | none => (s, none)
  | some d => (useInject s bit, some d)

end Sys2Proof.Machine
end

