-- ==== Sys2Proof/Machine/Akham.lean ====
section
/-! DEFINITION. What Badger does with every command packet before the command's own rule: whether it takes the packet at
all, and checks 7 to 11 of Table 11-6 in their order (R280, R282, R283, R286). -/

namespace Sys2Proof.Machine

/-- The ridge column of Table 11-9: R, F or E. -/
inductive RidgeRule where
  | named | none | either
  deriving DecidableEq, Repr

/-- A row of Table 11-9: code, length without launch word, ridge, T, MC; served under the ROM baseline (R338) and in
loader mode (R339). -/
structure Row where
  op : Nat
  units : Nat
  ridge : RidgeRule
  timed : Bool
  mc : Bool
  baseline : Bool
  loader : Bool
  deriving DecidableEq, Repr

/-- A row with no mark in the T and MC columns. -/
def row (op units : Nat) (ridge : RidgeRule) : Row := ⟨op, units, ridge, false, false, true, false⟩

/-- Fox runs its firmware (Table 1-3). -/
def foxReady (s : State) : Bool := s.boot.foxUp && !s.boot.romLoader

/-- An earlier long command of the packet's own ring has no reply written yet (R286). -/
def ringHeld (s : State) (h : Hdr) : Bool :=
  h.remote.isNone && s.sq[h.ring].taken.any fun t => t.long && !decide (t.era = h.era ∧ t.seq = h.seq)

/-- Badger takes packets (R19, R286, R371, R385); in loader mode Fox serves submission ring 0 (R339). -/
def canTake (s : State) (h : Hdr) : Bool :=
  !ringHeld s h &&
  !s.owl.shutdown && !bearSafe s && (booted s || (s.boot.stage == 7 && (h.remote.isSome || h.ring == 0)))

/-- The ridge named by TARGET; an opcode of class R can name ridge 15 only as 0xF. DEDUCED, log entry 12. -/
def hdrRidge (h : Hdr) : RidgeId := ⟨h.ridge.toNat, h.ridge.isLt⟩

/-- The ridges that an opcode of class E names: one, or all sixteen. -/
def hdrRidges (h : Hdr) : List RidgeId := if h.ridge = 0xF#4 then allRidges else [hdrRidge h]

/-! ### The forwarding bound and the horizon (R282, R283, R293, R300) -/

/-- The forwarding bound B in ns (R293, R300); 0 before enumeration. -/
def ringBound (s : State) : Nat :=
  if !s.ring.enumerated then 0
  else 2000 + (if s.ring.state = 0 then 120 else 240) * s.ring.members.length

/-- The launch horizon in ticks: 20 µs, and for a MULTICAST the forwarding bound (R282, R283). -/
def horizon (s : State) (h : Hdr) : Nat := 30000 + (if h.multicast then cdiv (ringBound s * 3) 2 else 0)

/-- The named T64 lies less than the horizon ahead. Members do not check a MULTICAST again (R283). -/
def tooLate (s : State) (h : Hdr) (t : T64) : Bool :=
  !(h.multicast && h.remote.isSome) && decide (timeDiff t s.now < (horizon s h * 1024 : Nat))

/-- Checks 4 and 7 to 11 of Table 11-6 as far as they concern the header: the refusal's status and bytes 4-7. -/
def admission (s : State) (h : Hdr) (w : Row) : Option (Nat × Nat) :=
  let need := w.units + (if h.launchAt.isSome then 1 else 0)
  if h.multicast ∧ (!w.mc ∨ !s.ring.enumerated) then some (BAD_TARGET, 0)
  else if s.boot.stage = 7 ∧ !w.loader then some (NOT_IN_BASELINE, 1)
  else if s.boot.mode = .baseline ∧ !w.baseline then some (NOT_IN_BASELINE, 0)
  else if w.ridge = .none ∧ h.ridge ≠ 0xF#4 then some (BAD_TARGET, 0)
  else if h.length.toNat ≠ need then some (BAD_LENGTH, need)
  else if (h.launchAt.isSome ∧ !w.timed) ∨ (h.asap ∧ h.launchAt = none) ∨ (h.asap ∧ h.multicast) then some (BAD_PARAM, 0)
  else match h.launchAt with
    | some t => if !h.asap && tooLate s h t then some (LATE, 0) else none
    | none => none

/-- What a command names that a long command in progress may hold (R286). -/
inductive Need where
  | handle (h : Nat)
  | queue (id : Nat)
  | ridge (r : RidgeId)
  | flash
  | dectik
  deriving DecidableEq, Repr

/-- What a long command holds while it runs. -/
def LongJob.holds : LongJob → List Need
  | .save _ _ _ _ => [.flash]
  | .segLoad h _ => [.handle h.toNat]
  | .calRun _ rs => rs.map .ridge
  | .syncCal _ _ => [.dectik]
  | .fwUpdate _ _ => [.flash]
  | .flush q => [.queue q.toNat]
  | .ringEnum _ => [.dectik]

/-- A long command in progress holds something that the command names (R286). -/
def heldByLong (s : State) (need : List Need) : Bool :=
  s.link.longs.any fun l => l.job.holds.any fun x => decide (x ∈ need)

/-- A command packet as Badger handles it: left untaken, refused, or run. An injection on BADGER makes the packet end
INTERNAL (R390). -/
def command (s : State) (h : Hdr) (w : Row) (need : List Need) (body : State → State) : State :=
  if !canTake s h then s
  else
    let s := ensureTaken s h w.op
    match injectOn s 28 with
    | some _ =>
      let s := logFault (useInject s 28) ⟨28, 0, .contained, 0, 0, none, true, false⟩ 0 0
      refuse (tickFree s) h w.op INTERNAL (Config.microAddress s.free).toNat
    | none =>
      match admission s h w with
      | some (st, info) => refuse s h w.op st info
      | none => if heldByLong s need then refuse s h w.op BUSY 0 else body s

/-- The time a timed command runs at: the named T64, or with ASAP the given earliest time in place of a refusal with LATE
(R282). DEDUCED, log entry 13. -/
def startTime (s : State) (h : Hdr) (earliest : T64) : Option T64 :=
  h.launchAt.map fun t => if h.asap && tooLate s h t then earliest else t

/-- The booking at a named time; with ASAP, the earliest one where that time cannot be met (R232, R236). -/
def bookAt {α : Type} (s : State) (h : Hdr) (t : T64) (book : Option T64 → Option α) : Option α :=
  match (if h.asap && tooLate s h t then none else book (some t)) with
  | some p => some p
  | none => if h.asap then book none else none

end Sys2Proof.Machine
end

