-- ==== Sys2Proof/Machine/Tree.lean ====
section
/-! DEFINITION. The Cairn tree (R305, R312): the place of each member in it, and the DLY values that follow from the hops. -/

namespace Sys2Proof.Machine

def modCairn (s : State) (f : Cairn → Cairn) : State := { s with cairn := f s.cairn }

/-- A member's place as SYNC_CAL found it: the parent whose pulse it saw; with none, an external parent if its CAIRN_IN carries
frames, and none at all if it does not (R312). -/
def Member.placed (m : Member) (i : SyncInfo) : Member :=
  let p := i.seen.getD (0xFF, 0)
  { m with parent := p.1, output := p.2, extParent := i.seen.isNone && i.fed, unfed := i.seen.isNone && !i.fed }

/-- Depth of member k: 0 where it has no parent in the ring. -/
def treeDepth (ms : List Member) : Nat → Nat → Nat
  | 0, _ => 0
  | n + 1, k =>
    match ms[k]? with
    | some m => if m.parent = 0xFF then 0 else treeDepth ms n m.parent.toNat + 1
    | none => 0

/-- The members in their places, with their depths. -/
def placeMembers (ms : List Member) (is : List SyncInfo) : List Member :=
  let placed := ms.zipIdx.map fun x => match is[x.2]? with | some i => Member.placed x.1 i | none => x.1
  placed.zipIdx.map fun x => { x.1 with depth := BitVec.ofNat 8 (treeDepth placed 128 x.2) }

/-- DLY of member k, top-down from the root or from an external parent (R305). -/
def treeDly (ms : List Member) (hop base : Nat → Int) : Nat → Nat → Int
  | 0, _ => -524288
  | n + 1, k =>
    match ms[k]? with
    | none => -524288
    | some m =>
      if m.extParent then base k
      else if m.parent = 0xFF then -524288
      else treeDly ms hop base n m.parent.toNat + 524288 + hop k

/-- The target offset of a device with no parent in the ring: this device's own, and GLB_CAIRN_EXT_DLY of any other (R305). -/
def extBase (s : State) (k : Nat) : Int :=
  if k = s.ring.position.toNat then (if s.cairn.root then -524288 else signed 32 (word s gEXTDLY))
  else signed 32 (s.cairn.exts.getD k 0).toNat

/-- The DLY values of the ring, by position (R312). -/
def treeDlys (s : State) : List Word :=
  (List.range s.ring.members.length).map fun k =>
    BitVec.ofInt 32 (treeDly s.ring.members (fun k => signed 32 (s.cairn.hops.getD k 0).toNat) (extBase s) 128 k)

/-- The externally fed Summit sends every member the DLY that follows from its GLB_CAIRN_EXT_DLY (R316). -/
def spreadDly (s : State) : State :=
  if s.boot.straps.mstr && s.ring.enumerated && s.cairn.discovered && s.cairn.extParent then
    sendRing s none (.dly [] (treeDlys s))
  else s

end Sys2Proof.Machine
end

