-- ==== Sys2Proof/Machine/Queues.lean ====
section
/-! DEFINITION. Result queues (chapter 10): storage, admission and commits. -/

namespace Sys2Proof.Machine

/-! ### Storage (R244, R259) -/

/-- Entries of the shared part that the queue uses. -/
def Queue.shared (q : Queue) : Nat := q.used - q.reserved

def reservationSum (s : State) : Nat := s.queues.foldl (fun n q => n + q.2.reserved) 0

/-- Free entries of the shared part (R244, Table 9-7). -/
def sharedFree (s : State) : Nat := 262144 - reservationSum s - s.queues.foldl (fun n q => n + q.2.shared) 0

def shareCap (s : State) : Nat := field s gSHARECAP 18 0

/-- The queue's limit L. -/
def qLimit (s : State) (q : Queue) : Nat := q.reserved + shareCap s

/-- A packet of m entries is admitted now (R259). -/
def admits (s : State) (id m : Nat) : Bool :=
  let q := getQ s id
  decide (q.used + m ≤ qLimit s q) && decide (m ≤ (q.reserved - q.used) + sharedFree s)

/-- Take up m entries for a job, or return them. -/
def holdEntries (s : State) (id m : Nat) : State := modQ s id fun q => { q with held := q.held + m }
def returnEntries (s : State) (id m : Nat) : State := modQ s id fun q => { q with held := q.held - m }

/-! ### Commit (R257, R258) -/

/-- Injection on QSTORE: each entry written is an access (R382, R390). -/
def qstoreInject : Nat → State → State × Option Bool
  | 0, s => (s, none)
  | n + 1, s =>
    let (s, hit) := accessInject s 24
    let (s, rest) := qstoreInject n s
    (s, match hit, rest with
      | some a, some b => some (a || b)
      | some a, none => some a
      | none, b => b)

/-- The stale timer as a queue starts it, with the STALE in force (R253). -/
def Queue.timer (q : Queue) (now : Nat) : Option (Nat × Nat) := some (now, q.stale)

/-- Commit a packet: it takes the next SEQ, the stale timer starts if no committed packet waits, and the queue becomes due
at DRAIN_THR (R257, R258, R262, R263). Its entries are written one per BADGER cycle, 1.5 ticks; it belongs to no flush that is
already waiting for its boundary (R268). -/
def commitPkt (s : State) (id : Nat) (typ : BitVec 3) (payload : List (BitVec 96)) : State :=
  let (s, bad) := qstoreInject payload.length s
  modQ s id fun q =>
    let q' := { q with store := q.store ++ [(⟨typ, payload, q.nextSeq, bad⟩ : QPacket)], nextSeq := q.nextSeq + 1,
                       timerAt := if q.store = [] ∧ q.timerAt = none then q.timer s.ticks else q.timerAt,
                       writeEnd := max s.ticks q.writeEnd + cdiv (3 * payload.length) 2,
                       flush := q.flush.map fun (m, n) => (m, n + 1) }
    { q' with due := q'.due || decide (q'.drainThr ≤ q'.depth) }

/-- A ticket's final packet has committed: the ticket is complete and its TICKET_END entry is returned (R225, R378). -/
def dropTicket (s : State) (num : BitVec 17) : State :=
  match s.tickets.find? fun t => decide (t.num = num) with
  | none => s
  | some t => { returnEntries s t.queue.toNat 1 with tickets := s.tickets.filter fun t => decide (t.num ≠ num) }

/-- What the commit of a packet completes: a ticket, or one ridge of a capture ticket (R225). -/
def packetCommitted (s : State) (w : WaitPkt) : State :=
  match w.ticket with
  | none => s
  | some num =>
    if !w.final then s
    else
      match w.ridge with
      | none => dropTicket s num
      | some r =>
        let ts := s.tickets.map fun t =>
          if t.num = num then
            match t.job with
            | .capture rs seen => { t with job := .capture rs (addOnce r seen) }
            | _ => t
          else t
        let s := { s with tickets := ts }
        let complete := ts.any fun t => decide (t.num = num) && (match t.job with
          | .capture rs seen => rs.all fun x => decide (x ∈ seen)
          | _ => false)
        if complete then dropTicket s num else s

/-- Produce a packet into a queue: committed at once, or left waiting for admission behind the packets that wait already
(R245, R259). -/
def submitPkt (s : State) (id : Nat) (w : WaitPkt) : State :=
  if (getQ s id).waiting = [] ∧ admits s id w.payload.length then packetCommitted (commitPkt s id w.typ w.payload) w
  else modQ s id fun q =>
    { q with waiting := q.waiting ++ [w], waited := true,
             waitCnt := if q.waitCnt = 0xFFFFFFFF#32 then q.waitCnt else q.waitCnt + 1 }

/-- Remove the waiting packets that pass a test: their SEQ was never taken (R258, R378). -/
def removeWaiting (s : State) (id : Nat) (p : WaitPkt → Bool) : State :=
  modQ s id fun q => { q with waiting := q.waiting.filter fun w => !p w }

end Sys2Proof.Machine
end

