-- ==== Sys2Proof/Machine/Store.lean ====
section
/-! DEFINITION. HBM frames, segment images, references, and the copies that Marten holds in the ridges' slots
(chapter 3, R240). -/

namespace Sys2Proof.Machine

/-! ### Frames (R74, R240, R248) -/

/-- Frames that Marten allocates. -/
def frameCount : Nat := 1047488

/-- frame(i) of R240. -/
def frameAt (s : State) (i : Nat) : Nat := 0x440 + (i * 524287 + field s gSEED 20 0) % frameCount

def replayMode (s : State) : Bool := isSet s gMARTENCFG 0

/-- Frames in use, retired or awaiting RECLAIM. -/
def busyFrames (s : State) : Nat := s.store.used.length + s.store.retired.length + s.store.awaiting.length

def freeFrames (s : State) : Nat := frameCount - busyFrames s

def frameBusy (s : State) (f : Nat) : Bool :=
  decide (f ∈ s.store.used) || decide (f ∈ s.store.retired) || decide (f ∈ s.store.awaiting)

/-- The first free frame at or after the allocation pointer (R240). -/
def allocFrame (s : State) : Option (Nat × State) :=
  if freeFrames s = 0 then none
  else
    match firstFrom (fun i => !frameBusy s (frameAt s (i % frameCount))) (busyFrames s + 1) s.store.ptr with
    | none => none
    | some i =>
      let f := frameAt s (i % frameCount)
      some (f, { s with store := { s.store with used := f :: s.store.used, ptr := (i % frameCount + 1) % frameCount } })

/-- Give back the frame of a load that changed nothing (R73): it is free again, in replay mode too, and the pointer returns if
no later allocation has moved it. A later allocation keeps the pointer. DESIGN CHOICE, log entry 51. -/
def undoAlloc (s : State) (a : Nat × Nat × Nat) : State :=
  { s with store := { s.store with used := s.store.used.erase a.1, ptr := if s.store.ptr = a.2.2 then a.2.1 else s.store.ptr } }

/-- A region of n frames takes n successive allocations (R240). -/
def allocFrames : Nat → State → List Nat × State
  | 0, s => ([], s)
  | n + 1, s =>
    match allocFrame s with
    | none => ([], s)
    | some (f, s) => let (fs, s) := allocFrames n s; (f :: fs, s)

/-- Frames go back to the allocator, or wait for RECLAIM in replay mode (R248); a retired frame is in neither list. -/
def freeFramesOf (s : State) (fs : List Nat) : State :=
  let gone := fs.filter fun f => decide (f ∈ s.store.used)
  { s with store := { s.store with
    used := s.store.used.filter fun f => !decide (f ∈ gone)
    awaiting := if replayMode s then s.store.awaiting ++ gone else s.store.awaiting } }

/-! ### Images (R70 to R81) -/

def imgDflt : Nat → Option Image := fun _ => none
def getImg (s : State) (h : Handle) : Option Image := sget imgDflt s.store.images h.toNat
def putImg (s : State) (h : Handle) (i : Option Image) : State :=
  { s with store := { s.store with images := sput imgDflt s.store.images h.toNat i } }

/-- The handle names an image that can take a new reference (R80). -/
def takesRef (s : State) (h : Handle) : Bool :=
  match getImg s h with
  | some i => !i.relPending
  | none => false

/-- A staging fetch of the handle is due on the ridge: its slot is held, and counts as a reference (R77). -/
def fetching (s : State) (r : RidgeId) (h : Handle) : Bool := s.ridges[r].fetches.any fun f => decide (f.1 = h)

/-- A vector image that ridge r can land on: one that takes a reference, or one the ridge already holds a slot for
(R40, R80). -/
def landable (s : State) (r : RidgeId) (h : Handle) : Bool :=
  match getImg s h with
  | some i => !i.analog && (!i.relPending || decide (h ∈ s.ridges[r].resident) || fetching s r h)
  | none => false

/-- The successor named by NEXT (R39). -/
def successor (s : State) (h : Handle) : Option Handle :=
  match getImg s h with
  | some i => if i.next = noHandle then none else some i.next
  | none => none

/-- A segment and its next n − 1 successors; a handle that names no image yet ends the list (R81, R92). -/
def chain (s : State) : Nat → Handle → List Handle
  | 0, _ => []
  | n + 1, h => h :: (match successor s h with | some k => chain s n k | none => [])

/-- BODY_SPAN as the binding uses it: a vector segment's, 0 above MAX_BODY (R87, R88). -/
def spanOf (s : State) (r : RidgeId) (h : Handle) : Nat :=
  match getImg s h with
  | some i => if !i.analog ∧ 2 ≤ i.span ∧ i.span ≤ s.ridges[r].maxBody then i.span else 0
  | none => 0

/-- The segment declares a held body longer than MAX_BODY (R88). -/
def spanOver (s : State) (r : RidgeId) (h : Handle) : Bool :=
  match getImg s h with
  | some i => !i.analog && decide (2 ≤ i.span) && decide (s.ridges[r].maxBody < i.span)
  | none => false

/-- The bodies that start among some segments: body and the 8 successors of its last segment (R87). -/
def bodyCopies (s : State) (r : RidgeId) (hs : List Handle) : List Handle :=
  hs.flatMap fun h => if spanOf s r h = 0 then [] else chain s (spanOf s r h + 8) h

/-- Segments of the held body of R87 that starts at h. -/
def bodySegs (s : State) (b : Handle × Nat) : List Handle := chain s b.2 b.1

/-- Without repeats, first occurrences kept. -/
def dedup {α : Type} [DecidableEq α] (l : List α) : List α := l.foldl (fun a x => addOnce x a) []

/-- The initial copies of a binding (R85). -/
def initialCopies (s : State) (r : RidgeId) : List Handle :=
  let l := chain s 8 s.ridges[r].first
  l ++ bodyCopies s r l ++ s.ridges[r].targets.flatMap (chain s 3)

/-- A run is in progress: from its launch tick to its end, and so through a park and the wait for a resume (R60, R85). -/
def Ridge.inRun (x : Ridge) : Bool :=
  match x.st with
  | .unbound | .bound => false
  | .armed => x.resume
  | .running | .hold | .parked => true

/-- The segments that Marten stages along NEXT: the window with the segment executed, or the first segment and its successors
before a launch (R85). -/
def stageLine (s : State) (r : RidgeId) : List Handle :=
  let x := s.ridges[r]
  if x.st = .unbound then [] else if x.inRun then chain s 9 x.pc.seg else chain s 8 x.first

/-- The copies that the rules of Refill require on a ridge (R84, R85, R87, R89). -/
def wanted (s : State) (r : RidgeId) : List Handle :=
  let x := s.ridges[r]
  let l := stageLine s r
  let targets := x.targets.flatMap (chain s 3)
  let armed := (match x.arm with | some a => chain s 3 a.target.seg | none => []) ++
    (if x.jumpIn.isSome then chain s 3 x.jumpTo.seg else [])
  let bodies := if x.inRun then x.bodies.flatMap fun b => chain s (b.2 + 8) b.1 else []
  dedup (l ++ bodyCopies s r l ++ bodies ++ targets ++ armed ++ x.pins)

/-- The binding requirement S of R91, with the arm. -/
def bindReq (maxBody targets : Nat) : Nat := max 9 (maxBody + 8) + 3 * targets

def requirement (s : State) (r : RidgeId) : Nat :=
  let x := s.ridges[r]
  (if x.st = .unbound then 0 else bindReq x.maxBody x.targets.length) + (if x.arm.isSome then 3 else 0)

def quota (s : State) (r : RidgeId) : Nat := field s (rdgW r 0x10) 11 0

/-- The handle is held for a SEG_LOAD in progress (R73). -/
def loading (s : State) (h : Handle) : Bool :=
  s.link.longs.any fun l => match l.job with | .segLoad k _ => decide (k = h) | _ => false

/-- A copy of the handle can be taken now: an image is present that takes a reference, and no load holds it (R73, R80, R81). -/
def fetchable (s : State) (h : Handle) : Bool := takesRef s h && !loading s h

/-- The initial copies are resident (R85). -/
def initStaged (s : State) (r : RidgeId) : Bool :=
  let x := s.ridges[r]
  if x.st = .unbound then false
  else if x.inRun then x.initHeld
  else (initialCopies s r).all fun h => decide (h ∈ x.resident)

/-- The images whose reference a playing port keeps or takes: the first, the one played and its next three; a release-pending
image only where the port holds its reference already (R80, R182). -/
def awgHolds (s : State) (a : Awg) : List Handle :=
  if a.sine then [] else (dedup (a.first :: chain s 4 a.cur)).filter fun h => decide (h ∈ a.refs) || takesRef s h

/-- A playing port's references follow its place in the chain and the images loaded meanwhile (R182). -/
def renewRefs (s : State) (n : RidgeId) : State :=
  modPort s n fun p => { p with awg := p.awg.map fun a => { a with refs := awgHolds s a } }

/-- Images that a port armed or playing holds (R77). -/
def awgImages (s : State) (n : RidgeId) : List Handle :=
  match s.ports[n].awg with
  | some a => a.refs
  | none => match s.ports[n].awgAt with
    | some _ => if field s (aptW n 0) 1 0 = 1 then [BitVec.ofNat 20 (word s (aptW n 1))] else []
    | none => []

/-- The reference count of R77. A lookahead copy in a lent slot lies beyond the window of R77's list and counts none, so SEG_LOAD
and SEG_RELEASE drop it. DESIGN CHOICE, log entry 52. -/
def refCount (s : State) (h : Handle) : Nat :=
  allRidges.foldl (fun n r =>
    let x := s.ridges[r]
    n + (if h ∈ x.resident then 1 else 0) + (if fetching s r h then 1 else 0) + (if x.st ≠ .unbound ∧ x.first = h then 1 else 0) +
      (if x.st ≠ .unbound then x.targets.count h else 0) + x.pins.count h + (if h ∈ awgImages s r then 1 else 0)) 0

/-- Drop every unheld copy of a handle, and the lookahead fetches of it (R78). -/
def dropCopies (s : State) (h : Handle) : State :=
  each allRidges (fun s r => modR s r fun x =>
    { x with cached := x.cached.erase h, lent := x.lent.erase h, lentDue := x.lentDue.filter fun f => decide (f.1 ≠ h) }) s

/-- Free an image and its frame (R79). -/
def freeImage (s : State) (h : Handle) : State :=
  match getImg s h with
  | none => s
  | some i => dropCopies (freeFramesOf (putImg s h none) [i.frame]) h

/-- Free the release-pending images whose count has reached zero, and raise segment-freed for each (R79). -/
def sweep (s : State) : State :=
  let due := s.store.images.filterMap fun e => match e.2 with
    | some i => if i.relPending ∧ refCount s (BitVec.ofNat 20 e.1) = 0 then some e.1 else none
    | none => none
  each due (fun s h => raise (freeImage s (BitVec.ofNat 20 h)) 0xD1 h) s

/-- Frame scope (R381): the frame is retired; an image in it is removed as if it had been released, with its references ended,
and segment-freed is raised with its handle. -/
def retireFrame (s : State) (frame : Nat) : State :=
  let lost := s.store.images.filterMap fun e => match e.2 with
    | some i => if i.frame = frame then some e.1 else none
    | none => none
  let s := each lost (fun s k =>
    let h : Handle := BitVec.ofNat 20 k
    let s := each allRidges (fun s r => modR s r fun x =>
      { x with resident := x.resident.erase h, pins := x.pins.filter (· ≠ h), fetches := x.fetches.filter fun f => decide (f.1 ≠ h),
               retried := x.retried.erase h }) s
    let s := each allRidges (fun s n => modPort s n fun p => { p with awg := p.awg.map fun a => { a with refs := a.refs.erase h } }) s
    raise (dropCopies (putImg s h none) h) 0xD1 k) s
  { s with store := { s.store with used := s.store.used.erase frame, awaiting := s.store.awaiting.erase frame,
                                   retired := addOnce frame s.store.retired } }

/-- Lookahead beyond the window: the segments that follow what is wanted, along NEXT (R83, R243). -/
def beyond (s : State) (r : RidgeId) : List Handle :=
  if s.ridges[r].inRun then (chain s 80 s.ridges[r].pc.seg).filter fun h => !decide (h ∈ wanted s r) else []

/-- A copy of the segment is in one of the ridge's slots and can be held or executed from there: a cached or lent copy only where
the image takes a reference and no load holds it (R73, R78, R80). -/
def inSlot (s : State) (r : RidgeId) (h : Handle) : Bool :=
  let x := s.ridges[r]
  decide (h ∈ x.resident) || (decide (h ∈ x.cached ++ x.lent) && fetchable s h)

/-- Marten holds what the rules require and releases the rest: copies no longer required may stay as unheld caches, cached
or lent copies that are required again are held at once, and the remaining fetches become due, those of a handle that a load holds too (R73, R77, R78, R80, R85, R86). Lent slots keep only
lookahead (R83). BODY_OVER is set as a segment comes into the line (R88). -/
def restageOne (s : State) (r : RidgeId) : State :=
  let w := wanted s r
  let x := s.ridges[r]
  let held := w.filter (inSlot s r)
  let left := (x.resident.filter fun h => !decide (h ∈ w)).filter fun h => Config.keepsCopy s.free h
  let due := (w.filter fun h => !inSlot s r h && (takesRef s h || fetching s r h)).map fun h =>
    match x.fetches.find? fun f => decide (f.1 = h) with
    | some f => f
    | none => (h, s.ticks)
  let ahead := beyond s r
  let long := (stageLine s r).filter (spanOver s r)
  modR (tickFree s) r fun x =>
    { x with resident := held, cached := dedup (x.cached.filter (fun h => !decide (h ∈ w)) ++ left),
             lent := x.lent.filter (fun h => decide (h ∈ ahead)),
             lentDue := x.lentDue.filter (fun f => decide (f.1 ∈ ahead)), fetches := due,
             retried := x.retried.filter (fun h => decide (h ∈ ahead) || due.any fun f => decide (f.1 = h))
             overSeen := long, bodyOver := x.bodyOver || long.any fun h => !decide (h ∈ x.overSeen) }

/-- Restage some ridges, then free what no reference holds. -/
def restage (s : State) (rs : List RidgeId) : State := sweep (each rs restageOne s)

/-! ### Lent slots (R83, R243) -/

/-- Lent slots in use or promised to a fetch. -/
def Ridge.lentUse (x : Ridge) : Nat := x.lent.length + x.lentDue.length
def lentUsed (s : State) : Nat := allRidges.foldl (fun n r => n + s.ridges[r].lentUse) 0

/-- Slots that may be lent: outside all quotas, and those of UNBOUND ridges that hold nothing (R83). -/
def lendCap (s : State) : Nat :=
  let sum := allRidges.foldl (fun n r => n + quota s r) 0
  let idle := allRidges.foldl (fun n r =>
    n + (if s.ridges[r].st = .unbound ∧ s.ridges[r].resident = [] ∧ s.ridges[r].fetches = [] ∧ s.ridges[r].pins = [] then quota s r
      else 0)) 0
  (3072 - sum) + idle

/-- Give up n lent slots of a ridge: promised ones first, then those farthest ahead. -/
def Ridge.giveBack (x : Ridge) (n : Nat) : Ridge :=
  let k := min n x.lentDue.length
  { x with lentDue := x.lentDue.take (x.lentDue.length - k), lent := x.lent.take (x.lent.length - (n - k)) }

/-- Reclaim the lent slots that are needed, and drop the copies in them (R83). Whose they are no rule says: those of the
highest-numbered ridge that holds some go first. DESIGN CHOICE, log entry 52. -/
def reclaimLent (s : State) : State :=
  each allRidges.reverse (fun s r => modR s r fun x => x.giveBack (min x.lentUse (lentUsed s - lendCap s))) s

/-- Every lent slot is given up: LEND_EN = 0, or replay mode (R243). -/
def endLending (s : State) : State := each allRidges (fun s r => modR s r fun x => { x with lent := [], lentDue := [] }) s

/-- The next lookahead segment that a lent slot of the ridge could take. -/
def lendNext (s : State) (r : RidgeId) : Option Handle :=
  let x := s.ridges[r]
  if x.st ≠ .running ∨ 64 ≤ x.lentUse then none
  else (beyond s r).find? fun h => fetchable s h && !decide (h ∈ x.cached ++ x.lent) && !x.lentDue.any fun f => decide (f.1 = h)

/-- The running ridge that a lent slot goes to: the one with the fewest staged segments beyond its window among those that
have a use for it, the lowest number on a tie (R243). -/
def lendFirst (s : State) : Option (RidgeId × Handle) :=
  allRidges.foldl (fun best r => match lendNext s r, best with
    | none, b => b
    | some h, none => some (r, h)
    | some h, some b => if s.ridges[r].lentUse < (s.ridges[b.1]).lentUse then some (r, h) else some b) none

/-- Offer up to n lent slots, one at a time; each brings a lookahead fetch that is due. -/
def lend : Nat → State → State
  | 0, s => s
  | n + 1, s =>
    if lendCap s ≤ lentUsed s then s
    else match lendFirst s with
      | none => s
      | some (r, h) => lend n (modR s r fun x => { x with lentDue := x.lentDue ++ [(h, s.ticks)] })

/-- At a segment boundary Marten offers lent slots: 64 to each of sixteen ridges at most (R243). -/
def lendSlots (s : State) : State := if isSet s gMARTENCFG 1 && !replayMode s then lend 1024 s else s

/-! ### Commands on images (R73, R75, R78 to R80, R84) -/

def h20 (w : Word) : Handle := BitVec.ofNat 20 w.toNat

def segLoadEffect (h : Hdr) (handle : Word) (addr : BitVec 64) (s : State) : State :=
  let k := h20 handle
  command s h (row 0x10 2 .none) [.handle k.toNat] fun s =>
    if k = noHandle ∨ addr.toNat % 64 ≠ 0 then refuse s h 0x10 BAD_PARAM 0
    else
      match getImg s k with
      | some i => if i.relPending ∨ refCount s k ≠ 0 then refuse s h 0x10 SEG_BUSY 0 else startLong s h 0x10 (.segLoad k none)
      | none =>
        match allocFrame s with
        | none => refuse s h 0x10 BUSY 0
        | some (f, t) => startLong t h 0x10 (.segLoad k (some (f, s.store.ptr, t.store.ptr)))

/-- The header bytes of an image with its CRC field zero, in order (Table 3-1). -/
def imageHeader (i : SegImage) : List Byte :=
  leBytes 2 i.magic.toNat ++ [i.version, i.kind] ++ leBytes 4 i.handle.toNat ++ leBytes 4 i.next.toNat ++ [i.bodySpan] ++
    padTo 3 i.reserved ++ padTo 16 i.label ++ padTo 28 (i.reserved.drop 3) ++ leBytes 4 0

/-- The CRC over header and payload (Table 3-1). -/
def imageCrc (i : SegImage) : Word := crc32 (imageHeader i ++ i.payload.flatMap fun w => leBytes 16 w.toNat)

/-- The image checks of R73. -/
def imageOk (k : Handle) (i : SegImage) : Bool :=
  i.magic == 0x5347 && i.version == 1 && decide (i.kind.toNat ≤ 1) && decide (i.handle.toNat = k.toNat) && k != noHandle &&
    decide (i.bodySpan.toNat ≤ 128) && i.reserved.all (· == 0) && decide (i.next.toNat < 2 ^ 20) && i.crc == imageCrc i

/-- SEG_LOAD_DONE (R73, R75, R78): the image is stored, or refused and nothing changes. -/
def segLoadDoneEffect (k : Handle) (i : SegImage) (s : State) : State :=
  match findLong s fun j => match j with | .segLoad x _ => decide (x = k) | _ => false with
  | none => s
  | some l =>
    if bearSafe s || s.owl.shutdown then s
    else
      let fresh := match l.job with | .segLoad _ f => f | _ => none
      let s := dropLong s l
      if imageOk k i then
        let frame := match fresh, getImg s k with
          | some f, _ => f.1
          | none, some old => old.frame
          | none, none => 0
        let img : Image := { frame := frame, analog := i.kind == 1, next := h20 i.next, span := i.bodySpan.toNat,
                             relPending := false, crc := i.crc, payload := i.payload }
        replyDone (restage (each allRidges renewRefs (dropCopies (putImg s k (some img)) k)) allRidges) l.hdr 0x10 0
      else refuse (restage (each fresh.toList undoAlloc s) allRidges) l.hdr 0x10 BAD_PARAM 0

def segReleaseEffect (h : Hdr) (handle : Word) (s : State) : State :=
  let k := h20 handle
  command s h (row 0x11 2 .none) [.handle k.toNat] fun s =>
    match getImg s k with
    | none => refuse s h 0x11 SEG_NOT_FOUND k.toNat
    | some i =>
      if i.relPending then answer s h 0x11 0x02 0 s.now
      else if refCount s k = 0 then replyDone (freeImage s k) h 0x11 0
      else answer (putImg s k (some { i with relPending := true })) h 0x11 0x02 0 s.now

def execSegRelease (h : Hdr) (handle : Word) (s : State) : Host.Outcome State Fault Refusal :=
  done s (segReleaseEffect h handle s)

/-- SEG_PIN (R84). A pin already in force adds nothing and is answered before the count of slots; then the refusals in the
order of the rule (Table 11-6 step 11). -/
def segPinEffect (h : Hdr) (handle : Word) (s : State) : State :=
  let k := h20 handle
  let r := hdrRidge h
  command s h (row 0x12 2 .named) [.handle k.toNat, .ridge r] fun s =>
    let x := s.ridges[r]
    if takesRef s k ∧ k ∈ x.pins then replyDone s h 0x12 0
    else if quota s r < requirement s r + x.pins.length + 1 then refuse s h 0x12 BUSY 0
    else if !takesRef s k then refuse s h 0x12 SEG_NOT_FOUND k.toNat
    else replyDone (restage (reclaimLent (modR s r fun x => { x with pins := x.pins ++ [k] })) [r]) h 0x12 0

def execSegPin (h : Hdr) (handle : Word) (s : State) : Host.Outcome State Fault Refusal := done s (segPinEffect h handle s)

def segUnpinEffect (h : Hdr) (handle : Word) (s : State) : State :=
  let k := h20 handle
  let r := hdrRidge h
  command s h (row 0x13 2 .named) [.handle k.toNat, .ridge r] fun s =>
    if k ∈ s.ridges[r].pins then
      replyDone (restage (modR s r fun x => { x with pins := x.pins.erase k }) [r]) h 0x13 0
    else refuse s h 0x13 BAD_PARAM 0

def execSegUnpin (h : Hdr) (handle : Word) (s : State) : Host.Outcome State Fault Refusal :=
  done s (segUnpinEffect h handle s)

/-! ### Binding (R40, R41, R56, R80, R91) -/

/-- The end of a binding: arm, latch and park state go (R56, R41). A HALT that names a later time stays scheduled (R59). -/
def Ridge.clearBinding (x : Ridge) : Ridge :=
  { x with arm := none, jumpIn := none, park := false, loops := [], calls := [], bodies := [], rep := 0,
           repFails := [], atBoundary := false, applyWait := false, after := .go, ranAt := none }

/-- A ridge UNBOUND. -/
def Ridge.unbind (x : Ridge) : Ridge :=
  { x.clearBinding with st := .unbound, first := noHandle, maxBody := 0, targets := [], failSeen := false, overSeen := [] }

/-- The handles of PROG_BIND: a missing one is SEG_NOT_FOUND, an analog one BAD_PARAM (R40, R80). -/
def bindHandles (s : State) : List Handle → Option (Nat × Nat)
  | [] => none
  | k :: ks =>
    match getImg s k with
    | none => some (SEG_NOT_FOUND, k.toNat)
    | some i => if i.relPending then some (SEG_NOT_FOUND, k.toNat) else if i.analog then some (BAD_PARAM, 0) else bindHandles s ks

def progBindEffect (h : Hdr) (handle : Word) (unbind : Bool) (maxBody d : Byte) (targets : List Word) (s : State) : State :=
  let r := hdrRidge h
  let ts := (targets.take d.toNat).map h20
  command s h (row 0x14 (2 + cdiv d.toNat 4) .named) ([.ridge r, .handle (h20 handle).toNat] ++ ts.map fun t => .handle t.toNat)
    fun s =>
    if runs s r then refuse s h 0x14 BUSY 0
    else if unbind then replyDone (restage (modR s r Ridge.unbind) [r]) h 0x14 0
    else if 128 < maxBody.toNat ∨ 64 < d.toNat then refuse s h 0x14 BAD_PARAM 0
    else
      match bindHandles s (h20 handle :: ts) with
      | some (st, info) => refuse s h 0x14 st info
      | none =>
        let need := bindReq maxBody.toNat ts.length
        if quota s r < need + s.ridges[r].pins.length then refuse s h 0x14 BAD_PARAM need
        else
          let s := modR s r fun x =>
            { x.clearBinding with st := .bound, first := h20 handle, maxBody := maxBody.toNat, targets := ts,
                                  overSeen := [], pc := ⟨h20 handle, 0⟩ }
          replyDone (restage (reclaimLent s) [r]) h 0x14 0

def execProgBind (h : Hdr) (handle : Word) (unbind : Bool) (maxBody d : Byte) (targets : List Word) (s : State) :
    Host.Outcome State Fault Refusal := done s (progBindEffect h handle unbind maxBody d targets s)

end Sys2Proof.Machine
end

