-- ==== Sys2Proof/Machine/Tickets.lean ====
section
/-! DEFINITION. Tickets, and the placement of converter and TIMU jobs (chapters 8 and 9). -/

namespace Sys2Proof.Machine

/-! ### Numbers (R224) -/

/-- The lowest number above the last issued that is not in flight, wrapping (R224). -/
def nextTicket (s : State) : BitVec 17 :=
  let used := fun n => s.tickets.any fun t => decide (t.num.toNat = n % 131072)
  BitVec.ofNat 17 ((firstFrom (fun n => !used n) (s.tickets.length + 1) (s.lastTicket.toNat + 1)).getD 0)

/-- All 131,072 tickets are in flight. -/
def ticketsOut (s : State) : Bool := decide (131072 ≤ s.tickets.length)

/-- Issue a ticket; it holds one entry of its queue for a TICKET_END (R224, R378). -/
def issue (s : State) (h : Hdr) (queue : Nat) (booked : Bool) (job : Job) : State :=
  let num := nextTicket s
  let t : Ticket := { num := num, queue := BitVec.ofNat 14 queue, ring := h.ring, seq := h.seq, booked := booked, job := job }
  holdEntries { s with tickets := s.tickets ++ [t], lastTicket := num } queue 1

def setJob (s : State) (num : BitVec 17) (booked : Bool) (j : Job) : State :=
  { s with tickets := s.tickets.map fun t => if t.num = num then { t with booked := booked, job := j } else t }

def findTicket (s : State) (num : BitVec 17) : Option Ticket := s.tickets.find? fun t => decide (t.num = num)

/-! ### Storage of a job (R234) -/

def Job.entries : Job → Nat
  | .measure _ => 3
  | .timu j => if j.freq then 3 else 2 + cdiv j.count 2
  | _ => 0

/-- Queue storage for a job can be reserved now. -/
def canHold (s : State) (queue m : Nat) : Bool := admits s queue m

/-! ### Bookings (R228 to R231) -/

/-- Fine units in n µs. -/
def usFu (n : Nat) : Int := n * 1536000

/-- The earliest instant at which a booking can start, after Badger takes the packet: 0.5 µs (R229). -/
def leadFu : Int := 768000

/-- The earliest start of a booking, relative to now: a time after the taking, but not in the past. -/
def leadFrom (s : State) (taken : T64) (lead : Int) : Int := max 0 (timeDiff taken s.now + lead)

/-- Booking interval of a MEASURE, relative to now (Table 9-2). -/
def MeasJob.interval (j : MeasJob) (now : T64) : Int × Int :=
  let f := timeDiff j.first now
  (f - usFu (if j.trunk.isSome then 6 else 2), f + usFu (j.n + 1))

/-- Booking interval of a TIME_MEASURE, relative to now (Table 9-2). -/
def TimuJob.interval (j : TimuJob) (now : T64) : Int × Int :=
  let f := timeDiff j.start now
  (f, f + (if j.freq then j.limit else min j.limit (2 ^ 32) : Nat) * 1024 + usFu 1)

/-- Bookings on converter c, trunk k and TIMU t, but for one ticket's own. -/
def convBooked (s : State) (skip : Option (BitVec 17)) (c : Nat) : List (Int × Int) :=
  s.tickets.filterMap fun t => match t.job with
    | .measure j => if t.booked ∧ j.conv = c ∧ some t.num ≠ skip then some (j.interval s.now) else none
    | _ => none
def trunkBooked (s : State) (skip : Option (BitVec 17)) (k : Nat) : List (Int × Int) :=
  s.tickets.filterMap fun t => match t.job with
    | .measure j => if t.booked ∧ j.trunk = some k ∧ some t.num ≠ skip then some (j.interval s.now) else none
    | _ => none
def timuBooked (s : State) (skip : Option (BitVec 17)) (u : Nat) : List (Int × Int) :=
  s.tickets.filterMap fun t => match t.job with
    | .timu j => if t.booked ∧ j.timu = u ∧ some t.num ≠ skip then some (j.interval s.now) else none
    | _ => none

/-- The interval [a, b) overlaps no booking. -/
def clear (bs : List (Int × Int)) (a b : Int) : Bool := bs.all fun x => decide (b ≤ x.1) || decide (x.2 ≤ a)

/-- The earliest start at or after lo of an interval of a length that overlaps no booking. -/
def earliest (bs : List (Int × Int)) (lo len : Int) : Int :=
  let cands := (lo :: bs.map (·.2)).filter fun t => decide (lo ≤ t) && clear bs t (t + len)
  cands.foldl min (bs.foldl (fun m x => max m x.2) lo)

/-- The die of a MEASURE source (R230, Tables 15-1, 15-2). -/
def sourceDie (sel : Nat) : Nat :=
  let n := sel % 4096
  match sel / 4096 with
  | 0 | 1 => n / 64
  | 6 => if n < 16 then n / 4 else if n = 22 ∨ n = 25 ∨ n = 32 then 1 else if n = 23 then 2 else 0
  | _ => n / 4

/-- A placement of a MEASURE: first sample relative to now, converter, trunk (R231). -/
structure Place where
  first : Int
  conv : Nat
  trunk : Option Nat
  deriving DecidableEq, Repr

/-- CAL_RUN holds the converter (R346). -/
def convInCal (s : State) (c : Nat) : Bool :=
  s.link.longs.any fun l => match l.job with
    | .calRun sc rs => bit sc.toNat 2 && rs.any fun r => decide (r.val / 4 = c / 16)
    | _ => false

def inService (s : State) (c : Nat) : Bool := !s.cal.oos.getLsbD c

/-- The converters a request may use: the pinned one, the one that replay names, or all in service (R231, R239, R247). -/
def convChoice (s : State) (ring : Fin 64) (seq : Word) (sel : Nat) (pinned : Option Nat) : List Nat :=
  match pinned with
  | some c => if inService s c then [c] else []
  | none =>
    if replayMode s then
      let k := sourceDie sel
      let base := field s gSEED 20 0 + seq.toNat + 7 * ring.val
      match firstFrom (fun i => inService s (16 * k + i % 16)) 16 base with
      | some i => [16 * k + i % 16]
      | none => []
    else (List.range 64).filter (inService s)

/-- Every placement on some converters with a start at or after lo: the earliest first sample each gives, or the given one where it
can be met. -/
def places (s : State) (skip : Option (BitVec 17)) (sel n : Nat) (convs : List Nat) (lo : Int) (at_ : Option T64) : List Place :=
  (convs.filter fun c => !convInCal s c).flatMap fun c =>
    let paths : List (Option Nat) :=
      if c / 16 = sourceDie sel then [none] else (List.range 8).map fun j => some (8 * sourceDie sel + j)
    paths.filterMap fun k =>
      let settleFu := usFu (if k.isSome then 6 else 2)
      let len := settleFu + usFu (n + 1)
      let bs := convBooked s skip c ++ (match k with | some t => trunkBooked s skip t | none => [])
      match at_ with
      | none => some ⟨earliest bs lo len + settleFu, c, k⟩
      | some t =>
        let f := timeDiff t s.now
        if lo ≤ f - settleFu ∧ clear bs (f - settleFu) (f + usFu (n + 1)) then some ⟨f, c, k⟩ else none

/-- The placement of R231: earliest first sample, local before trunk, then lowest (c − p) mod 64; trunks in order. -/
def bestPlace (p : Nat) (l : List Place) : Option Place :=
  let key := fun (x : Place) => (if x.trunk.isSome then 64 else 0) + (x.conv + 64 - p % 64) % 64
  l.foldl (fun best x => match best with
    | none => some x
    | some b => if x.first < b.first ∨ (x.first = b.first ∧ key x < key b) then some x else some b) none

/-- The TIMU of R236 or R247 and the job's start relative to now, at or after lo, or exactly at a named time. -/
def bestTimu (s : State) (skip : Option (BitVec 17)) (choice : List Nat) (len lo : Int) (at_ : Option T64) : Option (Int × Nat) :=
  let l := choice.filterMap fun u =>
    let bs := timuBooked s skip u
    match at_ with
    | none => some (earliest bs lo len, u)
    | some t =>
      let f := timeDiff t s.now
      if lo ≤ f ∧ clear bs f (f + len) then some (f, u) else none
  let key := fun (u : Nat) => (u + 32 - s.timuPtr % 32) % 32
  l.foldl (fun best x => match best with
    | none => some x
    | some b => if x.1 < b.1 ∨ (x.1 = b.1 ∧ key x.2 < key b.2) then some x else some b) none

def timuChoice (s : State) (ring : Fin 64) (seq : Word) (pinned : Option Nat) : List Nat :=
  match pinned with
  | some u => [u]
  | none => if replayMode s then [(field s gSEED 20 0 + seq.toNat + 7 * ring.val) % 32] else List.range 32

/-- The instant that lies d fine units from now. -/
def fromNow (s : State) (d : Int) : T64 := s.now + BitVec.ofInt 64 d

/-! ### Untimed jobs (R233, R234, R236) -/

/-- Book, or move to an earlier first sample, one untimed job that has not started. -/
def placeOne (s : State) (t : Ticket) : State :=
  let fresh := !t.booked
  if fresh && !canHold s t.queue.toNat t.job.entries then s
  else
    match t.job with
    | .measure j =>
      if j.timed ∨ j.started ∨ (t.booked ∧ (j.interval s.now).1 ≤ 0) then s
      else
        let pin := if j.pinned then some j.conv else none
        match bestPlace s.convPtr (places s (some t.num) j.sel.toNat j.n (convChoice s t.ring t.seq j.sel.toNat pin)
          (leadFrom s j.takenAt leadFu) none) with
        | none => s
        | some p =>
          if fresh ∨ p.first < timeDiff j.first s.now then
            let s := if fresh then holdEntries s t.queue.toNat 3 else s
            setJob { s with convPtr := (p.conv + 1) % 64 } t.num true
              (.measure { j with conv := p.conv, trunk := p.trunk, first := fromNow s p.first })
          else s
    | .timu j =>
      if j.timed ∨ j.started ∨ (t.booked ∧ (j.interval s.now).1 ≤ 0) then s
      else
        let len := (j.interval s.now).2 - (j.interval s.now).1
        let lo := leadFrom s j.takenAt (usFu 20)
        match bestTimu s (some t.num) (timuChoice s t.ring t.seq (if j.pinned then some j.timu else none)) len lo none with
        | none => s
        | some (f, u) =>
          if fresh ∨ f < timeDiff j.start s.now then
            let s := if fresh then holdEntries s t.queue.toNat t.job.entries else s
            setJob { s with timuPtr := (u + 1) % 32 } t.num true (.timu { j with timu := u, start := fromNow s f })
          else s
    | _ => s

/-- Re-place the untimed jobs in issue order after a resource or storage is released (R233). -/
def replaceJobs (s : State) : State := each s.tickets placeOne s

/-! ### The end of a ticket by a fault, a reset or a lost mode (R225, R226, R378) -/

/-- Release the streams and the acquisition that a ticket armed. -/
def releaseJob (s : State) (t : Ticket) : State :=
  match t.job with
  | .capture rs _ => each rs (fun s r =>
      let mine := fun (x : Stream) => decide (x.ticket = t.num)
      let y := s.ridges[r]
      let gone := (y.stream.toList ++ y.tails).filter mine
      modR (freeFramesOf s (gone.flatMap (·.frames))) r fun y =>
        { y with stream := y.stream.filter (!mine ·), tails := y.tails.filter (!mine ·) }) s
  | .acquire p =>
      let mine := fun (a : Acq) => decide (a.ticket = t.num)
      let gone := (s.ports[p].tails ++ s.ports[p].acq.toList).filter mine
      modPort (freeFramesOf s (gone.flatMap (·.frames))) p fun y =>
        { y with acq := y.acq.filter (!mine ·), tails := y.tails.filter (!mine ·) }
  | _ => if t.booked then returnEntries s t.queue.toNat t.job.entries else s

/-- TICKET_END: the ticket's uncommitted packets are removed, its resources are released, and one entry with the status is
committed. A ticket that has already ended is not ended again (R225, R383). -/
def endTicket (s : State) (num : BitVec 17) (status : Nat) : State :=
  match findTicket s num with
  | none => s
  | some t =>
    let q := t.queue.toNat
    let s := releaseJob (removeWaiting s q fun w => w.ticket = some num) t
    dropTicket (commitPkt s q 6 [BitVec.ofNat 96 (num.toNat + status * 2 ^ 17)]) num

/-- End every ticket that passes a test, then serve the jobs that wait. -/
def endTickets (s : State) (p : Ticket → Bool) (status : Nat) : State :=
  replaceJobs (each ((s.tickets.filter p).map (·.num)) (fun s n => endTicket s n status) s)

/-- Queue scope (Table 16-2): uncommitted packets go, and the tickets that were producing one end. -/
def rollbackQueue (s : State) (id status : Nat) : State :=
  let nums := (getQ s id).waiting.filterMap (·.ticket)
  let s := removeWaiting s id fun _ => true
  each nums (fun s n => endTicket s n status) s

/-- A pin of a source selector, if it names one. -/
def selPin (sel : Nat) : Option PinId := if sel / 4096 ≤ 1 then some (Fin.ofNat 256 (sel % 4096)) else none

/-- The ridge that a source lies on, if any (R379). -/
def selRidge (sel : Nat) : Option RidgeId :=
  if sel / 4096 ≤ 1 then (selPin sel).map pinRidge
  else if sel / 4096 ≤ 5 then some (Fin.ofNat 16 (sel % 4096)) else none

/-- The mode of a pin as R215 and R220 see it: during a direct change of Table 5-2 the one it goes to. -/
def pinModeTo (s : State) (p : PinId) : Nat :=
  if pinSafe s (pinRidge p) then 0 else if s.pins[p].changing then field s (pinW p 0) 1 0 else s.pins[p].mode.toNat

/-- The source of an unstarted MEASURE or TIME_MEASURE is in the mode that R215 and R220 require. -/
def sourceReady (s : State) (j : Job) : Bool :=
  match j with
  | .measure m =>
    if m.started then true
    else match selPin m.sel.toNat with
      | some p => if m.sel.toNat / 4096 = 1 then pinModeTo s p == 2 else pinModeTo s p != 0
      | none => true
  | .timu m => m.started || (pinModeTo s m.pinA != 0 && (match m.pinB with | some b => pinModeTo s b != 0 | none => true))
  | _ => true

/-- TICKET_END BAD_PARAM for each waiting ticket whose source has left its mode (R226). -/
def endUnready (s : State) : State := endTickets s (fun t => !sourceReady s t.job) BAD_PARAM

/-- The ticket's capture, port, pins, DPS or port source lies on one of some ridges (R379, R403). -/
def ticketOn (rs : List RidgeId) (t : Ticket) : Bool :=
  match t.job with
  | .measure j => match selRidge j.sel.toNat with | some r => decide (r ∈ rs) | none => false
  | .timu j => decide (pinRidge j.pinA ∈ rs) || (match j.pinB with | some b => decide (pinRidge b ∈ rs) | none => false)
  | .capture xs _ => xs.any fun x => decide (x ∈ rs)
  | .acquire p => decide (p ∈ rs)

/-! ### The suspect window (R362) -/

/-- A content interval [a, b] overlaps a supply's suspect window, the last one or an earlier one. -/
def suspect (s : State) (a b : T64) : Bool :=
  s.smons.toList.any fun m =>
    (m.suspects.any fun w => !later w.1 b && !later a w.2) ||
    match m.suspectFrom with
    | none => false
    | some f => !later f b && (match m.suspectTo with | none => true | some e => !later a e)

/-! ### MEASURE (R220 to R223, R231 to R235, R239) -/

/-- Fields refused with BAD_PARAM: the selector (R220, R356), the pin's mode (R150), the queue (R245, R254), the converter
(R235, R239). -/
def measureBad (s : State) (sel q : Nat) (convs : List Nat) : Bool :=
  let k := sel / 4096
  let n := sel % 4096
  let form := if k ≤ 1 then decide (n ≤ 255) else if k ≤ 5 then decide (n ≤ 15) else k == 6 && decide (n ≤ 35)
  let mode := match selPin sel with
    | some p => if k = 1 then s.pins[p].mode == 2 else s.pins[p].mode != 0
    | none => true
  !form || !mode || !(getQ s q).enabled || decide (qLimit s (getQ s q) < 3) || convs == []

def measureEffect (h : Hdr) (selector nMinus1 : BitVec 16) (conv : BitVec 6) (pinned : Bool) (queue : BitVec 16)
    (s : State) : State :=
  let q := queue.toNat % 16384
  command s h { row 0x28 2 .none with timed := true } [.queue q] fun s =>
    let sel := selector.toNat
    let n := nMinus1.toNat + 1
    let convs := convChoice s h.ring h.seq sel (if pinned then some conv.toNat else none)
    if measureBad s sel q convs then refuse s h 0x28 BAD_PARAM 0
    else if ticketsOut s then refuse s h 0x28 TICKETS_EXHAUSTED 0
    else
      let job : MeasJob :=
        { sel := selector, n := n, conv := conv.toNat, trunk := none, pinned := pinned,
          timed := h.launchAt.isSome, first := s.now, takenAt := s.now, started := false, range := 0, comply := false,
          rangeMoved := false }
      match h.launchAt with
      | none =>
        let num := nextTicket s
        replyAccepted (replaceJobs (issue s h q false (.measure job))) h 0x28 num.toNat s.now
      | some t =>
        match bookAt s h t fun at_ => bestPlace s.convPtr (places s none sel n convs leadFu at_) with
        | none => refuse s h 0x28 LATE 0
        | some p =>
          if !canHold s q 3 then refuse s h 0x28 BUSY 0
          else
            let num := nextTicket s
            let first := fromNow s p.first
            let s := issue { s with convPtr := (p.conv + 1) % 64 } h q true
              (.measure { job with conv := p.conv, trunk := p.trunk, first := first })
            replyAccepted (holdEntries s q 3) h 0x28 num.toNat first

/-- RANGE of a current source (Table 8-10). -/
def sourceRange (s : State) (sel : Nat) : Nat :=
  match sel / 4096, selPin sel, selRidge sel with
  | 1, some p, _ => field s (pinW p 11) 3 1
  | 3, _, some n => field s (dpsW n 0) 4 2
  | _, _, _ => 0

/-- The source is in compliance or current limit now (R223). -/
def sourceComply (s : State) (sel : Nat) : Bool :=
  match sel / 4096, selPin sel, selRidge sel with
  | 0, some p, _ | 1, some p, _ => s.pins[p].complyNow
  | 2, _, some n | 3, _, some n => s.dps[n].limitNow || s.dps[n].complyNow
  | _, _, _ => false

/-- Nanoseconds between two instants, rounded down. -/
def nsBetween (a b : T64) : Nat := ((timeDiff b a) / 1536).toNat

/-- Ticket scope (Table 16-2). -/
def ticketFault (s : State) (bit : Fin 64) (num : BitVec 17) (injected : Bool) : State :=
  contained s ⟨bit, 0, .contained, 1, num.toNat, none, injected, false⟩ fun s => endTickets s (fun t => decide (t.num = num)) ABORTED_FAULT

/-- MEASURE_START (R221): the converter takes its first sample. An injection on CONV meets the job here (R390). -/
def measureStartEffect (num : BitVec 17) (s : State) : State :=
  match findTicket s num with
  | some t =>
    match t.job with
    | .measure j =>
      if !t.booked ∨ j.started ∨ !reached s.now j.first ∨ bearSafe s ∨ s.owl.shutdown then s
      else
        match accessInject s 31 with
        | (s, some _) => ticketFault s 31 num true
        | (s, none) =>
          let s := if j.timed then s else keepMax s gPLACEWAIT (nsBetween j.takenAt j.first) 0xFFFFFFFF
          setJob s num true (.measure { j with started := true, range := BitVec.ofNat 3 (sourceRange s j.sel.toNat),
                                               comply := sourceComply s j.sel.toNat })
    | _ => s
  | none => s

def execMeasureStart (num : BitVec 17) (s : State) : Host.Outcome State Fault Refusal := done s (measureStartEffect num s)

/-- The three entries of Table 8-10. -/
def measurePacket (s : State) (num : BitVec 17) (j : MeasJob) (samples : List Int) (atLimit : Bool) : List (BitVec 96) :=
  let mean := roundDiv (samples.foldl (· + ·) 0) j.n
  let lo := samples.foldl min (samples.headD 0)
  let hi := samples.foldl max (samples.headD 0)
  let finish := j.first + ticksFu (usTicks j.n)
  [BitVec.ofNat 96 (unsign 32 mean + unsign 32 lo * 2 ^ 32 + unsign 32 hi * 2 ^ 64),
   BitVec.ofNat 96 (j.first.toNat + (j.n - 1) * 2 ^ 64 + j.conv * 2 ^ 80 + flag j.trunk.isSome 86 + flag j.comply 87 +
     flag (j.rangeMoved || atLimit) 88 + flag (suspect s j.first finish) 89 + flag j.pinned 90),
   BitVec.ofNat 96 (j.sel.toNat + j.range.toNat * 2 ^ 16 + num.toNat * 2 ^ 19)]

/-- Commit a job's packet into the storage it reserved, end the ticket and serve the jobs that wait (R228, R233, R234). -/
def commitJob (s : State) (t : Ticket) (typ : BitVec 3) (payload : List (BitVec 96)) : State :=
  let q := t.queue.toNat
  replaceJobs (dropTicket (commitPkt (returnEntries s q t.job.entries) q typ payload) t.num)

/-- MEASURE_END (R221 to R223): the window of N µs has passed and the packet commits. -/
def measureEndEffect (num : BitVec 17) (samples : List Int) (atLimit : Bool) (s : State) : State :=
  match findTicket s num with
  | some t =>
    match t.job with
    | .measure j =>
      if !j.started ∨ samples.length ≠ j.n ∨ !reached s.now (j.first + ticksFu (usTicks j.n)) ∨ bearSafe s ∨ s.owl.shutdown then s
      else commitJob s t 0 (measurePacket s num j samples atLimit)
    | _ => s
  | none => s

def execMeasureEnd (num : BitVec 17) (samples : List Int) (atLimit : Bool) (s : State) : Host.Outcome State Fault Refusal :=
  done s (measureEndEffect num samples atLimit s)

/-! ### TIME_MEASURE (R215 to R219, R236) -/

/-- The body of a TIME_MEASURE (Table 11-10). -/
structure TimuArgs where
  pinA : Byte
  edges : Byte
  pinB : Byte
  timu : Byte
  count : Nat
  queue : Nat
  limit : Nat
  deriving DecidableEq, Repr

def TimuArgs.freq (a : TimuArgs) : Bool := bit a.edges.toNat 5
def TimuArgs.pinned (a : TimuArgs) : Bool := bit a.edges.toNat 6
def TimuArgs.b (a : TimuArgs) : Option PinId := if bit a.edges.toNat 4 then some (Fin.ofNat 256 a.pinB.toNat) else none
def TimuArgs.a (a : TimuArgs) : PinId := Fin.ofNat 256 a.pinA.toNat

def TimuArgs.job (a : TimuArgs) (now start : T64) (timed : Bool) (timu : Nat) : TimuJob :=
  { pinA := a.a, edgeA := BitVec.ofNat 2 a.edges.toNat, pinB := a.b, pinBField := a.pinB,
    edgeB := BitVec.ofNat 2 (a.edges.toNat / 4), freq := a.freq, pinned := a.pinned, timed := timed, timu := timu,
    start := start, takenAt := now, count := a.count, limit := a.limit, started := false, stamps := [], drop := false }

/-- Fields refused with BAD_PARAM (R215, R217, R218, R245, R254). -/
def timuBad (s : State) (a : TimuArgs) : Bool :=
  let pinOk := fun (p : PinId) => s.pins[p].mode != 0
  let m := if a.freq then 3 else 2 + cdiv a.count 2
  let spans := if a.freq then inRange 1500 15000000000 a.limit else inRange 1500 (2 ^ 32) a.limit && inRange 1 4096 a.count
  !pinOk a.a || (match a.b with | some p => !pinOk p | none => false) || !spans || !(getQ s a.queue).enabled ||
    decide (qLimit s (getQ s a.queue) < m)

def timeMeasureEffect (h : Hdr) (a : TimuArgs) (s : State) : State :=
  command s h { row 0x29 2 .none with timed := true } [.queue a.queue] fun s =>
    if timuBad s a then refuse s h 0x29 BAD_PARAM 0
    else if ticketsOut s then refuse s h 0x29 TICKETS_EXHAUSTED 0
    else
      let pin := if a.pinned then some (a.timu.toNat % 32) else none
      let job := a.job s.now s.now h.launchAt.isSome (a.timu.toNat % 32)
      match h.launchAt with
      | none =>
        let num := nextTicket s
        replyAccepted (replaceJobs (issue s h a.queue false (.timu job))) h 0x29 num.toNat s.now
      | some t =>
        let len := (job.interval s.now).2 - (job.interval s.now).1
        match bookAt s h t fun at_ => bestTimu s none (timuChoice s h.ring h.seq pin) len leadFu at_ with
        | none => refuse s h 0x29 LATE 0
        | some (f, u) =>
          if !canHold s a.queue (Job.timu job).entries then refuse s h 0x29 BUSY 0
          else
            let num := nextTicket s
            let start := fromNow s f
            let s := issue { s with timuPtr := (u + 1) % 32 } h a.queue true (.timu { job with timu := u, start := start })
            replyAccepted (holdEntries s a.queue (Job.timu job).entries) h 0x29 num.toNat start

/-- TIMU_JOB_START (R216): the job counts from its start instant; an injection on TIMU meets it here (R390). -/
def timuJobStartEffect (num : BitVec 17) (s : State) : State :=
  match findTicket s num with
  | some t =>
    match t.job with
    | .timu j =>
      if !t.booked ∨ j.started ∨ !reached s.now j.start ∨ bearSafe s ∨ s.owl.shutdown then s
      else
        match accessInject s 30 with
        | (s, some _) => ticketFault s 30 num true
        | (s, none) =>
          let s := if j.timed then s else keepMax s gPLACEWAIT (nsBetween j.takenAt j.start) 0xFFFFFFFF
          setJob s num true (.timu { j with started := true })
    | _ => s
  | none => s

def execTimuJobStart (num : BitVec 17) (s : State) : Host.Outcome State Fault Refusal := done s (timuJobStartEffect num s)

/-- The edge codes of Table 8-6 on a change of comparator state. -/
def edgeHit (code : BitVec 2) (old new : Cmp) : Bool :=
  match code.toNat with
  | 0 => new == .high && old != .high
  | 1 => new == .low && old != .low
  | 2 => old == .low && new != .low
  | _ => old == .high && new != .high

/-- Stamps in the order of the events: by time, and A before B at one instant (R217). -/
def stampBefore (a b : Nat × Bool) : Bool := decide (a.1 < b.1) || (a.1 == b.1 && !(a.2 && !b.2))

def putStamp (l : List (Nat × Bool)) (x : Nat × Bool) : List (Nat × Bool) :=
  l.takeWhile (stampBefore · x) ++ x :: l.dropWhile (stampBefore · x)

/-- One input event at an offset from the start: at most one per tick and input, and no more than the job takes; an offset is 42
bits (R216, R217, R218, Table 8-7). -/
def TimuJob.event (j : TimuJob) (off : Nat) (isB : Bool) : TimuJob :=
  let late := if j.freq then decide (j.limit * 1024 ≤ off) else decide (min (j.limit * 1024) (2 ^ 42 - 1) < off)
  if late || (j.freq && isB) then j
  else if j.stamps.any fun x => decide (x.2 = isB ∧ x.1 / 1024 = off / 1024) then { j with drop := true }
  else
    let l := putStamp j.stamps (off, isB)
    { j with stamps := if j.freq then l else l.take j.count }

/-- A comparator change as a TIMU job sees it; events at one instant are stored A first (R217). -/
def TimuJob.see (j : TimuJob) (p : PinId) (old new : Cmp) (t : T64) : TimuJob :=
  if !j.started || later j.start t then j
  else
    let off := (t - j.start).toNat
    let j := if j.pinA = p ∧ edgeHit j.edgeA old new then j.event off false else j
    if j.pinB = some p ∧ edgeHit j.edgeB old new then j.event off true else j

/-- Every started TIMU job sees a comparator change. -/
def timuSee (s : State) (p : PinId) (old new : Cmp) (t : T64) : State :=
  { s with tickets := s.tickets.map fun k => match k.job with
      | .timu j => { k with job := .timu (j.see p old new t) }
      | _ => k }

/-- Σ(2i − n + 1)·t_i over the stamps, i from the given index. -/
def fitSum (n : Nat) : Nat → List Nat → Int
  | _, [] => 0
  | i, t :: ts => (2 * (i : Int) - n + 1) * t + fitSum n (i + 1) ts

/-- The fit of R218 in exact sums: b in 2^−16 fine unit, a in 1/16 fine unit, rms in 1/16 fine unit. -/
def fit (ts : List Nat) : Nat × Int × Nat :=
  let n := ts.length
  if n < 3 then (0, 0, 0)
  else
    let sw := fitSum n 0 ts
    let st : Int := (ts.foldl (· + ·) 0 : Nat)
    let sq : Int := (ts.foldl (fun x t => x + t * t) 0 : Nat)
    let b := roundDiv (6 * sw * 65536) (n * (n * n - 1))
    let a := roundDiv (16 * (st * (n + 1) - 3 * sw)) (n * (n + 1))
    let den := n * (n * n - 1)
    let num := sq * den - st * st * (n * n - 1 : Nat) - 3 * sw * sw
    let rms := (Nat.sqrt (4 * 256 * num.toNat / (den * (n - 2))) + 1) / 2
    (b.toNat, a, rms)

/-- Stamp entries of a RAW packet (R219). -/
def stampEntries : List (Nat × Bool) → List (BitVec 96)
  | [] => []
  | [x] => [BitVec.ofNat 96 (x.1 % 2 ^ 42 + flag x.2 42)]
  | x :: y :: r => BitVec.ofNat 96 (x.1 % 2 ^ 42 + flag x.2 42 + (y.1 % 2 ^ 42 + flag y.2 42) * 2 ^ 48) :: stampEntries r

/-- The packet of Table 8-7. -/
def timuPacket (s : State) (num : BitVec 17) (j : TimuJob) : List (BitVec 96) :=
  let n := j.stamps.length
  let short := decide (n < j.count)
  let span := if j.freq then decide (2 ^ 32 < j.limit) else short && decide (2 ^ 32 ≤ j.limit)
  let (b, a, rms) := if j.freq then fit (j.stamps.map (·.1)) else (0, 0, 0)
  let timeout := !j.freq && short
  let last := if j.freq ∨ short then j.start + ticksFu j.limit else j.start + BitVec.ofNat 64 ((j.stamps.getLast?.map (·.1)).getD 0)
  let e0 := BitVec.ofNat 96 (j.start.toNat + min n 0xFFFFFFFF * 2 ^ 64)
  let a32 := unsign 32 (clampI (-(2 ^ 31)) (2 ^ 31 - 1) a)
  let jEntry := BitVec.ofNat 96 (min rms 0xFFFF + flag (j.freq && decide (n < 3)) 16 + flag span 17 + flag j.drop 18 +
    flag (suspect s j.start last) 19 + flag timeout 20 + num.toNat * 2 ^ 24 + j.timu * 2 ^ 41 + j.pinA.val * 2 ^ 46 +
    j.pinBField.toNat * 2 ^ 54 + flag j.pinB.isSome 62)
  if j.freq then [e0, BitVec.ofNat 96 (b % 2 ^ 64 + a32 * 2 ^ 64), jEntry]
  else [e0, jEntry] ++ stampEntries j.stamps

/-- TIMU_JOB_END (R217, R218): by count, by timeout or span, or at the end of the gate. -/
def timuJobEndEffect (num : BitVec 17) (s : State) : State :=
  match findTicket s num with
  | some t =>
    match t.job with
    | .timu j =>
      let over_ := reached s.now (j.start + ticksFu j.limit)
      let full := !j.freq && decide (j.count ≤ j.stamps.length)
      if !j.started ∨ !(over_ || full) ∨ bearSafe s ∨ s.owl.shutdown then s
      else commitJob s t (if j.freq then 2 else 1) (timuPacket s num j)
    | _ => s
  | none => s

def execTimuJobEnd (num : BitVec 17) (s : State) : Host.Outcome State Fault Refusal := done s (timuJobEndEffect num s)

end Sys2Proof.Machine
end

