-- ==== Sys2Proof/Machine/Drains.lean ====
section
/-! DEFINITION. Result queues (chapter 10): configuration, drains, flushes and HEAD. Storage that frees serves the jobs that wait
for it (R18, R234). -/

namespace Sys2Proof.Machine

/-! ### Configuration (R251 to R254, R266) -/

/-- The items of a QUEUE_CONFIG body (Table 10-1). -/
structure QConf where
  enable : Nat
  ringSize : Nat
  reservation : Nat
  ringBase : BitVec 64
  wbAddr : BitVec 64
  cring : Byte
  drainThr : Nat
  stale : Nat
  deriving DecidableEq, Repr

/-- The refusals of QUEUE_CONFIG: a value outside its range, a reservation that breaks R244, a disabled completion ring
(R266), then the state of an enabled queue (R253). In the sum of the reservations a queue whose reservation still shrinks counts with
what its entries still hold. DEDUCED, log entry 65. -/
def queueConfigRefusal (s : State) (id : Nat) (c : QConf) : Option Nat :=
  let q := getQ s id
  let ringBad := c.enable == 1 && (!inRange 12 20 c.ringSize || c.ringBase.toNat % 4096 != 0 || c.wbAddr.toNat % 8 != 0)
  let sum := reservationSum s - q.reserved + max c.reservation (min q.reserved q.used)
  let cringBad := c.enable == 1 && (match cringOf c.cring.toNat with
    | some k => !s.cq[k].enabled
    | none => false)
  let ringChange := decide (c.enable = 0 ∨ c.ringBase ≠ q.ringBase ∨ c.ringSize ≠ q.ringSize ∨ c.wbAddr ≠ q.wbAddr)
  if decide (1 < c.enable) || ringBad || decide (65536 < c.reservation) || decide (253952 < sum) ||
      !cringOk c.cring.toNat || !inRange 1 256 c.drainThr || !inRange 1 1000000 c.stale || cringBad then some BAD_PARAM
  else if q.enabled && ringChange && !(decide (q.depth = 0) && decide (q.head = q.tail)) then some BUSY
  else none

/-- The queue after an accepted QUEUE_CONFIG. Its reservation rises at once and shrinks as entries are freed (R244). -/
def Queue.configure (q : Queue) (c : QConf) : Queue :=
  let q := { q with reservation := c.reservation, cring := c.cring, drainThr := c.drainThr, stale := c.stale }
  let q := { q with due := q.due || (decide (c.drainThr ≤ q.depth) && q.store != []) }
  if c.enable = 0 then { q with enabled := false }
  else
    let q' := { q with ringBase := c.ringBase, ringSize := c.ringSize, wbAddr := c.wbAddr, enabled := true }
    if q.enabled then q' else { q' with head := 0, tail := 0 }

def queueConfigEffect (h : Hdr) (queue : BitVec 16) (c : QConf) (s : State) : State :=
  let id := queue.toNat % 16384
  command s h (row 0x30 3 .none) [.queue id] fun s =>
    match queueConfigRefusal s id c with
    | some st => refuse s h 0x30 st 0
    | none => replyDone (replaceJobs (modQ s id fun q => q.configure c)) h 0x30 0

def execQueueConfig (h : Hdr) (queue : BitVec 16) (enable ringSize : Byte) (reservation : Word) (ringBase wbAddr : BitVec 64)
    (cring : Byte) (drainThr : BitVec 16) (stale : Word) (s : State) : Host.Outcome State Fault Refusal :=
  done s (queueConfigEffect h queue
    ⟨enable.toNat, ringSize.toNat, reservation.toNat, ringBase, wbAddr, cring, drainThr.toNat, stale.toNat⟩ s)

/-! ### Drains (R260 to R265) -/

/-- Host DMA has a way out: the own link, or the ring to a reachable Summit (R294, R301). -/
def dmaRoute (s : State) : Bool :=
  dmaOk s && (if viaSummit s then reachable s 0 else s.boot.pcieUp && s.boot.busMaster)

/-- STALE_TIMER (R263). -/
def staleTimerEffect (id : BitVec 14) (s : State) : State :=
  match (getQ s id.toNat).timerAt with
  | none => s
  | some (t, stale) =>
    if usTicks stale ≤ s.ticks - t then modQ s id.toNat fun q => { q with timerAt := none, due := true }
    else s

def execStaleTimer (id : BitVec 14) (s : State) : Host.Outcome State Fault Refusal := done s (staleTimerEffect id s)

/-- The queue can be served: enabled, due, not blocked, no drain in progress. -/
def Queue.servable (q : Queue) : Bool :=
  q.enabled && (q.due || decide (q.drainThr ≤ q.depth)) && !q.blocked && q.draining.isNone

/-- Due queues are served round-robin in ascending ID after the one served last (R262). -/
def nextServed (s : State) : Option Nat :=
  let due := (s.queues.filter fun q => q.2.servable).map (·.1)
  match due.find? fun id => decide (s.lastQueue.toNat < id) with
  | some id => some id
  | none => due.head?

/-- Bytes of a stored packet's entries (Table 10-2). -/
def entryBytes (id : Nat) (p : QPacket) : Nat → List (BitVec 96) → List Byte
  | _, [] => []
  | k, x :: xs =>
    leBytes 16 (x.toNat + p.seq.toNat * 2 ^ 96 + p.typ.toNat * 2 ^ 108 + (if xs = [] then 2 ^ 111 else 0) + id * 2 ^ 112) ++
      entryBytes id p (k + 1) xs

/-- Write one entry after another into the ring, wrapping at its end (R261). -/
def ringWrite (base : BitVec 64) (n : Nat) : List (List Byte) → Nat → State → State
  | [], _, s => s
  | e :: es, k, s => ringWrite base n es (k + 1) (dmaWrite s (base.toNat + 16 * (k % 2 ^ n)) e)

/-- Cut a byte string into 16-byte entries. -/
def entries16 : Nat → List Byte → List (List Byte)
  | 0, _ => []
  | n + 1, bs => bs.take 16 :: entries16 n (bs.drop 16)

/-- What a drain has taken so far: entries, packets, and SEQ of the last packet written. -/
structure Drained where
  entries : Nat
  packets : Nat
  seq : BitVec 12
  deriving DecidableEq, Repr

/-- Take whole committed packets in SEQ order while the ring has room (R261); an uncorrectable entry removes its packet and
counts it in DISCARD_CNT (R382), and a DRAIN flush waits for it no longer; a correctable one is repaired. -/
def drainTake (id : Nat) (badSeq : List (BitVec 12)) : List QPacket → Drained → State → State × Drained
  | [], d, s => (modQ s id fun q => { q with store := [] }, d)
  | p :: ps, d, s =>
    let q := getQ s id
    let m := p.payload.length
    let s := if p.bad = some false then corrected s 24 0 true else s
    if p.bad = some true ∨ p.seq ∈ badSeq then
      let s := modQ s id fun q =>
        { q with store := ps, discardCnt := if q.discardCnt = 0xFFFFFFFF#32 then q.discardCnt else q.discardCnt + 1,
                 flushLeft := q.flushLeft.map fun (left, n) => (if d.packets < left then left - 1 else left, n) }
      let s := logFault s ⟨24, 1, .contained, 2, id, none, decide (p.bad = some true), false⟩ 1 0
      drainTake id badSeq ps d s
    else if (q.tail - q.head).toNat + d.entries + m ≤ 2 ^ q.ringSize then
      let s := ringWrite q.ringBase q.ringSize (entries16 m (entryBytes id p 0 p.payload)) (q.tail.toNat + d.entries) s
      drainTake id badSeq ps ⟨d.entries + m, d.packets + 1, p.seq⟩ s
    else (modQ s id fun q => { q with store := { p with bad := none } :: ps }, d)

/-- Reply to a QUEUE_FLUSH and end its long command. -/
def flushReply (s : State) (id st info : Nat) : State :=
  match findLong s fun j => decide (j = .flush (BitVec.ofNat 14 id)) with
  | none => s
  | some l =>
    let s := modQ (dropLong s l) id fun q => { q with flushLeft := none }
    answer s l.hdr 0x31 st info s.now

/-- DRAIN_START (R262): the next due queue is served. A fired drain that finds no room sets RING_FULL and leaves the queue
due (R263); a DRAIN flush that meets no room is answered BUSY (R268). -/
def drainStartEffect (id : BitVec 14) (badSeq : List (BitVec 12)) (s : State) : State :=
  if !dmaRoute s || nextServed s != some id.toNat then s
  else
    let i := id.toNat
    let (s, d) := drainTake i badSeq (getQ s i).store ⟨0, 0, 0⟩ { s with lastQueue := id }
    if d.packets = 0 then
      let full := (getQ s i).store != []
      let s := modQ s i fun q => { q with due := full, ringFull := q.ringFull || full, timerAt := if full then q.timerAt else none }
      replaceJobs (match (getQ s i).flushLeft with
        | some (left, n) => flushReply s i (if left = 0 then 0 else BUSY) n
        | none => s)
    else replaceJobs (modQ s i fun q => { q with due := false, timerAt := none, draining := some (d.entries, d.seq, d.packets) })

def execDrainStart (id : BitVec 14) (badSeq : List (BitVec 12)) (s : State) : Host.Outcome State Fault Refusal :=
  done s (drainStartEffect id badSeq s)

/-- Writeback of Table 10-5 at WB_ADDR. -/
def queueWriteback (s : State) (id : Nat) (seq : BitVec 12) : State :=
  let q := getQ s id
  dmaWrite s q.wbAddr.toNat (leBytes 8 (q.tail.toNat + seq.toNat * 2 ^ 32))

/-- Queue notice of Table 10-6. -/
def queueNotice (s : State) (id : Nat) : State :=
  let q := getQ s id
  match cringOf q.cring.toNat with
  | none => s
  | some c =>
    postNotice s ⟨c, .queue (BitVec.ofNat 14 id), 1,
      BitVec.ofNat 128 (0x80 + id * 2 ^ 16 + q.tail.toNat * 2 ^ 32 + s.now.toNat * 2 ^ 64)⟩

/-- DRAIN_DONE (R263, R264, R268): TAIL moves over whole packets, then the writeback, the notice, the stale timer and the
answer to a DRAIN flush. -/
def drainDoneEffect (id : BitVec 14) (s : State) : State :=
  let i := id.toNat
  match (getQ s i).draining with
  | none => s
  | some (n, seq, pkts) =>
    if !dmaRoute s || (getQ s i).blocked then s
    else
      let s := modQ s i fun q =>
        { q with tail := q.tail + BitVec.ofNat 32 n, draining := none,
                 timerAt := if q.store = [] then none else q.timer s.ticks,
                 due := q.due || (decide (q.drainThr ≤ q.depth) && q.store != []) }
      let s := queueNotice (queueWriteback s i seq) i
      match (getQ s i).flushLeft with
      | none => s
      | some (left, d) =>
        if left ≤ pkts then flushReply s i 0 (d + left)
        else
          let q := getQ s i
          let room := match q.store with
            | p :: _ => decide ((q.tail - q.head).toNat + p.payload.length ≤ 2 ^ q.ringSize)
            | [] => true
          if room then modQ s i fun q => { q with flushLeft := some (left - pkts, d + pkts), due := true }
          else flushReply s i BUSY (d + pkts)

def execDrainDone (id : BitVec 14) (s : State) : Host.Outcome State Fault Refusal := done s (drainDoneEffect id s)

/-! ### Flush (R268) -/

/-- The flush meets its packet boundary: it drains or discards the packets committed there, all but the last `later` of those
in storage. -/
def flushNow (s : State) (i : Nat) (m : FlushMode) (later : Nat) : State :=
  let q := getQ s i
  let n := q.store.length - later
  match m with
  | .discard =>
    let cnt := min 0xFFFFFFFF (q.discardCnt.toNat + n)
    let s := modQ s i fun q =>
      let rest := q.store.drop n
      { q with flush := none, store := rest, discardCnt := BitVec.ofNat 32 cnt,
               timerAt := if rest = [] then none else q.timerAt, due := q.due && rest != [] }
    replaceJobs (flushReply s i 0 n)
  | .drain =>
    let n := n + (match q.draining with | some (_, _, k) => k | none => 0)
    if n = 0 then flushReply (modQ s i fun q => { q with flush := none }) i 0 0
    else modQ s i fun q => { q with flush := none, due := q.due || q.store != [], flushLeft := some (n, 0) }

/-- A packet is being written into the queue (R257). -/
def Queue.writing (q : Queue) (now : Nat) : Bool := decide (now < q.writeEnd)

/-- QUEUE_FLUSH (R268): at once if no packet is being written into the queue, else at the boundary. -/
def queueFlushEffect (h : Hdr) (queue : BitVec 16) (mode : Byte) (s : State) : State :=
  let id := queue.toNat % 16384
  command s h (row 0x31 2 .none) [.queue id] fun s =>
    let q := getQ s id
    let m : FlushMode := if mode = 0 then .drain else .discard
    if 1 < mode.toNat ∨ (mode = 0 ∧ !q.enabled) then refuse s h 0x31 BAD_PARAM 0
    else if q.flush.isSome then refuse s h 0x31 BUSY 0
    else
      let s := startLong s h 0x31 (.flush (BitVec.ofNat 14 id))
      if q.writing s.ticks then modQ s id fun q => { q with flush := some (m, 0) } else flushNow s id m 0

def execQueueFlush (h : Hdr) (queue : BitVec 16) (mode : Byte) (s : State) : Host.Outcome State Fault Refusal :=
  done s (queueFlushEffect h queue mode s)

/-- QUEUE_FLUSH_BOUNDARY (R268): the END entry of the packet being written is in storage, and a flush that waited for it takes
effect. -/
def queueFlushBoundaryEffect (id : BitVec 14) (s : State) : State :=
  let q := getQ s id.toNat
  if bearSafe s || s.owl.shutdown || q.writing s.ticks then s
  else match q.flush with
  | none => s
  | some (m, later) => flushNow s id.toNat m later

def execQueueFlushBoundary (id : BitVec 14) (s : State) : Host.Outcome State Fault Refusal :=
  done s (queueFlushBoundaryEffect id s)

/-! ### HEAD (R267) -/

/-- QUEUE_HEAD_WRITE: a HEAD that moves backward or past TAIL is ignored and sets HEAD_ERR. The queue window is open in every
state of the device. -/
def queueHeadWriteEffect (id : BitVec 14) (v : Word) (s : State) : State :=
  modQ s id.toNat fun q =>
    if (v - q.head).toNat ≤ (q.tail - q.head).toNat then { q with head := v } else { q with headErr := true }

def execQueueHeadWrite (id : BitVec 14) (v : Word) (s : State) : Host.Outcome State Fault Refusal :=
  done s (queueHeadWriteEffect id v s)

end Sys2Proof.Machine
end

