-- ==== Sys2Proof/Machine/Capture.lean ====
section
/-! DEFINITION. Change capture and the pass/fail log (R203 to R214): records, the elastic buffer, blocks and their
packets. -/

namespace Sys2Proof.Machine

/-! ### Records (Tables 8-1 to 8-3) -/

def Cmp.code : Cmp → Nat
  | .low => 0 | .mid => 1 | .high => 2

/-- A change record (Table 8-1). -/
def changeRec (lane : Fin 16) (c : Cmp) (t : T64) : BitVec 64 :=
  BitVec.ofNat 64 (lane.val + Cmp.code c * 16 + (t.toNat % 2 ^ 58) * 64)

/-- A special record of a kind, with TIME or other content in bits [63:6]. -/
def specialRec (kind content : Nat) : BitVec 64 := BitVec.ofNat 64 (kind + 48 + (content % 2 ^ 58) * 64)

/-- An EXT record; the argument is the content of bits [63:6]. -/
def extRec (content : Nat) : BitVec 64 := specialRec 11 content

/-- RUN_START or ANCHOR pair with the count of log entries (Table 8-3). -/
def basePair (kind : Nat) (t : T64) (entries : Nat) : List (BitVec 64) :=
  [specialRec kind t.toNat, extRec (bits t.toNat 63 58 + (entries % 2 ^ 46) * 64)]

/-- CAIRN pair (Table 8-3). -/
def cairnPair (t : T64) (epoch : Nat) : List (BitVec 64) :=
  [specialRec 5 t.toNat, extRec (bits t.toNat 63 58 + (epoch % 2 ^ 32) * 64)]

/-- LOST pair (Table 8-3). -/
def lostPair (first : T64) (n : Nat) : List (BitVec 64) :=
  [specialRec 7 first.toNat, extRec (min n (2 ^ 42 - 1) + bits first.toNat 63 58 * 2 ^ 42)]

/-- FAIL, MASK_BEGIN or MASK_END record of an entry (R212). -/
def logRec (kind : Nat) (lanes : BitVec 16) (number : Nat) : BitVec 64 :=
  specialRec kind (lanes.toNat + (number % 2 ^ 36) * 2 ^ 16)

/-- The T64 that agrees with a record's TIME and lies at or after the full T64 of its base pair (R206). -/
def fullTime (base : T64) (r : BitVec 64) : T64 :=
  base + BitVec.ofNat 64 ((r.toNat / 64 + 2 ^ 58 - base.toNat % 2 ^ 58) % 2 ^ 58)

/-! ### The formatter (R209, R210) -/

def modStream (s : State) (r : RidgeId) (f : Stream → Stream) : State :=
  modR s r fun x => { x with stream := x.stream.map f }

/-- A record can be stored: the open block has room, or a frame is free for a new one. -/
def Stream.room (x : Stream) : Bool := x.cur != [] || decide (x.closed.length < x.frames.length)

/-- Close the open block. -/
def Stream.close (x : Stream) (last : Bool) : Stream :=
  let b : CapBlock :=
    { records := x.cur, number := x.nextBlock, firstTime := x.curTime, last := last, lastTime := x.curLast,
      lost := x.curLost, failLost := x.curFailLost, outcome := x.fin.bind (·.outcome), sites := [], aborted := false }
  { x with cur := [], curLost := false, curFailLost := false, closed := x.closed ++ [b], nextBlock := x.nextBlock + 1 }

/-- Store one record with its time; a block of 2,048 records closes (R210). -/
def Stream.store (x : Stream) (ticks : Nat) (t : T64) (rec : BitVec 64) : Stream :=
  let x := if x.cur = [] then { x with curTime := t, openedAt := ticks } else x
  let x := { x with cur := x.cur ++ [rec], curLast := t }
  if 2048 ≤ x.cur.length then x.close false else x

/-- Records in the elastic buffer at a tick: one leaves per tick (R209). -/
def Stream.level (x : Stream) (ticks : Nat) : Nat := x.elastic - (ticks - x.elasticAt)

/-- Enter n records into the elastic buffer. -/
def Stream.enter (x : Stream) (ticks n : Nat) : Stream :=
  { x with elastic := x.level ticks + n, elasticAt := max ticks x.elasticAt }

/-- Store special records, or hold them until a frame is free: they are never lost (R209). -/
def Stream.special (x : Stream) (ticks : Nat) (t : T64) : List (BitVec 64) → Stream
  | [] => x
  | rec :: rs =>
    let x := x.enter ticks 1
    if x.held = [] ∧ x.room then Stream.special (x.store ticks t rec) ticks t rs
    else Stream.special { x with held := x.held ++ [(t, rec)] } ticks t rs

/-- Store held records while there is room. -/
def Stream.unhold (ticks : Nat) : List (T64 × BitVec 64) → Stream → Stream
  | [], x => { x with held := [] }
  | h :: hs, x => if x.room then Stream.unhold ticks hs (x.store ticks h.1 h.2) else { x with held := h :: hs }

/-- The LOST pair, before the first counted record that is stored after a loss (R209). -/
def Stream.flushLost (x : Stream) (ticks : Nat) : Stream :=
  if x.lost = 0 then x else ({ x with lost := 0 } : Stream).special ticks x.lostFirst (lostPair x.lostFirst x.lost)

/-- The tick at which a record of a time entered the stream. -/
def tickOf (ticks : Nat) (now t : T64) : Nat := ticks - (if later t now then 0 else (now - t).toNat / 1024)

/-- The order of a stream (R204): by time, then changes by lane, then special records. A log record carries no time; it stands at
the start of its entry's vector, after what has that time, so that it never falls behind an ANCHOR pair that counts its entry
(R212). DEDUCED, log entry 59. -/
def Due.before (a b : Due) : Bool := later b.at_ a.at_ || (a.at_ == b.at_ && decide (a.rank ≤ b.rank))

/-- Put a record behind all that comes before it. -/
def Stream.put (x : Stream) (d : Due) : Stream :=
  { x with ahead := x.ahead.takeWhile (fun e => e.before d) ++ d :: x.ahead.dropWhile (fun e => e.before d) }

/-- A change record waits for its turn. -/
def offer (s : State) (r : RidgeId) (t : T64) (lane : Fin 16) (c : Cmp) : State :=
  modStream s r fun x => x.put ⟨t, lane.val, [changeRec lane c t], false⟩

/-- A FAIL, MASK_BEGIN or MASK_END record waits for its turn; t is the start of its entry. -/
def offerLog (s : State) (r : RidgeId) (t : T64) (rec : BitVec 64) : State := modStream s r fun x => x.put ⟨t, 17, [rec], false⟩

/-- Special records of a time wait for their turn (R204); RUN_END is preceded by a due LOST pair (R209). -/
def writeSpecial (s : State) (r : RidgeId) (t : T64) (recs : List (BitVec 64)) (afterLoss : Bool) : State :=
  modStream s r fun x => x.put ⟨t, 16, recs, afterLoss⟩

/-- The formatter takes one record, or one pair, at a tick: special records are stored or held, the others are stored or lost and
counted (R209). `fits` says that the elastic buffer has room. -/
def takeDue (s : State) (r : RidgeId) (k : Nat) (d : Due) (fits : Bool) : State :=
  match s.ridges[r].stream with
  | none => s
  | some x =>
    if d.rank = 16 then
      let y := (if d.loss then x.flushLost k else x).special k d.at_ d.recs
      let s := modStream s r fun _ => y
      if y.held != [] then setBits s (rdgW r 0x21) 16 else s
    else
      let y := (x.enter k 0).flushLost k
      if fits ∧ x.held = [] ∧ x.room ∧ y.room then
        modStream s r fun _ => d.recs.foldl (fun z rec => z.store k d.at_ rec) (y.enter k 1)
      else
        let isLog := d.rank == 17
        let s := bump s (rdgW r 0x22) 1
        let s := setBits s (rdgW r 0x21) (4 + (if isLog then 8 else 0) + (if x.room then 0 else 16))
        modStream s r fun x =>
          { x with lost := x.lost + 1, lostFirst := if x.lost = 0 then d.at_ else x.lostFirst, curLost := true,
                   curFailLost := x.curFailLost || isLog }

/-- The records of one tick in the stream's order; the places left in the elastic buffer go to log records first, then to changes
(R209). -/
def takeTick (r : RidgeId) (k : Nat) : List Due → Nat → Nat → State → State
  | [], _, _, s => s
  | d :: ds, logs, changes, s =>
    if d.rank = 16 then takeTick r k ds logs changes (takeDue s r k d true)
    else if d.rank = 17 then takeTick r k ds (logs - 1) changes (takeDue s r k d (decide (0 < logs)))
    else takeTick r k ds logs (changes - 1) (takeDue s r k d (decide (0 < changes)))

/-- Records of several ticks, tick by tick. -/
def takeTicks (r : RidgeId) : Nat → List Due → State → State
  | 0, _, s => s
  | n + 1, l, s =>
    match l, s.ridges[r].stream with
    | d :: _, some x =>
      let k := tickOf s.ticks s.now d.at_
      let same := fun (e : Due) => tickOf s.ticks s.now e.at_ == k
      let now := l.takeWhile same
      let special := (now.filter fun e => e.rank = 16).foldl (fun n e => n + e.recs.length) 0
      let left := 4096 - (x.level k + special)
      let logs := min left (now.filter fun e => e.rank = 17).length
      takeTicks r n (l.dropWhile same) (takeTick r k now logs (left - logs) s)
    | _, _ => s

/-- What waits before a time enters the formatter. -/
def settleBefore (s : State) (r : RidgeId) (t : T64) : State :=
  match s.ridges[r].stream with
  | none => s
  | some x =>
    let due := x.ahead.takeWhile fun e => later t e.at_
    if due = [] then s
    else takeTicks r due.length due (modStream s r fun x => { x with ahead := x.ahead.drop due.length })

/-- Entries executed before an ANCHOR instant are known: every vector that starts before it has executed. -/
def anchorKnown (x : Ridge) (t : T64) : Bool := decide (x.st ≠ .running) || !later t x.start

/-- Write the ANCHOR pair that is due before a time: every 2^32 ticks after the launch, as long as the stream records
(R206, R208, Table 8-2). -/
def dueAnchor (s : State) (r : RidgeId) (before : T64) : State :=
  match s.ridges[r].stream with
  | some x =>
    let t := x.anchorAt + ticksFu (2 ^ 32)
    let inside := match s.ridges[r].ended with | none => true | some e => later (e + ticksFu 32) t
    if x.active && inside && reached before t && anchorKnown s.ridges[r] t then
      modStream (writeSpecial s r t (basePair 6 t s.ridges[r].entries) false) r fun x => { x with anchorAt := t }
    else s
  | none => s

/-- The time before which the stream's records are all known: the present tick, the next vector to run, an entry whose compares are
still open and an ANCHOR pair may still bring one at or after theirs (R204, R206, R212). -/
def streamHorizon (s : State) (r : RidgeId) (x : Stream) : T64 :=
  let y := s.ridges[r]
  let sooner := fun (a b : T64) => if later a b then b else a
  let h := s.now - 1023
  let h := if y.st = .running then sooner h y.start else h
  let h := match y.open_ with | e :: _ => sooner h e.start | [] => h
  if x.active then sooner h (x.anchorAt + ticksFu (2 ^ 32)) else h

/-- Each tick the formatter takes what has become known (R209). -/
def settleStream (s : State) (r : RidgeId) : State :=
  let s := dueAnchor s r s.now
  match s.ridges[r].stream with
  | none => s
  | some x => settleBefore s r (streamHorizon s r x)

/-! ### Judging compares (R36, R49, R52, R105, R137) -/

def Expect.allows : Expect → Cmp → Bool
  | .low, c => c == .low
  | .high, c => c == .high
  | .mid, c => c == .mid
  | .notMid, c => c != .mid

/-- The states a comparator shows in [opens, closes], from its history with the newest entry first; `none` where it was
not evaluated in a part of it. -/
def statesIn (opens closes : T64) : List (T64 × Option Cmp) → Option (List Cmp)
  | [] => none
  | (t, c) :: h =>
    if later t closes then statesIn opens closes h
    else match c with
      | none => none
      | some c => if later t opens then (statesIn opens closes h).map (c :: ·) else some [c]

/-- The compare passes: the comparator holds the expected state at every instant of the window (R36). -/
def windowPasses (s : State) (r : RidgeId) (w : Window) : Bool :=
  match statesIn w.opens w.closes s.pins[pinOf r w.lane].hist with
  | none => false
  | some cs => cs.all w.expect.allows

/-- Lanes of the ridge that belong to sites aborted in site scope: their compares are masked (R380). -/
def abortedLanes (s : State) (r : RidgeId) : BitVec 16 :=
  (s.ridges[r].siteLogs.filter (·.aborted)).foldl (fun m l => m ||| siteLanes s l.site r) 0

/-- The lanes whose non-masked compares of an entry failed. -/
def failLanes (s : State) (r : RidgeId) (e : Entry) : BitVec 16 :=
  e.windows.foldl (fun m w => if windowPasses s r w then m else m ||| BitVec.ofNat 16 (2 ^ w.lane.val)) 0#16

/-- Every window of the entry has closed before a time. -/
def Entry.over (e : Entry) (t : T64) : Bool := e.windows.all fun w => later t w.closes

/-- Entries below this number have been judged on a ridge. -/
def judgedTo (x : Ridge) : Nat := ((x.open_.filter (!·.isRep)).map (·.number)).headD x.entries

/-- A failing entry counts once for a site, whichever ridges of the site see it fail (R36, R213). -/
def SiteLog.fail (l : SiteLog) (n below : Nat) : SiteLog :=
  if n ∈ l.recent then l
  else { l with fails := l.fails + 1, recent := n :: l.recent.filter fun m => decide (below ≤ m),
                first := match l.first with | some k => some (min k n) | none => some n }

/-- A site's entry fails: every ridge of the site counts it (R36, R213). -/
def siteFails (s : State) (n : Nat) (k : Fin 64) : State :=
  let rs := maskRidges s.sites[k]
  let below := (rs.map fun q => judgedTo s.ridges[q]).foldl min n
  each rs (fun s q => modR s q fun x => { x with siteLogs := x.siteLogs.map fun l => if l.site = k then l.fail n below else l }) s

/-- One judged log entry, whose vector started at t: mask records, FAIL record, site counts and the FAIL flag's earliest period
(R49, R212, R213). -/
def logEntry (s : State) (r : RidgeId) (t : T64) (number period : Nat) (masked : Bool) (lanes : BitVec 16) (direct : Bool) : State :=
  let was := s.ridges[r].inMask
  let s := if masked && !was then offerLog s r t (logRec 9 0 number)
    else if !masked && was then offerLog s r t (logRec 10 0 number) else s
  let s := modR s r fun x => { x with inMask := masked, maskedEntries := x.maskedEntries + (if masked then 1 else 0) }
  if masked ∨ (lanes = 0 ∧ !direct) then s
  else
    let s := offerLog s r t (logRec 8 lanes number)
    let hit := (s.ridges[r].siteLogs.filter fun l => siteLanes s l.site r &&& lanes ≠ 0).map (·.site)
    let s := each hit (fun s k => siteFails s number k) s
    modR s r fun x =>
      { x with firstFail := if direct ∨ period < x.cleared then x.firstFail else
          match x.firstFail with | some p => some (min p period) | none => some period }

/-- Judge entries in order while their windows have closed before a time. -/
def judgeList (r : RidgeId) (t : T64) : List Entry → State → State
  | [], s => modR s r fun x => { x with open_ := [] }
  | e :: es, s =>
    if e.over t then
      let lanes := failLanes s r e
      let s := modR s r fun x => { x with open_ := es }
      let s := if e.isRep then modR s r fun x => { x with repFails := x.repFails ++ [lanes] }
        else logEntry s r e.start e.number e.period e.masked lanes false
      judgeList r t es s
    else modR s r fun x => { x with open_ := e :: es }

def judgeTo (s : State) (r : RidgeId) (t : T64) : State := judgeList r t s.ridges[r].open_ s

/-- Judge what closed before the present tick, in which transitions may still come. -/
def judge (s : State) (r : RidgeId) : State := judgeTo s r (s.now - 1023)

/-! ### Blocks and packets (R200, R210 to R214) -/

/-- Outcome code of a site's summary (Table 8-5). -/
def outcomeCode (x : Ridge) (l : SiteLog) : Nat :=
  if l.aborted then 3 else match x.outcome with | .completed => 0 | .invalid => 1 | .gapped => 2 | .aborted => 3

/-- The two summary entries of a site (Table 8-5). -/
def summary (x : Ridge) (l : SiteLog) : List (BitVec 96) :=
  [BitVec.ofNat 96 (x.entries % 2 ^ 48 + (l.fails % 2 ^ 48) * 2 ^ 48),
   BitVec.ofNat 96 ((l.first.getD (2 ^ 48 - 1)) % 2 ^ 48 + l.site.val * 2 ^ 48 + outcomeCode x l * 2 ^ 54 +
     min x.maskedEntries (2 ^ 40 - 1) * 2 ^ 56)]

/-- The site summaries of a LAST packet: the sites of the ticket on that ridge. -/
def summarySites (x : Ridge) (bySite : Option (Fin 64)) : List SiteLog :=
  match bySite with
  | some k => x.siteLogs.filter fun l => decide (l.site = k)
  | none => x.siteLogs

/-- A capture block packet (Tables 8-4, 8-5). -/
def capturePacket (s : State) (r : RidgeId) (b : CapBlock) (ticket : Nat) : List (BitVec 96) :=
  let outcome := b.outcome.getD s.ridges[r].outcome
  let empty := b.records == []
  [BitVec.ofNat 96 (b.firstTime.toNat + b.number % 2 ^ 32 * 2 ^ 64),
   BitVec.ofNat 96 ((b.records.length - 1) + flag b.last 11 + flag b.lost 12 + flag b.failLost 13 +
     flag (decide (outcome = .invalid)) 14 + flag (decide (outcome = .gapped)) 15 +
     flag (!empty && suspect s b.firstTime b.lastTime) 16 + flag b.aborted 17 + flag empty 18 + r.val * 2 ^ 19 + ticket * 2 ^ 23 +
     b.sites.length / 2 * 2 ^ 40)] ++ b.sites

/-- What the LAST block of a run carries beside its records: RUN_END's time, the outcome and the site summaries. -/
def lastBlock (x : Ridge) (bySite : Option (Fin 64)) (t : T64) : CapBlock :=
  let sites := summarySites x bySite
  { records := [], number := 0, firstTime := t, last := true, lastTime := t, lost := false, failLost := false,
    outcome := some x.outcome, sites := sites.flatMap (summary x), aborted := sites.any fun l => outcomeCode x l == 3 }

/-- Close the LAST block once what is held, and a due LOST pair, have been stored (R209, R210). -/
def Stream.seal (x : Stream) (ticks : Nat) : Stream :=
  match x.fin with
  | none => x
  | some b =>
    if x.held != [] || (x.lost != 0 && !x.room) then x
    else
      let y := x.flushLost ticks
      if y.held != [] then y
      else
        let z := (if y.cur = [] then { y with curTime := b.firstTime, curLast := b.firstTime } else y).close true
        { z with fin := none, closed := z.closed.map fun c =>
            if c.last then { c with sites := b.sites, aborted := b.aborted } else c }

/-- The number of a block whose data an APT_HOST_RD or RDG_CAP_HOST_RD lets be copied (R200). -/
def hostRoom (number hostRd nb : Nat) : Bool := decide (number < hostRd + nb)

/-- The end of the capture window (R207, R208, R210, R212): the remaining compares are judged, the last block closes with LAST
and the ridge is no longer armed; a run that began without a capture leaves its summary packet on queue r:0. -/
def endWindow (s : State) (r : RidgeId) : State :=
  match s.ridges[r].ended with
  | none => s
  | some t =>
    let s := dueAnchor (each (gang s r) judge s) r s.now
    let s := settleBefore s r (s.now + 1)
    let y := s.ridges[r]
    match y.stream.filter (·.active) with
    | some x =>
      let b := lastBlock y x.bySite t
      let x : Stream := { x with active := false, fin := some b, closed := x.closed.map fun c => { c with outcome := b.outcome } }
      modR s r fun z => { z with ended := none, stream := none, tails := z.tails ++ [x.seal s.ticks] }
    | none =>
      let s := if y.captured then s
        else submitPkt s (1024 * r.val) ⟨3, capturePacket s r (lastBlock y none t) 0, none, false, none⟩
      modR s r fun x => { x with ended := none }

/-- CAPTURE_WINDOW_END: 32 ticks after RUN_END, once every compare window has closed. -/
def captureWindowEndEffect (r : RidgeId) (s : State) : State :=
  match s.ridges[r].ended with
  | none => s
  | some t =>
    let closed := (gang s r).all fun q => s.ridges[q].ended.isNone || s.ridges[q].open_.all fun e => e.over (s.now - 1023)
    if reached s.now (t + ticksFu 32) && closed && !bearSafe s && !s.owl.shutdown then endWindow s r else s

def execCaptureWindowEnd (r : RidgeId) (s : State) : Host.Outcome State Fault Refusal := done s (captureWindowEndEffect r s)

/-- CAPTURE_BLOCK_TIMEOUT: a block that has been open for 100 µs closes (R210). -/
def captureBlockTimeoutEffect (r : RidgeId) (s : State) : State :=
  let s := settleStream (judge s r) r
  match s.ridges[r].stream with
  | some x => if x.cur != [] && decide (150000 ≤ s.ticks - x.openedAt) then modStream s r fun x => x.close false else s
  | none => s

def execCaptureBlockTimeout (r : RidgeId) (s : State) : Host.Outcome State Fault Refusal :=
  done s (captureBlockTimeoutEffect r s)

/-- ANCHOR (R206). -/
def anchorEffect (r : RidgeId) (s : State) : State := dueAnchor s r s.now

def execAnchor (r : RidgeId) (s : State) : Host.Outcome State Fault Refusal := done s (anchorEffect r s)

/-! ### CAPTURE_ARM (R207) -/

/-- The body of CAPTURE_ARM (Table 11-10). -/
structure CapArgs where
  bySite : Bool
  siteLanes : Bool
  site : Nat
  laneMask : BitVec 16
  frames : Nat
  queue : Nat
  buf : BitVec 64
  nb : Nat
  deriving DecidableEq, Repr

/-- The named site, if BY_SITE. -/
def CapArgs.siteId (a : CapArgs) : Option (Fin 64) := if a.bySite then cringOf a.site else none

/-- The ridges of the ticket. -/
def capRidges (s : State) (h : Hdr) (a : CapArgs) : List RidgeId :=
  if a.bySite then (match a.siteId with | some k => maskRidges s.sites[k] | none => []) else hdrRidges h

/-- The lanes of a stream (R207). -/
def capLanes (s : State) (a : CapArgs) (r : RidgeId) : BitVec 16 :=
  if !a.siteLanes then a.laneMask
  else match a.siteId with
    | some k => siteLanes s k r
    | none => (List.finRange 64).foldl (fun m k => m ||| siteLanes s k r) 0

/-- The refusals of CAPTURE_ARM, in the order of R207. -/
def capRefusal (s : State) (a : CapArgs) (rs : List RidgeId) : Option Nat :=
  let active := fun (r : RidgeId) => match s.ridges[r].st with | .running | .hold | .parked => true | _ => false
  let sites := if a.bySite then 1 else rs.foldl (fun n r => max n (sitesOn s r).length) 0
  if !inRange 4 4096 a.frames || a.buf.toNat % 16384 != 0 || decide (a.nb < 4 * rs.length) || rs == [] then some BAD_PARAM
  else if !(getQ s a.queue).enabled || decide (qLimit s (getQ s a.queue) < 2 + 2 * sites) then some BAD_PARAM
  else if rs.any fun r => active r || s.ridges[r].stream.isSome then some BUSY
  else if freeFrames s < rs.length * a.frames then some BUSY
  else if ticketsOut s then some TICKETS_EXHAUSTED
  else none

/-- Arm the stream of the j-th ridge: its own region, and part j of the host buffer (R207, R210). -/
def armStream (a : CapArgs) (num : BitVec 17) (nbr : Nat) (s : State) (jr : Nat × RidgeId) : State :=
  let (fs, s) := allocFrames a.frames s
  let x : Stream :=
    { ticket := num, bySite := a.siteId, lanes := capLanes s a jr.2, queue := BitVec.ofNat 14 a.queue, frames := fs,
      buf := a.buf + BitVec.ofNat 64 (jr.1 * nbr * 16384), nb := nbr, cur := [], curTime := 0, curLast := 0, openedAt := 0,
      curLost := false, curFailLost := false, closed := [], copied := 0, nextBlock := 0, elastic := 0, elasticAt := 0,
      lost := 0, lostFirst := 0, held := [], ahead := [], active := false, since := 0, anchorAt := 0, rdAt := none, fin := none }
  let rd := word s (rdgW jr.2 0x20)
  let old := fun (z : Stream) => { z with rdAt := some (z.rdAt.getD rd) }
  putWord (modR s jr.2 fun y => { y with stream := some x, tails := y.tails.map old, delivered := 0 }) (rdgW jr.2 0x20) 0

def captureArmEffect (h : Hdr) (a : CapArgs) (s : State) : State :=
  command s h (row 0x2A 3 .either) ((capRidges s h a).map .ridge ++ [.queue a.queue]) fun s =>
    let rs := capRidges s h a
    match capRefusal s a rs with
    | some st => refuse s h 0x2A st 0
    | none =>
      let num := nextTicket s
      let s := issue s h a.queue true (.capture rs [])
      let s := (rs.zipIdx.map fun x => (x.2, x.1)).foldl (armStream a num (a.nb / rs.length)) s
      replyAccepted s h 0x2A num.toNat s.now

end Sys2Proof.Machine
end

