-- ==== Sys2Proof/Machine/Supplies.lean ====
section
/-! DEFINITION. The DPS channels (chapter 6): how the output follows DPS_CFG and DPS_LEVEL, the slew limiter, fault values,
and the commands of the device power supplies other than register writes. -/

namespace Sys2Proof.Machine

/-! ### Words -/

def dpsMode (s : State) (n : RidgeId) : Nat := field s (dpsW n 0) 1 0
def dpsRange (s : State) (n : RidgeId) : Nat := field s (dpsW n 0) 4 2
def dpsOpt (s : State) (n : RidgeId) (b : Nat) : Bool := isSet s (dpsW n 0) b
def dpsSlewEn (s : State) (n : RidgeId) : Bool := dpsOpt s n 5
def dpsNcoEn (s : State) (n : RidgeId) : Bool := dpsOpt s n 6
/-- FAULT_HELD (R163). -/
def dpsHeld (s : State) (n : RidgeId) : Bool := isSet s (dpsW n 13) 9

/-- DPS_LEVEL as the mode reads it (Table 6-2). -/
def dpsLevelWord (s : State) (n : RidgeId) : Int :=
  if dpsMode s n = 2 then signed 16 (word s (dpsW n 1)) else (field s (dpsW n 1) 15 0 : Nat)

/-- Full scale of a range in nA, as a quotient (Table 6-1, R166). SHUNT is used only with PRESENT = 1; without it, or at 0, no rule
gives the full scale (log entry 2). -/
def dpsScale (s : State) (n : RidgeId) (range : Nat) : Nat × Nat :=
  if range = 5 then
    (let shunt := field s (dpsW n 12) 23 4
     if shunt = 0 ∨ !isSet s (dpsW n 12) 0 then (Config.boostScale, 1) else (80000000000000, shunt))
  else (200000000 / 10 ^ range, 1)

/-- A current code recoded from one full scale to another, saturating at ±32,767 (R148, R154). -/
def recode (c : Int) (a b : Nat × Nat) : Int := clampI (-32767) 32767 (nearest (c * (a.1 * b.2 : Nat)) (b.1 * a.2))

/-! ### The forced value -/

/-- The forced value in force; without a running sine the output voltage follows it at once (R156, R168). -/
def setLevel (s : State) (n : RidgeId) (v : Int) : State :=
  let sine := dpsNcoEn s n && !dpsHeld s n
  modDps s n fun x => { x with level := v, volt := match x.out with
    | .fv => if sine then x.volt else v * 32767
    | _ => 0 }

/-- Move the forced value to a target: in one step, or by the slew limiter, which keeps the step instants of a slew that
already runs (R156, R157). -/
def dpsMove (s : State) (n : RidgeId) (slewed : Bool) (v : Int) : State :=
  let x := s.dps[n]
  if x.level = v then
    let t := modDps s n fun x => { x with target := v }
    if x.target = v then t else raise t (0xA0 + n.val) n.val
  else if slewed then
    modDps s n fun x => { x with target := v, slewAt := if x.level = x.target then s.ticks else x.slewAt }
  else raise (setLevel (modDps s n fun x => { x with target := v }) n v) (0xA0 + n.val) n.val

/-- Connect the output at 0 V or 0 A (R155). It stays in OFF until monitor 9 has released (Table 15-2). -/
def dpsConnect (s : State) (n : RidgeId) (out : DpsOut) : State :=
  if !s.smons[9].released then s
  else modDps s n fun x => { x.toOff false with out := out, boostEn := dpsRange s n == 5 }

/-- The discharge path of an output in OFF: as DPS_CFG.DISCH says, and connected at a fault value of OFF (R155, R163). -/
def dpsDisch (s : State) (n : RidgeId) : Bool := dpsHeld s n || dpsOpt s n 9

/-- OFF, after a slew to 0 where one is asked for (R155). -/
def dpsDisconnect (s : State) (n : RidgeId) (slewed : Bool) : State :=
  let x := s.dps[n]
  if slewed && x.out != .off && x.level != 0 then modDps (dpsMove s n true 0) n fun x => { x with closing := true }
  else modDps s n (Dps.toOff (dpsDisch s n))

/-- The output the mode asks for. -/
def dpsWanted (s : State) (n : RidgeId) : DpsOut := match dpsMode s n with | 1 => .fv | 2 => .fi | _ => .off

/-- DPS_CFG and DPS_ILIM as they stand reach the output: a new range recodes what it holds in current codes (R154), NCO_EN starts
or ends the sine (R168, R170). -/
def dpsSync (s : State) (n : RidgeId) : State :=
  let was := (s.dps[n].cfgNow).toNat
  let cfg := word s (dpsW n 0)
  let a := dpsScale s n (bits was 4 2)
  let b := dpsScale s n (bits cfg 4 2)
  let s := if bits was 4 2 = bits cfg 4 2 then s
    else modDps s n fun x =>
      { x with current := recode x.current a b, effLimit := x.effLimit.map fun e => (recode e a b).toNat,
               level := if x.out = .fi then recode x.level a b else x.level,
               target := if x.out = .fi then recode x.target a b else x.target }
  let s := if !bit was 6 && bit cfg 6 then modDps s n fun x => { x with phaseReset := true }
    else if bit was 6 && !bit cfg 6 then setLevel s n (s.dps[n]).level
    else s
  modDps s n fun x => { x with cfgNow := BitVec.ofNat 32 cfg, ilimNow := BitVec.ofNat 32 (word s (dpsW n 2)) }

/-- Bring the output to DPS_CFG and DPS_LEVEL as they stand; while FAULT_HELD is set nothing reaches it (R164). An output that is
wanted again in its mode while it slews to its disconnection goes on from its present value. DESIGN CHOICE, log entry 64. -/
def dpsApply (s : State) (n : RidgeId) : State :=
  if dpsHeld s n then s
  else
    let s := dpsSync s n
    let w := dpsWanted s n
    if dpsForcedOff s n then s
    else if w = .off then dpsDisconnect s n (dpsSlewEn s n)
    else
      let s := if s.dps[n].out = w then modDps s n fun x => { x with closing := false }
        else dpsConnect (modDps s n (Dps.toOff (dpsDisch s n))) n w
      if s.dps[n].out = w then
        dpsMove (modDps s n fun x => { x with boostEn := dpsRange s n == 5 }) n (dpsSlewEn s n) (dpsLevelWord s n)
      else s

/-- The fault value (R163). FAULT_HELD ends the sine: a held output stays at its last sample, and FV at the fault level stands at that
level. DESIGN CHOICE, log entry 62. -/
def dpsFault (s : State) (n : RidgeId) : State :=
  let v := word s (dpsW n 7)
  let slewed := bit v 18
  let s := setBits s (dpsW n 13) 512
  match bits v 17 16 with
  | 0 => dpsDisconnect s n slewed
  | 1 => modDps s n fun x => { x with target := x.level, closing := false }
  | _ =>
    let lv : Int := (bits v 15 0 : Nat)
    let s : State := match s.dps[n].out with
      | .fv => setLevel (modDps s n fun x => { x with closing := false }) n (s.dps[n]).level
      | .fi =>
        let start : Int := (min 60000 (Config.startLevel s.free) : Nat)
        modDps (tickFree s) n fun x => { x with out := .fv, closing := false, level := start, target := start, volt := start * 32767 }
      | .off => dpsConnect s n .fv
    if s.dps[n].out = .fv then dpsMove s n slewed lv else s

/-! ### Commands -/

/-- DPS_SLEW_UPDATE (R156): one step every DPS_SLEW_RATE µs; a slew that ends a connection then disconnects (R155). -/
def dpsSlewUpdateEffect (n : RidgeId) (s : State) : State :=
  let x := s.dps[n]
  let rate := usTicks (field s (dpsW n 5) 9 0)
  if x.out = .off ∨ x.level = x.target ∨ s.ticks - x.slewAt < rate then s
  else
    let step : Int := (field s (dpsW n 4) 12 0 : Nat)
    let v := if x.level < x.target then min x.target (x.level + step) else max x.target (x.level - step)
    let s := setLevel (modDps s n fun x => { x with slewAt := x.slewAt + rate }) n v
    if v = x.target then
      let s := raise s (0xA0 + n.val) n.val
      if x.closing then serveWaits (modDps s n (Dps.toOff (dpsDisch s n))) else s
    else s

def execDpsSlewUpdate (n : RidgeId) (s : State) : Host.Outcome State Fault Refusal := done s (dpsSlewUpdateEffect n s)

/-- A condition on a channel marks the MEASURE jobs that sample it now (R159, R223). -/
def markMeasures (s : State) (hit : BitVec 16 → Bool) (f : MeasJob → MeasJob) : State :=
  { s with tickets := s.tickets.map fun t => match t.job with
      | .measure j => if j.started ∧ hit j.sel then { t with job := .measure (f j) } else t
      | _ => t }

def selIsDps (n : RidgeId) (sel : BitVec 16) : Bool := sel.toNat == 0x2000 + n.val || sel.toNat == 0x3000 + n.val

/-- DPS_CURRENT_LIMIT (R159): in FV, a limit has controlled the output for more than 2 µs. -/
def dpsCurrentLimitEffect (n : RidgeId) (s : State) : State :=
  let x := s.dps[n]
  if x.out ≠ .fv ∨ x.limitNow then s
  else
    let s := setBits (modDps s n fun x => { x with limitNow := true }) (dpsW n 13) 1
    markMeasures (raise s (0x60 + n.val) n.val) (selIsDps n) fun j => { j with comply := true }

def execDpsCurrentLimit (n : RidgeId) (s : State) : Host.Outcome State Fault Refusal := done s (dpsCurrentLimitEffect n s)

/-- DPS_COMPLIANCE (R159): in FI, a clamp has controlled the output for 2 µs. -/
def dpsComplianceEffect (n : RidgeId) (s : State) : State :=
  let x := s.dps[n]
  if x.out ≠ .fi ∨ x.complyNow then s
  else
    let s := setBits (modDps s n fun x => { x with complyNow := true }) (dpsW n 13) 4
    markMeasures (raise s (0x70 + n.val) n.val) (selIsDps n) fun j => { j with comply := true }

def execDpsCompliance (n : RidgeId) (s : State) : Host.Outcome State Fault Refusal := done s (dpsComplianceEffect n s)

/-- DPS_LIMIT_CLEAR (R159): the forced value has controlled the output again for 2 µs. -/
def dpsLimitClearEffect (n : RidgeId) (s : State) : State := modDps s n fun x => { x with limitNow := false, complyNow := false }

def execDpsLimitClear (n : RidgeId) (s : State) : Host.Outcome State Fault Refusal := done s (dpsLimitClearEffect n s)

/-- DPS_OPEN_LOAD (R160): ignored in FI and OFF, and without OPEN_EN. -/
def dpsOpenLoadEffect (n : RidgeId) (s : State) : State :=
  if s.dps[n].out = .fv ∧ dpsOpt s n 7 then raise (setBits s (dpsW n 13) 16) (0x80 + n.val) n.val else s

def execDpsOpenLoad (n : RidgeId) (s : State) : Host.Outcome State Fault Refusal := done s (dpsOpenLoadEffect n s)

/-- DPS_SENSE_OPEN (R161): the channel regulates on FORCE through the internal sense path. -/
def dpsSenseOpenEffect (n : RidgeId) (s : State) : State :=
  if s.dps[n].out = .off ∨ s.dps[n].internalSense then s
  else raise (setBits (modDps s n fun x => { x with internalSense := true }) (dpsW n 13) 32) (0x90 + n.val) n.val

def execDpsSenseOpen (n : RidgeId) (s : State) : Host.Outcome State Fault Refusal := done s (dpsSenseOpenEffect n s)

/-- DPS_SENSE_RESTORE (R161): SENSE_OPEN stays set until it is cleared. -/
def dpsSenseRestoreEffect (n : RidgeId) (s : State) : State := modDps s n fun x => { x with internalSense := false }

def execDpsSenseRestore (n : RidgeId) (s : State) : Host.Outcome State Fault Refusal := done s (dpsSenseRestoreEffect n s)

/-- DPS_NCO_UPDATE (R168, R170): at an update instant, a COARSE that is a multiple of 150, the phase advances or is loaded,
and the sine is added to the slew limiter's present value. The row acts at such an instant only. While FAULT_HELD is set the sine
stands, DESIGN CHOICE, log entry 62. -/
def dpsNcoUpdateEffect (n : RidgeId) (s : State) : State :=
  let x := s.dps[n]
  let at_ : T64 := BitVec.ofNat 64 (coarse s.now * 1024)
  if coarse s.now % 150 ≠ 0 ∨ x.out ≠ .fv ∨ !dpsNcoEn s n ∨ dpsHeld s n ∨ x.ncoAt = some at_ then s
  else
    let φ : Word := if x.phaseReset then BitVec.ofNat 32 (word s (dpsW n 10)) else x.phase + BitVec.ofNat 32 (word s (dpsW n 9))
    let a := field s (dpsW n 11) 12 0
    let v : Int := x.level * 32767 + a * sineTable (φ.toNat / 2 ^ 22)
    let w := clampI 0 (60000 * 32767) v
    let s := modDps s n fun x => { x with phase := φ, phaseReset := false, amp := a, volt := w, ncoAt := some at_ }
    if w = v then s else setBits s (dpsW n 13) 128

def execDpsNcoUpdate (n : RidgeId) (s : State) : Host.Outcome State Fault Refusal := done s (dpsNcoUpdateEffect n s)

/-- Channels whose output is on. -/
def dpsOn (s : State) : List RidgeId := allRidges.filter fun n => s.dps[n].out != .off

/-- Dissipation of the last window in mW (R171). -/
def dpsTotal (s : State) : Nat := allRidges.foldl (fun p n => p + s.dps[n].power) 0

/-- A channel that is on in BOOST range: its booster dissipates outside, and it counts 12 mW (R166, R171). -/
def dpsBoosted (s : State) (n : RidgeId) : Bool := s.dps[n].out != .off && bits (s.dps[n].cfgNow).toNat 4 2 == 5

/-- DPS_POWER_WINDOW (R171, R172): the measured dissipation and current of each channel over 10 µs, and the cap at 12 W. -/
def dpsPowerWindowEffect (power current : List (BitVec 16)) (s : State) : State :=
  let s := each allRidges (fun s n => modDps s n fun x =>
    { x with power := if dpsBoosted s n then 12 else (power.getD n.val 0).toNat, current := (current.getD n.val 0).toInt }) s
  let p := dpsTotal s
  let q := 12 * (dpsOn s).length
  if p ≤ 12000 then s
  else
    let s := each (dpsOn s) (fun s n =>
      let lim := openDiv ((12000 - q) * s.dps[n].current.natAbs) (p - q)
      setBits (modDps s n fun x => { x with effLimit := some lim }) (dpsW n 13) 256) s
    raise s 0xD0 0

def execDpsPowerWindow (power current : List (BitVec 16)) (s : State) : Host.Outcome State Fault Refusal :=
  done s (dpsPowerWindowEffect power current s)

/-- DPS_CAP_RELEASE (R173): the current has stayed below 90 % of the effective limit for 100 µs. -/
def dpsCapReleaseEffect (n : RidgeId) (s : State) : State :=
  match s.dps[n].effLimit with
  | none => s
  | some e => if 10 * s.dps[n].current.natAbs < 9 * e then modDps s n fun x => { x with effLimit := none } else s

def execDpsCapRelease (n : RidgeId) (s : State) : Host.Outcome State Fault Refusal := done s (dpsCapReleaseEffect n s)

end Sys2Proof.Machine
end

