-- ==== Sys2Proof/Machine/Ports.lean ====
section
/-! DEFINITION. The analog ports (chapter 7): the sample grid, AWG playback, and acquisitions with their triggers, blocks
and packets. -/

namespace Sys2Proof.Machine

/-! ### The sample grid (R174) -/

/-- Deskew and CAL_RUN delay of a path in fine units. -/
def portShift (s : State) (n : RidgeId) (adc : Bool) : Int :=
  if adc then signed 12 (field s (aptW n 7) 27 16) + calDelay s 3 n.val 7
  else signed 12 (field s (aptW n 7) 11 0) + calDelay s 3 n.val 6

/-- First sample instant of a path at or after t. -/
def sampleAfter (s : State) (n : RidgeId) (adc : Bool) (t : T64) : T64 :=
  let d := BitVec.ofInt 64 (portShift s n adc)
  gridAfter 3 (t - d) + d

/-- Fine units of m sample periods. -/
def samplesFu (m : Nat) : T64 := BitVec.ofNat 64 (m * 3072)

/-! ### Levels (R176, R177) -/

/-- Voltage of an offset word and a sample, in units of R / 32,768 of range 2, 3.815 µV: 2.000 V is 2^19. -/
def outputCode (offset range : Nat) (smp : Int) : Int :=
  -- a level code is 122.0703125 µV, 32 of these units; −2.000 V is the code 0
  (32 * (offset : Int)) - 524288 + smp * (4 ^ (2 - range) : Nat)

/-- The output, held at its bound of −2.0 V or +4.0 V. -/
def outputHeld (v : Int) : Int := clampI (-524288) 1048576 v

/-- A sample whose level lies beyond a bound (R177). -/
def outputClips (v : Int) : Bool := outputHeld v != v

/-- The digitizer's 14-bit result, left-justified (R178). -/
def adcCode (x : BitVec 16) : BitVec 16 := x &&& 0xFFFC#16

/-! ### AWG (R180 to R188) -/

/-- The NCO's phase at a sample instant (R185). -/
def ncoPhase (s : State) (n : RidgeId) (t : T64) : Word :=
  let p := s.ports[n]
  let f : Word := BitVec.ofNat 32 (word s (aptW n 4))
  if later p.phaseAt t then p.phase else p.phase + f * BitVec.ofNat 32 ((t - p.phaseAt).toNat / 3072)

/-- Load the phase at the first sample instant from t on (R186). -/
def ncoReset (s : State) (n : RidgeId) (t : T64) : State :=
  modPort s n fun p => { p with phase := BitVec.ofNat 32 (word s (aptW n 5)), phaseAt := sampleAfter s n false t }

/-- Sample i of an analog image: eight 16-bit samples to a 128-bit word, the first lowest (R72). -/
def imageSample (i : Image) (k : Nat) : Int := signed 16 ((i.payload.getD (k / 8) 0).toNat / 2 ^ (16 * (k % 8)))

/-- The sample that the AWG plays at a sample instant; a stopped AWG outputs 0 (R184). -/
def awgSample (s : State) (n : RidgeId) (t : T64) : Int :=
  match s.ports[n].awg with
  | none => 0
  | some a =>
    if a.sine then sineSample (field s (aptW n 6) 14 0) (ncoPhase s n t).toNat
    else match getImg s a.cur with
      | some i => imageSample i ((t - a.segAt).toNat / 3072 % 8192)
      | none => 0

/-- What leaves a port apart from its lands: Bear's safe state, the time before the image is applied, and the causes of SAFE
(R179, R346, R371). -/
def portApart (s : State) (n : RidgeId) : Bool :=
  !booted s || bearSafe s || s.owl.shutdown || s.ridges[n].inReset || decide (n ∈ calRidges s)

/-- The output is connected to its land (R179). -/
def awgConnected (s : State) (n : RidgeId) : Bool := isSet s (aptW n 0) 5 && !portApart s n

/-- The level that the AWG puts out at a sample instant, before and after the bounds (R176, R177, R184). -/
def awgLevel (s : State) (n : RidgeId) (t : T64) : Int :=
  outputCode (field s (aptW n 2) 15 0) (field s (aptW n 0) 4 3) (awgSample s n t)
def awgOut (s : State) (n : RidgeId) (t : T64) : Int := outputHeld (awgLevel s n t)

/-- The level on the AWG's land; `none` while the series switch is open and 100 kΩ pull it to ground (R179). -/
def awgLand (s : State) (n : RidgeId) (t : T64) : Option Int := if awgConnected s n then some (awgOut s n t) else none

/-- The digitizer input of a port (R179, Table 7-8). -/
inductive AdcInput where
  | disconnected | megohm | fifty
  deriving DecidableEq, Repr

/-- The digitizer input as IN_EN and TERM set it; it is left at 1 MΩ in the SAFE condition (R179). -/
def adcInput (s : State) (n : RidgeId) : AdcInput :=
  if portApart s n then .megohm
  else if !isSet s (aptW n 8) 2 then .disconnected
  else if isSet s (aptW n 8) 3 then .fifty else .megohm

/-- Samples due at the output by now: of a segment, those of the present pass (R180). -/
def awgDue (s : State) (a : Awg) : Nat :=
  if later a.outAt s.now then 0
  else
    let k := (s.now - a.outAt).toNat / 3072 + 1
    if a.sine then k else min k ((a.segAt + samplesFu 8192 - a.outAt).toNat / 3072)

/-- A playing AWG puts out its samples up to now; one beyond a bound sets AWG_CLIP (R177). -/
def awgRun (s : State) (n : RidgeId) : State :=
  match s.ports[n].awg with
  | none => s
  | some a =>
    let k := awgDue s a
    let clips := (List.range k).any fun i => outputClips (awgLevel s n (a.outAt + samplesFu i))
    let s := modPort s n fun p => { p with awg := p.awg.map fun a => { a with outAt := a.outAt + samplesFu k } }
    if clips then setBits s (aptW n 14) 4 else s

/-- The AWG is playing (Table 7-9). -/
def awgPlays (p : Port) : Bool := p.awg.isSome

/-- The port plays, or is armed to play. -/
def awgOn (p : Port) : Bool := awgPlays p || p.awgAt.isSome

/-- The digitizer is armed or acquiring: its last sample is not yet taken (R195, R199, Table 7-9). -/
def acqOn (p : Port) : Bool := p.acq.any fun a => !a.ended

/-- The port plays or acquires (R307, R345, Table 7-6). -/
def portBusy (p : Port) : Bool := awgPlays p || acqOn p

/-- The port counts toward the admitted power (Table 1-7, R189): from the command that arms it, as an ARMED ridge does (R29).
DEDUCED, log entry 56. -/
def portActive (p : Port) : Bool := awgOn p || acqOn p

/-- Why playback cannot start (R181). -/
def awgRefusal (s : State) (n : RidgeId) : Option Nat :=
  if field s (aptW n 0) 1 0 ≠ 1 then none
  else match getImg s (BitVec.ofNat 20 (word s (aptW n 1))) with
    | none => some SEG_NOT_FOUND
    | some i => if i.relPending then some SEG_NOT_FOUND else if i.analog then none else some BAD_PARAM

/-- Arm playback for the first sample instant at or after t; with SOURCE = 0 nothing is played. -/
def armAwg (s : State) (n : RidgeId) (t : T64) (withRidge : Bool) : State :=
  if field s (aptW n 0) 1 0 = 0 then s
  else modPort s n fun p => { p with awgAt := some (sampleAfter s n false t), awgRidge := withRidge }

/-- Stop playback; its references end (R182, R184, R188). -/
def stopAwg (s : State) (n : RidgeId) : State :=
  sweep (modPort s n fun p => { p with awg := none, awgAt := none, awgRidge := false })

/-- At the end of its ridge's run, a port with START_WITH_RIDGE = 1 stops, whatever started it, and a start that waits in
APT_AWG_DELAY is given up (R188). -/
def stopWithRidge (s : State) (r : RidgeId) : State :=
  if isSet s (aptW r 0) 2 && (s.ports[r].awg.isSome || s.ports[r].awgRidge) then stopAwg s r else s

/-- AWG_START (R180, R185, R187): playback starts at its sample instant. -/
def awgStartEffect (n : RidgeId) (s : State) : State :=
  match s.ports[n].awgAt with
  | none => s
  | some t =>
    if !reached s.now t || bearSafe s || s.owl.shutdown then s
    else
      let k : Handle := BitVec.ofNat 20 (word s (aptW n 1))
      let sine := field s (aptW n 0) 1 0 == 2
      let a : Awg := { sine := sine, first := k, cur := k, played := 0, segAt := t, withRidge := s.ports[n].awgRidge,
                        refs := if sine then [] else [k], outAt := t }
      awgRun (renewRefs (modPort s n fun p =>
        { p with awg := some a, awgAt := none, phase := BitVec.ofNat 32 (word s (aptW n 5)), phaseAt := t }) n) n

def execAwgStart (n : RidgeId) (s : State) : Host.Outcome State Fault Refusal := done s (awgStartEffect n s)

/-- A contained fault at frame scope: HBM_UE on a read of the frame (R381, Table 16-3). Work on the frame's content ends by
`rollback`. -/
def frameFault (s : State) (frame : Nat) (rollback : State → State) : State :=
  contained s ⟨21, 0, .contained, 5, frame, none, false, false⟩ fun s => retireFrame (rollback s) frame

/-- The AWG's read of a successor image meets its SECDED check (R372, R381). -/
def awgRead (s : State) (h : Handle) (read : Secded) : State :=
  match read, getImg s h with
  | .corrected, some _ => corrected s 20 0 false
  | .failed, some j => frameFault s j.frame id
  | _, _ => s

/-- Playback moves on to the image that NEXT names, or breaks off (R183); a release-pending image is played where the port holds
its reference already (R80). -/
def awgMove (s : State) (n : RidgeId) (next : Handle) (at_ : T64) : State :=
  match s.ports[n].awg with
  | none => s
  | some a =>
    let ok := match getImg s next with
      | some j => j.analog && (takesRef s next || decide (next ∈ a.refs))
      | none => false
    if ok then sweep (renewRefs (modPort s n fun p => { p with awg := some { a with cur := next, played := 0, segAt := at_ } }) n)
    else raise (setBits (stopAwg s n) (aptW n 14) 16) (0xC0 + n.val) n.val

/-- AWG_SEGMENT_END (R180, R183): the 8,192 samples of a pass are played out; `read` is the outcome of the read of a successor. -/
def awgSegmentEndEffect (n : RidgeId) (read : Secded) (s : State) : State :=
  match s.ports[n].awg with
  | none => s
  | some a =>
    let next := a.segAt + samplesFu 8192
    if a.sine || !reached s.now next || bearSafe s || s.owl.shutdown then s
    else
      let s := awgRun s n
      match getImg s a.cur with
      | none => stopAwg s n
      | some i =>
        if a.played + 1 < i.span then
          awgRun (modPort s n fun p => { p with awg := p.awg.map fun a => { a with played := a.played + 1, segAt := next } }) n
        else if i.next = noHandle then stopAwg s n
        else awgRun (awgMove (awgRead s i.next read) n i.next next) n

def execAwgSegmentEnd (e : AwgEnd) (s : State) : Host.Outcome State Fault Refusal :=
  done s (awgSegmentEndEffect e.port e.read s)

/-! ### The budget (R27 to R30) -/

/-- Owl refuses launches and arms (Table 15-6). -/
def owlEnforces (s : State) : Bool := match s.owl.state with | .step1 | .step2 => true | _ => false

/-- Admitted power in mW (R27). -/
def admittedPower (s : State) : Nat :=
  allRidges.foldl (fun p r => p + 100 * s.ridges[r].estimate + if portActive s.ports[r] then 500 else 0) (30000 + dpsTotal s)

/-! ### ACQ_ARM (R189, R190) -/

structure AcqArgs where
  dig : Bool
  awg : Bool
  stream : Bool
  k : Nat
  pre : Nat
  post : Nat
  frames : Nat
  queue : Nat
  buf : BitVec 64
  nb : Nat
  deriving DecidableEq, Repr

def trigSource (s : State) (n : RidgeId) : Nat := field s (aptW n 10) 1 0

/-- The refusals of ACQ_ARM in the order of Table 7-2: status and bytes 4-7. While the admitted power stands above 85 W, one that
adds nothing, its port being active already, is refused too: Table 7-2 says "exceeded" where R28 says "would raise". DESIGN
CHOICE, log entry 57. -/
def acqRefusal (s : State) (n : RidgeId) (a : AcqArgs) : Option (Nat × Nat) :=
  let p := s.ports[n]
  let q := getQ s a.queue
  let fields := a.dig && (!inRange 4 4096 a.frames || decide (a.nb < 4) || a.buf.toNat % 16384 != 0 ||
    (a.stream && a.pre != 0) || (trigSource s n == 0 && a.pre != 0) ||
    (!a.stream && (!inRange 1 4096 a.k || a.post == 0)) || !q.enabled || decide (qLimit s q < 2))
  let more := if portActive p then 0 else 500
  if (a.dig && acqOn p) || (a.awg && awgPlays p) then some (BUSY, 0)
  else if (!a.dig && !a.awg) || fields then some (BAD_PARAM, 0)
  else match (if a.awg then awgRefusal s n else none) with
  | some st => some (st, field s (aptW n 1) 19 0)
  | none =>
    if a.dig && !a.stream && decide (a.frames < a.k * cdiv (a.pre + a.post) 8192) then some (CAPTURE_TOO_LONG, 0)
    else if a.dig && decide (freeFrames s < a.frames) then some (BUSY, 0)
    else if 85000 < admittedPower s + more then some (THROTTLED, 2)
    else if owlEnforces s then some (THROTTLED, 1)
    else if a.dig && ticketsOut s then some (TICKETS_EXHAUSTED, 0)
    else none

/-- An acquisition that has ended and still has blocks in its region goes on with its copies behind the one now armed. -/
def Port.retire (p : Port) (hostRd : Nat) : Port :=
  { p with tails := p.tails ++ (p.acq.map fun a => { a with rdAt := some hostRd }).toList, acq := none }

/-- Arm the digitizer: its region, its ticket and its trigger engine (R189, R191). -/
def armAcq (s : State) (h : Hdr) (n : RidgeId) (a : AcqArgs) (t : T64) : State :=
  let num := nextTicket s
  let (fs, s) := allocFrames a.frames (issue s h a.queue true (.acquire n))
  let x : Acq :=
    { ticket := num, queue := BitVec.ofNat 14 a.queue, stream := a.stream, k := a.k, pre := a.pre, post := a.post,
      frames := fs, buf := a.buf, nb := a.nb, startAt := sampleAfter s n true t, started := false, nextIndex := 0,
      decim := field s (aptW n 8) 8 5, decimChanged := false, blocks := [], copied := 0, nextBlock := 0, records := 0,
      triggers := 0, armed := true, firstOk := 0, holdFrom := none, holdEvents := 0,
      trigIndex := none, postLeft := none, eventAt := none, stopAt := none, ended := false, rdAt := none }
  putWord (modPort s n fun p => { p.retire (word s (aptW n 16)) with acq := some x, delivered := 0 }) (aptW n 16) 0

def acqArmEffect (h : Hdr) (a : AcqArgs) (s : State) : State :=
  let n := hdrRidge h
  command s h { row 0x2B 3 .named with timed := true } [.ridge n, .queue a.queue] fun s =>
    match acqRefusal s n a with
    | some (st, info) => refuse s h 0x2B st info
    | none =>
      let t := (startTime s h s.now).getD (s.now + ticksFu 30000)
      let num := nextTicket s
      let s := if a.dig then armAcq s h n a t else s
      let s := if a.awg then armAwg s n t false else s
      replyAccepted s h 0x2B (if a.dig then num.toNat else 0xFFFFFFFF) t

/-! ### Sampling and triggers (R190 to R194) -/

def modAcq (s : State) (n : RidgeId) (f : Acq → Acq) : State := modPort s n fun p => { p with acq := p.acq.map f }

/-- An input left the range (R178). -/
def leftRange (l : List (BitVec 16)) : Bool := l.any fun x => x.toInt == 32764 || x.toInt == -32768

def markRange (s : State) (n : RidgeId) (l : List (BitVec 16)) : State := if leftRange l then setBits s (aptW n 14) 8 else s

/-- Instant of the sample with a stream index. -/
def Acq.instant (a : Acq) (i : Nat) : T64 := a.startAt + samplesFu i

/-- ACQ_START (R190). -/
def acqStartEffect (n : RidgeId) (s : State) : State :=
  match s.ports[n].acq with
  | none => s
  | some a =>
    if a.started || a.ended || !reached s.now a.startAt || bearSafe s || s.owl.shutdown then s
    else modAcq s n fun a => { a with started := true }

/-- One tick of an acquisition in RING mode: a sample that no record will hold may have left the range, and sets ADC_OVR too
(R178). Whether it did is free (log entry 2): no row carries such a sample. -/
def adcTick (s : State) (n : RidgeId) : State :=
  match s.ports[n].acq with
  | none => s
  | some a =>
    let sampled := !later (sampleAfter s n true (s.now - 1023)) s.now
    if a.started && !a.ended && !a.stream && a.trigIndex.isNone && sampled && Config.inputLeaves n s.ticks then
      setBits s (aptW n 14) 8
    else s

def execAcqStart (n : RidgeId) (s : State) : Host.Outcome State Fault Refusal := done s (acqStartEffect n s)

/-- The hold-off that follows a trigger or a record, from stream index l (R194). -/
def Acq.hold (a : Acq) (events : Bool) (h l : Nat) : Acq :=
  { a with armed := false, holdFrom := some l, holdEvents := if events then h else 0,
           firstOk := l + 1 + (if events then 0 else h), eventAt := none }

def holdOff (s : State) (n : RidgeId) (l : Nat) (a : Acq) : Acq :=
  a.hold (isSet s (aptW n 10) 3) (word s (aptW n 12)) l

/-- A qualifying crossing or event that the engine passes over (R194). One that an event hold-off counts moves the first sample
that the engine examines behind it. DEDUCED, log entry 58. -/
def passOver (s : State) (n : RidgeId) (index : Nat) : State :=
  bump (modAcq s n fun a =>
    match a.holdFrom with
    | some l => if l < index ∧ a.holdEvents ≠ 0 then { a with holdEvents := a.holdEvents - 1, firstOk := index + 1 } else a
    | none => a) (aptW n 15) 1

/-- Stream index of the first sample at or after an instant. -/
def Acq.indexAt (a : Acq) (t : T64) : Nat := cdiv (t - a.startAt).toNat 3072

/-- An event of the named source reaches the port (R191): the engine takes it while it is armed. -/
def acqEvent (s : State) (n : RidgeId) : State :=
  match s.ports[n].acq with
  | none => s
  | some a =>
    if !a.started || (a.ended && a.stream) then s
    else if a.armed && !a.ended && a.eventAt.isNone then modAcq s n fun a => { a with eventAt := some s.now }
    else passOver s n (a.indexAt s.now)

/-- A sample lies in the hysteresis band's far side, where it arms the engine (R191). -/
def arms (falling : Bool) (level hyst x : Int) : Bool :=
  if falling then decide (level + hyst ≤ x) else decide (x ≤ level - hyst)

/-- A sample has reached LEVEL in the direction of SLOPE (R191). -/
def reaches (falling : Bool) (level x : Int) : Bool := if falling then decide (x ≤ level) else decide (level ≤ x)

/-- The pair s0, s1 crosses LEVEL in the direction of SLOPE (R191). -/
def crosses (falling : Bool) (level s0 s1 : Int) : Bool := !reaches falling level s0 && reaches falling level s1

/-- The sample at stream index `arm` armed the engine, and the sample at `index` is the first later one that reaches LEVEL
(R191, R194). -/
def triggers (falling : Bool) (level hyst s0 s1 x : Int) (firstOk arm index : Nat) : Bool :=
  decide (firstOk ≤ arm) && decide (arm < index) && arms falling level hyst x && reaches falling level s1 &&
    (if arm + 1 = index then decide (s0 = x) else !reaches falling level s0)

/-- q of R192; with s0 = s1 = LEVEL the quotient is 0 / 0, and q is free in its range (log entry 2). -/
def crossQ (free : Nat) (level s0 s1 : Int) : Nat :=
  let d := (s1 - s0).natAbs
  if d = 0 then (Config.flatCrossing free).val else (512 * (level - s0).natAbs + d) / (2 * d)

/-- Accept a trigger: its packet, its event, and what follows it in RING and STREAM mode (R191 to R196). -/
def acceptTrigger (s : State) (n : RidgeId) (a : Acq) (t : T64) (index : Nat) (interp : Bool) : State :=
  let rec_ := if a.stream then a.triggers else a.records
  let pkt : List (BitVec 96) :=
    [BitVec.ofNat 96 (t.toNat + rec_ % 2 ^ 32 * 2 ^ 64), BitVec.ofNat 96 (index % 2 ^ 32 + flag interp 32 + a.ticket.toNat * 2 ^ 33)]
  let s := submitPkt s a.queue.toNat ⟨5, pkt, some a.ticket, false, none⟩
  let s := raise s (0xB0 + n.val) rec_
  modAcq s n fun a =>
    if a.stream then
      let left := if a.post = 0 ∨ a.triggers ≠ 0 then a.postLeft else some ((index - a.nextIndex) / 2 ^ a.decim + a.post)
      let b := { a with triggers := a.triggers + 1, postLeft := left }
      if trigSource s n = 0 then { b with armed := false } else holdOff s n index b
    else { a with triggers := a.triggers + 1, armed := false, eventAt := none, trigIndex := some index }

/-- ANALOG_TRIGGER (R191 to R194): a qualifying pair of samples s0, s1 with the stream index of s1, and the sample x at index
`arm` that armed a LEVEL trigger. It is a trigger when the engine is armed for it, and is passed over otherwise. In STREAM mode s1
lies in a block that is not yet complete (R201). -/
def analogTriggerEffect (n : RidgeId) (s0 s1 : BitVec 16) (index arm : Nat) (x : BitVec 16) (s : State) : State :=
  match s.ports[n].acq with
  | none => s
  | some a =>
    if !a.started || (a.ended && a.stream) || !reached s.now (a.instant index) || bearSafe s || s.owl.shutdown ||
        (a.stream && decide (index < a.nextIndex)) then s
    else
      let y0 := (adcCode s0).toInt
      let y1 := (adcCode s1).toInt
      let level := signed 16 (field s (aptW n 11) 15 0)
      let hyst : Int := field s (aptW n 11) 30 16
      let falling := isSet s (aptW n 10) 2
      let open_ := a.armed && !a.ended && (match a.stopAt with | some z => decide (index < z) | none => true)
      let s := markRange s n [adcCode s0, adcCode s1]
      match trigSource s n with
      | 0 => if a.triggers = 0 ∧ index = 0 ∧ open_ then acceptTrigger s n a a.startAt 0 false else s
      | 1 =>
        if open_ && triggers falling level hyst y0 y1 (adcCode x).toInt a.firstOk arm index then
          let q := crossQ s.free level y0 y1
          acceptTrigger (tickFree s) n a (a.instant (index - 1) + BitVec.ofNat 64 (12 * q)) index true
        else if crosses falling level y0 y1 then passOver s n index else s
      | _ =>
        if open_ && decide (a.firstOk ≤ index) && decide (a.eventAt.map a.indexAt = some index) then
          acceptTrigger s n a (a.instant index) index false
        else s

def execAnalogTrigger (n : RidgeId) (s0 s1 : BitVec 16) (place : TrigPlace) (s : State) : Host.Outcome State Fault Refusal :=
  done s (analogTriggerEffect n s0 s1 place.index place.arm place.x s)

/-- TRIGGER_HOLDOFF_END (R194): the engine may arm again. -/
def triggerHoldoffEndEffect (n : RidgeId) (s : State) : State :=
  match s.ports[n].acq with
  | none => s
  | some a =>
    match a.holdFrom with
    | none => s
    | some l =>
      let over_ := if isSet s (aptW n 10) 3 then a.holdEvents == 0 else reached s.now (a.instant (l + 1 + word s (aptW n 12)))
      if over_ && !bearSafe s && !s.owl.shutdown then modAcq s n fun a => { a with armed := true, holdFrom := none } else s

def execTriggerHoldoffEnd (n : RidgeId) (s : State) : Host.Outcome State Fault Refusal := done s (triggerHoldoffEndEffect n s)

/-! ### Blocks (R193, R195 to R200) -/

/-- Output samples: the mean of 2^k consecutive samples (R197). -/
def decimate (k : Nat) : Nat → List (BitVec 16) → List (BitVec 16)
  | 0, _ => []
  | m + 1, l => BitVec.ofInt 16 (roundDiv ((l.take (2 ^ k)).foldl (fun x y => x + y.toInt) 0) (2 ^ k)) :: decimate k m (l.drop (2 ^ k))

def outputs (k : Nat) (l : List (BitVec 16)) : List (BitVec 16) := decimate k (l.length / 2 ^ k) l

/-- Cut the output samples of a record into blocks (R195). -/
def recordBlocks (a : Acq) (first : Nat) (shortPre last : Bool) (raw : List (BitVec 16)) : Nat → Nat → List (BitVec 16) → List AcqBlock
  | 0, _, _ => []
  | m + 1, j, l =>
    if l = [] then []
    else
      let b : AcqBlock :=
        { samples := l.take 8192, number := a.nextBlock + j, time := a.instant (first + j * 8192 * 2 ^ a.decim), decim := a.decim,
          last := last && decide (l.length ≤ 8192), overflow := false, decimChanged := false,
          overrange := leftRange ((raw.drop (j * 8192 * 2 ^ a.decim)).take (8192 * 2 ^ a.decim)),
          shortPre := shortPre && j == 0, recordStart := j == 0, record := a.records }
      b :: recordBlocks a first shortPre last raw m (j + 1) (l.drop 8192)

/-- An acquisition that ends with no sample for a last block: LAST goes on the newest block not yet copied; with none the
ticket ends with a status that no rule gives (log entry 2). -/
def finishEmpty (s : State) (n : RidgeId) (a : Acq) : State :=
  match (a.blocks.drop a.copied).getLast? with
  | some b => modAcq s n fun a => { a with ended := true, blocks := a.blocks.dropLast ++ [({ b with last := true } : AcqBlock)] }
  | none => replaceJobs (endTicket (tickFree s) a.ticket (Config.emptyEnd s.free).toNat)

/-- RECORD_COMPLETE (R193, R195): the samples of the record, undecimated; a record cut short by STOP_ACQ holds what there
is. -/
def recordCompleteEffect (n : RidgeId) (samples : List (BitVec 16)) (s : State) : State :=
  let raw := samples.map adcCode
  match s.ports[n].acq with
  | none => s
  | some a =>
    match a.trigIndex with
    | none => s
    | some i =>
      let d := 2 ^ a.decim
      let g := i / d
      let pre := min a.pre g
      let first := (g - pre) * d
      let full := (g + a.post) * d
      let stop := match a.stopAt with | some x => min x full | none => full
      if a.stream || a.ended || raw.length ≠ stop - first || !reached s.now (a.instant (stop - 1)) || bearSafe s || s.owl.shutdown then s
      else
        let out := outputs a.decim raw
        let last := decide (a.k ≤ a.records + 1) || a.stopAt.isSome
        let bs := recordBlocks a first (decide (pre < a.pre)) last raw (cdiv out.length 8192) 0 out
        let s := markRange s n raw
        let s := modAcq s n fun a =>
          let b := { a with blocks := a.blocks ++ bs, nextBlock := a.nextBlock + bs.length, records := a.records + 1,
                            trigIndex := none, ended := last }
          if last then b else if trigSource s n = 0 then b else holdOff s n (full - 1) b
        if last ∧ bs = [] then finishEmpty s n { a with trigIndex := none } else s

def execRecordComplete (n : RidgeId) (raw : List (BitVec 16)) (s : State) : Host.Outcome State Fault Refusal :=
  done s (recordCompleteEffect n raw s)

/-- Blocks written and not yet copied to the host (R196). -/
def Acq.fill (a : Acq) : Nat := a.blocks.length - a.copied

/-- A STREAM block of the given undecimated samples; `ends` when the acquisition ends with it (R196 to R199). A block cut short ends
the acquisition before the next block, and so its overflow, is due (R199). -/
def streamBlock (s : State) (n : RidgeId) (a : Acq) (raw : List (BitVec 16)) (ends : Bool) : State :=
  let out := outputs a.decim raw
  let overflow := decide (a.frames.length ≤ a.blocks.length + 1) && decide (8192 ≤ out.length)
  let last := ends || overflow
  let b : AcqBlock :=
    { samples := out, number := a.nextBlock, time := a.instant a.nextIndex, decim := a.decim, last := last, overflow := overflow,
      decimChanged := a.decimChanged, overrange := leftRange raw, shortPre := false, recordStart := false, record := 0 }
  let up := isSet s (aptW n 8) 4 && !last && decide (3 * a.frames.length ≤ 4 * (a.fill + 1)) && decide (a.decim < 8)
  let s := markRange s n raw
  let s := if overflow then setBits s (aptW n 14) 32 else s
  let s := if up then setBits s (aptW n 14) 64 else s
  modAcq s n fun a =>
    { a with blocks := a.blocks ++ [b], nextBlock := a.nextBlock + 1, nextIndex := a.nextIndex + raw.length,
             decim := if up then a.decim + 1 else a.decim, decimChanged := up,
             postLeft := a.postLeft.map fun p => p - out.length, ended := last }

/-- ACQ_POST_END (R196): POST output samples after the first trigger sample have been taken. -/
def acqPostEndEffect (n : RidgeId) (samples : List (BitVec 16)) (s : State) : State :=
  let raw := samples.map adcCode
  match s.ports[n].acq with
  | none => s
  | some a =>
    match a.postLeft with
    | none => s
    | some p =>
      let len := p * 2 ^ a.decim
      let stopped := match a.stopAt with | some x => decide (x < a.nextIndex + len) | none => false
      if !a.stream || !a.started || a.ended || decide (8192 < p) || stopped || raw.length ≠ len ||
          !reached s.now (a.instant (a.nextIndex + len - 1)) || bearSafe s || s.owl.shutdown then s
      else streamBlock s n a raw true

def execAcqPostEnd (n : RidgeId) (raw : List (BitVec 16)) (s : State) : Host.Outcome State Fault Refusal :=
  done s (acqPostEndEffect n raw s)

/-- ANALOG_BLOCK_COMPLETE (R196, R198, R199): a block of a STREAM, whole or cut short by STOP_ACQ. -/
def analogBlockCompleteEffect (n : RidgeId) (samples : List (BitVec 16)) (s : State) : State :=
  let raw := samples.map adcCode
  match s.ports[n].acq with
  | none => s
  | some a =>
    let full := 8192 * 2 ^ a.decim
    let len := match a.stopAt with | some x => min full (x - a.nextIndex) | none => full
    let ends := decide (a.stopAt = some (a.nextIndex + len))
    let post := match a.postLeft with | some p => decide (p ≤ 8192 ∧ p * 2 ^ a.decim ≤ len) | none => false
    if !a.stream || !a.started || a.ended || post || raw.length ≠ len || !reached s.now (a.instant (a.nextIndex + len - 1)) ||
        bearSafe s || s.owl.shutdown then s
    else if outputs a.decim raw = [] then finishEmpty s n a
    else streamBlock s n a raw ends

def execAnalogBlockComplete (n : RidgeId) (raw : List (BitVec 16)) (s : State) : Host.Outcome State Fault Refusal :=
  done s (analogBlockCompleteEffect n raw s)

/-- Stop an acquisition at the present sample (R195, R199). -/
def stopAcq (s : State) (n : RidgeId) : State :=
  match s.ports[n].acq with
  | none => s
  | some a =>
    if a.ended || a.stopAt.isSome then s
    else if !a.started then finishEmpty s n a
    else
      let x := (s.now - a.startAt).toNat / 3072 + 1
      if a.stream then
        (if x ≤ a.nextIndex then finishEmpty s n a else modAcq s n fun a => { a with stopAt := some x })
      else match a.trigIndex with
        | none => finishEmpty s n a
        | some _ => modAcq s n fun a => { a with stopAt := some x }

/-- The block packet of Table 7-3. -/
def blockPacket (s : State) (a : Acq) (b : AcqBlock) : List (BitVec 96) :=
  let finish := b.time + samplesFu ((b.samples.length - 1) * 2 ^ b.decim)
  [BitVec.ofNat 96 (b.time.toNat + b.number % 2 ^ 32 * 2 ^ 64),
   BitVec.ofNat 96 ((b.samples.length - 1) % 2 ^ 14 + b.decim * 2 ^ 14 + flag b.last 18 + flag b.overflow 19 +
     flag b.decimChanged 20 + flag b.overrange 21 + flag b.shortPre 22 + flag (suspect s b.time finish) 23 +
     flag b.recordStart 24 + a.ticket.toNat * 2 ^ 32 + b.record % 2 ^ 32 * 2 ^ 64)]

/-- Frame scope on a region (R381): the frame is retired and the ticket ends. -/
def regionFault (s : State) (frame : Nat) (num : BitVec 17) : State :=
  frameFault s frame fun s => endTickets s (fun t => decide (t.num = num)) ABORTED_FAULT

end Sys2Proof.Machine
end

