-- ==== Sys2Proof/Machine/Copies.lean ====
section
/-! DEFINITION. The copy of capture blocks to the host buffer, and the host's read counts (R200, R210). -/

namespace Sys2Proof.Machine

/-! ### Blocks and their packets (R201, R245)

A block is copied, and its packet is produced. While the packet waits for queue storage the block stays in its region; it leaves with
the packet's admission. -/

/-- A capture block leaves the region of the stream with a ticket: held special records find room, and a stream ends with its LAST
block (R207, R209). -/
def popBlock (s : State) (r : RidgeId) (num : BitVec 17) : State :=
  let leave := fun (x : Stream) =>
    if x.ticket = num then (Stream.unhold s.ticks x.held { x with closed := x.closed.tail, copied := x.copied - 1 }).seal s.ticks else x
  let y := s.ridges[r]
  let gone := y.tails.filter fun x => decide (x.ticket = num) && x.closed.any (·.last) && decide (x.closed.length = 1)
  modR (freeFramesOf s (gone.flatMap (·.frames))) r fun y =>
    { y with stream := y.stream.map leave, tails := (y.tails.filter fun x => !decide (x ∈ gone)).map leave }

/-- An analog block leaves the region; the acquisition ends with its LAST block, and its frames are free (R195, R198). -/
def popAnalog (s : State) (n : RidgeId) (num : BitVec 17) : State :=
  let leave := fun (a : Acq) => if a.ticket = num then { a with blocks := a.blocks.tail, copied := a.copied - 1 } else a
  let over_ := fun (a : Acq) => decide (a.ticket = num) && (match a.blocks with | [b] => b.last | _ => false)
  let p := s.ports[n]
  let gone := (p.tails ++ p.acq.toList).filter over_
  modPort (freeFramesOf s (gone.flatMap (·.frames))) n fun p =>
    { p with acq := (p.acq.filter fun a => !over_ a).map leave, tails := (p.tails.filter fun a => !over_ a).map leave }

/-- The port of an acquisition's ticket. -/
def acqPort (s : State) (num : BitVec 17) : Option RidgeId :=
  allRidges.find? fun n => (s.ports[n].tails ++ s.ports[n].acq.toList).any fun a => decide (a.ticket = num)

/-- The block of an admitted packet leaves its region. -/
def leaveRegion (s : State) (w : WaitPkt) : State :=
  match w.typ.toNat, w.ticket, w.ridge with
  | 3, some num, some r => popBlock s r num
  | 4, some num, _ => match acqPort s num with | some n => popAnalog s n num | none => s
  | _, _, _ => s

/-- A packet that storage admits is committed; what that frees serves the jobs that wait (R233, R259). -/
def admitPkt (s : State) (id : Nat) (w : WaitPkt) : State :=
  replaceJobs (packetCommitted (commitPkt (leaveRegion s w) id w.typ w.payload) w)

/-- Produce the packet of a copied block. -/
def submitBlock (s : State) (id : Nat) (w : WaitPkt) : State :=
  if (getQ s id).waiting = [] ∧ admits s id w.payload.length then admitPkt s id w else submitPkt s id w

/-- PACKET_ADMISSION (R245, R259): the queue's oldest waiting packet is admitted once storage is free. -/
def packetAdmissionEffect (id : BitVec 14) (s : State) : State :=
  match (getQ s id.toNat).waiting with
  | [] => s
  | w :: ws =>
    if admits s id.toNat w.payload.length && !bearSafe s && !s.owl.shutdown then
      admitPkt (modQ s id.toNat fun q => { q with waiting := ws }) id.toNat w
    else s

def execPacketAdmission (id : BitVec 14) (s : State) : Host.Outcome State Fault Refusal :=
  done s (packetAdmissionEffect id s)

/-! ### Copies (R200, R210) -/

/-- The acquisition whose block is copied next: one that has ended, else the one in progress. -/
def nextAcq (p : Port) : Option Acq := (p.tails ++ p.acq.toList).find? fun a => decide (a.copied < a.blocks.length)

/-- The stream whose block is copied next: one whose window is over, else the armed one. -/
def nextStream (x : Ridge) : Option Stream := (x.tails ++ x.stream.toList).find? fun y => decide (y.copied < y.closed.length)

/-- A read of a region's frame with its SECDED outcome: none of its data is lost, or the frame is retired (R372, R381). -/
def regionRead (s : State) (read : Secded) (frame : Nat) (num : BitVec 17) (go : State → State) : State :=
  match read with
  | .clean => go s
  | .corrected => go (corrected s 20 0 false)
  | .failed => regionFault s frame num

/-- ANALOG_BLOCK_COPY (R200, R201): DMA copies the oldest block not yet copied, and its packet is produced. -/
def analogBlockCopyEffect (n : RidgeId) (read : Secded) (s : State) : State :=
  match nextAcq s.ports[n] with
  | none => s
  | some a =>
    match a.blocks.drop a.copied with
    | [] => s
    | b :: _ =>
      if !dmaRoute s || !hostRoom b.number (a.rdAt.getD (word s (aptW n 16))) a.nb then s
      else regionRead s read (a.frames.getD (b.number % max 1 a.frames.length) 0) a.ticket fun s =>
        let s := dmaWrite s (a.buf.toNat + b.number % a.nb * 16384) (b.samples.flatMap fun x => leBytes 2 x.toNat)
        let mark := fun (x : Acq) => if x.ticket = a.ticket then { x with copied := x.copied + 1 } else x
        let s := modPort s n fun p => { p with delivered := p.delivered + (if a.rdAt.isNone then 1 else 0),
                                               acq := p.acq.map mark, tails := p.tails.map mark }
        submitBlock s a.queue.toNat ⟨4, blockPacket s a b, some a.ticket, b.last, none⟩

/-- CAPTURE_BLOCK_COPY (R200, R210, R211): DMA copies the oldest block not yet copied, and its packet is produced. An EMPTY block has
no data to copy. -/
def captureBlockCopyEffect (r : RidgeId) (read : Secded) (s : State) : State :=
  match nextStream s.ridges[r] with
  | none => s
  | some x =>
    match x.closed.drop x.copied with
    | [] => s
    | b :: _ =>
      let empty := b.records == []
      if !dmaRoute s || (!empty && !hostRoom b.number (x.rdAt.getD (word s (rdgW r 0x20))) x.nb) then s
      else regionRead s (if empty then .clean else read) (x.frames.getD (b.number % max 1 x.frames.length) 0) x.ticket fun s =>
        let s := dmaWrite s (x.buf.toNat + b.number % max 1 x.nb * 16384) (b.records.flatMap fun w => leBytes 8 w.toNat)
        let mark := fun (y : Stream) => if y.ticket = x.ticket then { y with copied := y.copied + 1 } else y
        let s := modR s r fun y => { y with delivered := y.delivered + (if x.rdAt.isNone then 1 else 0),
                                            stream := y.stream.map mark, tails := y.tails.map mark }
        submitBlock s x.queue.toNat ⟨3, capturePacket s r b x.ticket.toNat, some x.ticket, b.last, some r⟩

/-- APT_HOST_RD and RDG_CAP_HOST_RD move forward only, and not past the blocks delivered (R200). -/
def hostRdOk (old new delivered : Nat) : Bool := decide (old ≤ new) && decide (new ≤ delivered)

end Sys2Proof.Machine
end

