-- ==== Sys2Proof/Machine/Run.lean ====
section
/-! DEFINITION. The end of runs, aborts and the rollback scopes, segment boundaries, underrun hold, and the safe state
(chapters 2, 3, 16). -/

namespace Sys2Proof.Machine

/-! ### Clock and estimates (R29, R99, R103) -/

/-- d, RDG_PERIOD_DIV.DIV. -/
def divider (s : State) (r : RidgeId) : Nat := field s (rdgW r 0x18) 10 0

/-- D = d · k with Owl's exponent. -/
def dividerD (s : State) (r : RidgeId) (k : Nat) : Nat := divider s r * 2 ^ k

/-- Table 1-7 in tenths of a watt. -/
def estimateOf (d : Nat) : Nat := if d ≤ 1 then 24 else if d ≤ 3 then 14 else 9

/-- The largest factor requested for a ridge of the gang (R64). -/
def gangOwl (s : State) (g : List RidgeId) : Nat := g.foldl (fun k r => max k s.ridges[r].owlNext) 0

/-! ### Timing swap (R112 to R116) -/

/-- The banks exchange roles, and the copy to the new shadow bank starts (R114, R116). A swap during a copy exchanges the banks as
they stand: what the copy had not reached of the old bank is then active with its old sets. DESIGN CHOICE, log entry 53. -/
def applySwap (s : State) (r : RidgeId) (t : T64) : State :=
  let s := modR s r fun x => { x with activeBank := !x.activeBank, swapPending := false, copyBusy := true }
  let s := setBits s (rdgW r 0x19) 8
  let s := putWord (putWord s (rdgW r 0x1A) (t.toNat % 2 ^ 32)) (rdgW r 0x1B) (t.toNat / 2 ^ 32)
  raise s (0x30 + r.val) 0

/-- A pending swap of a ridge whose run ends at t takes effect there (R116). -/
def idleSwap (s : State) (r : RidgeId) (t : T64) : State := if s.ridges[r].swapPending then applySwap s r t else s

/-! ### The end of a run (R41, R56, R59, R85, R188, R208) -/

def outcomeByte : RunOutcome → Nat
  | .completed => 0 | .invalid => 1 | .gapped => 2 | .aborted => 3

/-- A ridge whose run has ended. -/
def Ridge.ended_ (x : Ridge) (t : T64) : Ridge :=
  { x.clearBinding with st := .bound, estimate := 0, initHeld := false, arrival := none, resume := false, ended := some t,
                        halts := x.halts.filter fun h => later h.at_ t,
                        pc := ⟨x.first, 0⟩ }

/-- The run of a ridge ends; t is the start of the vector after the last one executed. -/
def endRun (s : State) (r : RidgeId) (t : T64) : State :=
  let s := writeSpecial s r t [specialRec 1 t.toNat] true
  let s := raise s (0x10 + r.val) (outcomeByte s.ridges[r].outcome)
  let s := idleSwap (modR s r fun x => x.ended_ t) r t
  restage (stopWithRidge s r) [r]

/-- A launch cancelled in ARMED (R59); the playback it armed is cancelled with it. A resume that is cancelled takes the ridge to
BOUND as the rule's words say of ARMED, and the parked run is over without a RUN_END of its own. DESIGN CHOICE, log entry 54. -/
def cancelLaunch (s : State) (r : RidgeId) : State :=
  let s := modR s r fun x => { x with st := .bound, estimate := 0, resume := false, park := false, halts := x.halts.filter fun h => later h.at_ s.now }
  let s := modPort s r fun p => if p.awgRidge ∧ p.awg.isNone then { p with awgAt := none, awgRidge := false } else p
  restage s [r]

/-- Take a ridge to BOUND whatever it does. -/
def stopRidge (s : State) (r : RidgeId) : State :=
  match s.ridges[r].st with
  | .unbound | .bound => s
  | .armed => cancelLaunch s r
  | .running | .hold | .parked => endRun s r s.ridges[r].start

/-! ### Rollback scopes (R379, R380) -/

/-- Roll back every queue whose ridge field names one of some ridges (R250). -/
def rollbackQueues (s : State) (rs : List RidgeId) (status : Nat) : State :=
  let ids := (s.queues.map (·.1)).filter fun id => rs.any fun r => decide (id / 1024 = r.val)
  each ids (fun s id => rollbackQueue s id status) s

/-- End the tickets on some ridges and roll their queues back (R379). -/
def rollbackRidges (s : State) (rs : List RidgeId) (status : Nat) : State :=
  rollbackQueues (endTickets s (ticketOn rs) status) rs status

/-- Ridge scope (R379): the whole gang of a ridge is aborted. -/
def abortGang (r : RidgeId) (s : State) : State :=
  let g := gang s r
  let s := each g (fun s r => match s.ridges[r].st with
    | .unbound | .bound => s
    | _ => stopRidge (modR s r fun x => { x with outcome := .aborted, siteLogs := x.siteLogs.map fun l => { l with aborted := true } }) r) s
  let s := rollbackRidges s g ABORTED_FAULT
  let s := each g (fun s n => if dpsOpt s n 8 then dpsFault s n else s) s
  serveWaits (each g stopAwg s)

/-- A contained fault at ridge scope of source RIDGE r (Table 16-3). -/
def ridgeFault (s : State) (r : RidgeId) (det : Nat) (detail : Option Nat) (injected : Bool) : State :=
  contained s ⟨Fin.castLE (by decide) r, det, .contained, 4, r.val, detail, injected, false⟩ (abortGang r)

/-- The ticket belongs to a site: armed BY_SITE on it, or measuring on its pins (R380). -/
def ticketOfSite (s : State) (k : Fin 64) (t : Ticket) : Bool :=
  match t.job with
  | .capture rs _ => rs.any fun r => (s.ridges[r].stream.toList ++ s.ridges[r].tails).any fun x =>
      decide (x.ticket = t.num ∧ x.bySite = some k)
  | .measure j => match selPin j.sel.toNat with | some p => s.sites[k].getLsbD p.val | none => false
  | .timu j => s.sites[k].getLsbD j.pinA.val || (match j.pinB with | some b => s.sites[k].getLsbD b.val | none => false)
  | .acquire _ => false

/-- Site scope (R380): the ridge runs on with the site's compares masked. -/
def abortSite (k : Fin 64) (s : State) : State :=
  let s := each (maskRidges s.sites[k]) (fun s r => modR s r fun x =>
    { x with siteLogs := x.siteLogs.map fun l => if l.site = k then { l with aborted := true } else l }) s
  endTickets s (ticketOfSite s k) ABORTED_FAULT

/-! ### Segment boundaries (R39, R40, R54, R63, R64, R81, R87, R90) -/

/-- Ridges of the gang that run. -/
def running (s : State) (r : RidgeId) : List RidgeId := (gang s r).filter fun q => decide (s.ridges[q].st = .running)

/-- Every running ridge of the gang waits at the boundary. -/
def allAtBoundary (s : State) (r : RidgeId) : Bool := (running s r).all fun q => s.ridges[q].atBoundary

/-- A swap or a factor of Owl's waits to take effect at the boundary that the gang has reached (R54, R64, R113). -/
def boundaryPending (s : State) (g : List RidgeId) : Bool :=
  g.any fun q => s.ridges[q].swapPending || decide (s.ridges[q].owlK ≠ gangOwl s g)

/-- The held bodies once the ridge enters a segment: those that contain it, else the first of those staged from the window it
leaves that contains it, else one that starts there (R87). -/
def enterBodies (s : State) (r : RidgeId) (h : Handle) : List (Handle × Nat) :=
  let x := s.ridges[r]
  let keep := x.bodies.filter fun b => decide (h ∈ bodySegs s b)
  let staged := ((chain s 9 x.lastSeg ++ [h]).filter fun k => spanOf s r k != 0).map fun k => (k, spanOf s r k)
  if keep ≠ [] then keep else (staged.find? fun b => decide (h ∈ bodySegs s b)).toList

/-- The ridges go on from the boundary, unless a swap or a factor has to be applied first. -/
def releaseBoundary (s : State) (g : List RidgeId) : State :=
  let wait := boundaryPending s g
  each g (fun s q => modR s q fun x => { x with atBoundary := false, applyWait := wait }) s

/-- Enter HOLD at a boundary: its count, its event and GAP_START; policy 0 ends the run of the whole gang as INVALID
(R95, R97, R214). -/
def enterHold (s : State) (g : List RidgeId) : State :=
  let s := each g (fun s q =>
    let s := bump (raise s (0x20 + q.val) 0) (rdgW q 2) 1
    let t := s.ridges[q].start
    let s := writeSpecial s q t [specialRec 3 t.toNat] false
    modR s q fun x => { x with st := .hold, holdSince := s.ticks, atBoundary := false, arrival := none }) s
  if g.all fun q => isSet s (rdgW q 0) 0 then
    each g (fun s q => modR s q fun x => { x with outcome := .gapped }) s
  else
    serveWaits (each g (fun s q => endRun (modR s q fun x => { x with outcome := .invalid }) q s.ridges[q].start) s)

/-- The first ridge whose next segment is missing or analog (R40, R81). -/
def badLanding (s : State) (g : List RidgeId) : Option RidgeId := g.find? fun q => !landable s q s.ridges[q].pc.seg

/-- The gang crosses the boundary: the CRC comparison, the check of the landing, the residency check, and the offer of lent
slots (R243). -/
def crossBoundary (s : State) (r : RidgeId) : State :=
  let g := running s r
  if g.any fun q => decide (s.ridges[q].crc ≠ s.ridges[r].crc) then each g (fun s q => ridgeFault s q 4 none false) s
  else match badLanding s g with
  | some q => ridgeFault s q 3 (some s.ridges[q].pc.seg.toNat) false
  | none =>
    let s := each g (fun s q => modR s q fun x => { x with bodies := enterBodies s q x.pc.seg }) s
    let s := lendSlots (restage s g)
    if g.all fun q => decide (s.ridges[q].pc.seg ∈ s.ridges[q].resident) then releaseBoundary s g else enterHold s g

/-- The vector that the ridge executes has completed: the start of the next has come. -/
def vecOver (s : State) (r : RidgeId) : Bool := reached s.now s.ridges[r].start

/-- The gang crosses a segment boundary once the last vector before it has completed on every running ridge. -/
def crossIfDue (s : State) (r : RidgeId) : State :=
  if allAtBoundary s r && (running s r).all (vecOver s) then crossBoundary s r else s

/-- A ridge comes to a segment boundary with its pc at the next vector. -/
def reachBoundary (s : State) (r : RidgeId) : State := crossIfDue (modR s r fun x => { x with atBoundary := true }) r

/-- A landing in a segment that is not resident, not in the window and not declared (R90). -/
def undeclared (s : State) (r : RidgeId) (a : Addr) : Bool :=
  let x := s.ridges[r]
  (getImg s a.seg).isSome && !inSlot s r a.seg && !decide (a.seg ∈ chain s 9 x.pc.seg ++ x.targets) &&
    (match x.arm with | some m => decide (m.target.seg ≠ a.seg) | none => true)

/-- The next vector is at a; another segment makes the boundary a segment boundary (R54). -/
def goTo (s : State) (r : RidgeId) (a : Addr) (declared : Bool) : State :=
  let here := s.ridges[r].pc.seg
  let s := if a.seg ≠ here ∧ !declared ∧ undeclared s r a then setBits s (rdgW r 0x12) 1 else s
  let s := modR s r fun x => { x with pc := a, lastSeg := here, rep := 0, repFails := [] }
  if a.seg = here then s else reachBoundary s r

/-! ### Fatal faults (R384 to R386) -/

/-- The quiet period starts once no fatal source is asserted and every supply monitor is released (R386). -/
def startQuiet (s : State) : State :=
  if s.bear.state = .safe ∧ s.bear.quietAt = none ∧ s.bear.asserted = 0 ∧ s.smons.all (·.released) then
    { s with bear := { s.bear with quietAt := some s.ticks } }
  else s

/-- Enter the safe state (R384, R385): ridges still running are aborted, every DPS goes to its fault value, AWGs and
digitizers stop. -/
def enterSafe (s : State) : State :=
  let live := allRidges.filter fun r => match s.ridges[r].st with | .running | .hold => true | _ => false
  let s := each live (fun s r => abortGang r s) s
  let s := { s with bear := { s.bear with state := .safe, quietAt := none } }
  let s := each allRidges dpsFault s
  let s := each allRidges stopAwg s
  let s := each allRidges (fun s n => modAcq s n fun a => { a with ended := true }) s
  startQuiet s

/-- A fatal fault (R384, R386). `level` marks a source that stays asserted until it is seen to deassert. -/
def fatal (s : State) (bit : Fin 64) (det : Nat) (level injected : Bool) : State :=
  let s := if level then { s with bear := { s.bear with asserted := s.bear.asserted ||| BitVec.ofNat 64 (2 ^ bit.val) } } else s
  let s := logFault s ⟨bit, det, .fatal, 0, 0, none, injected, false⟩ 0 0
  let s := if bit = 22 then { s with bear := { s.bear with phyFault := true } } else s
  match s.bear.state with
  | .normal | .parking | .recovering => enterSafe s
  | .safe => startQuiet { s with bear := { s.bear with quietAt := none } }
  | .faulted => s

/-- Every ridge has parked or stopped (R384). -/
def allStopped (s : State) : Bool := allRidges.all fun r => match s.ridges[r].st with | .running | .hold => false | _ => true

/-- In PARKING, the safe state is entered when every ridge has parked or stopped (R384). -/
def parkCheck (s : State) : State := if s.bear.state = .parking ∧ allStopped s then enterSafe s else s

/-- A deferrable fatal fault (R384): park requests, and a wait of GLB_FAULT_PARK µs. -/
def fatalDeferred (s : State) (bit : Fin 64) (det : Nat) (injected : Bool) : State :=
  match s.bear.state with
  | .normal =>
    let s := logFault s ⟨bit, det, .fatal, 0, 0, none, injected, true⟩ 0 0
    let s := if bit = 27 then { s with bear := { s.bear with cstoreFault := true } } else s
    let s := each allRidges (fun s r => modR s r fun x => if x.st = .running then { x with park := true } else x) s
    let s := { s with bear := { s.bear with state := .parking, parkAt := s.ticks } }
    if field s gFAULTPARK 15 0 = 0 then enterSafe s else parkCheck s
  | .parking => logFault s ⟨bit, det, .fatal, 0, 0, none, injected, true⟩ 0 0
  | _ => fatal s bit det false injected

/-- PARK_WAIT_EXPIRY (R384). -/
def parkWaitExpiryEffect (s : State) : State :=
  if s.bear.state = .parking ∧ usTicks (field s gFAULTPARK 15 0) ≤ s.ticks - s.bear.parkAt then enterSafe s else s

def execParkWaitExpiry (s : State) : Host.Outcome State Fault Refusal := done s (parkWaitExpiryEffect s)

end Sys2Proof.Machine
end

