-- ==== Sys2Proof/Machine/Seq.lean ====
section
/-! DEFINITION. The sequencer's vectors (chapters 2 and 4): the vector word, edges and compares, the opcodes, and MATCH. -/

namespace Sys2Proof.Machine

/-! ### The vector word (Table 2-1) -/

structure Vec where
  word : Nat
  deriving DecidableEq, Repr

def Vec.tset (v : Vec) : Fin 32 := Fin.ofNat 32 (bits v.word 68 64)
def Vec.opcode (v : Vec) : Nat := bits v.word 76 69
def Vec.operand (v : Vec) : Nat := bits v.word 108 77
def Vec.mask (v : Vec) : Bool := bit v.word 109
def Vec.mark (v : Vec) : Bool := bit v.word 110
def Vec.adv (v : Vec) : Bool := bit v.word 111
/-- Event code of a lane. -/
def Vec.code (v : Vec) (l : Fin 16) : Nat := bits v.word (4 * l.val + 3) (4 * l.val)
/-- Jump target in the operand (R38). -/
def Vec.target (v : Vec) : Addr := ⟨BitVec.ofNat 20 (v.operand / 1024), BitVec.ofNat 10 v.operand⟩

/-- The vector at the ridge's pc. -/
def vecAt (s : State) (r : RidgeId) : Option Vec :=
  let x := s.ridges[r]
  (getImg s x.pc.seg).bind fun i => (i.payload[x.pc.vec.toNat]?).map fun w => ⟨w.toNat⟩

/-- Codes of Table 2-5. -/
def opcodeKnown (op : Nat) : Bool :=
  decide (op ≤ 0x0C) || op == 0x10 || op == 0x11 || op == 0x18 || op == 0x19 || op == 0x1F

/-! ### Timing (R99 to R108, R117) -/

/-- The active set that the vector names. -/
def bankIx (b : Bool) : Fin 2 := if b then 1 else 0
def activeSet (x : Ridge) (v : Vec) : TimingSet := x.banks[bankIx x.activeBank][v.tset]

/-- Period in fine units of a vector (R99). -/
def periodOf (s : State) (r : RidgeId) (v : Vec) : Nat :=
  let x := s.ridges[r]
  let t := activeSet x v
  dividerD s r x.owlK * (1024 * (t.nMinus1.toNat + 1) + t.fine.toNat)

/-- Shift of a pin's drive or compare edges: deskew, C_cal and C_bg (R117). -/
def edgeShift (s : State) (p : PinId) (compare : Bool) : Int :=
  let d := word s (pinW p 14)
  if compare then signed 12 (bits d 27 16) + calDelay s 1 p.val 1 + calDelay s 1 p.val 3
  else signed 12 (bits d 11 0) + calDelay s 1 p.val 0 + calDelay s 1 p.val 2

/-- Format code of a lane (Table 4-2). -/
def TimingSet.fmt (t : TimingSet) (l : Fin 16) : Nat := bits t.format.toNat (2 * l.val + 1) (2 * l.val)

def drvOf (b : Bool) : Drv := if b then .vih else .vil

/-- What an edge does: nothing, go to a level, or go to it only from high-Z or VTT. -/
structure Edge where
  offset : BitVec 20
  level : Drv
  onlyOff : Bool
  deriving DecidableEq, Repr

/-- D_ON is dropped where it falls at the instant of D_DATA (R108). -/
def dOn (t : TimingSet) (l : Fin 16) (level : Drv) (onlyOff : Bool) : List Edge :=
  let e := t.edges[l]
  if e[0] = e[1] then [] else [⟨e[0], level, onlyOff⟩]

/-- Edges of a data bit in the lane's format (Table 4-2). -/
def dataEdges (t : TimingSet) (l : Fin 16) (b : Bool) : List Edge :=
  let e := t.edges[l]
  let at_ := fun (i : Fin 6) (d : Drv) => [(⟨e[i], d, false⟩ : Edge)]
  match t.fmt l with
  | 0 => dOn t l (drvOf b) true ++ at_ 1 (drvOf b)
  | 1 => dOn t l .vil true ++ at_ 1 (drvOf b) ++ at_ 2 .vil
  | 2 => dOn t l .vih true ++ at_ 1 (drvOf b) ++ at_ 2 .vih
  | _ => dOn t l (drvOf !b) false ++ at_ 1 (drvOf b) ++ at_ 2 (drvOf !b)

/-- Drive edges of a lane's event code, in order (Tables 2-3 and 4-2, R35, R104). -/
def driveEdges (t : TimingSet) (l : Fin 16) (code : Nat) (apg : Bool) : List Edge :=
  let e := t.edges[l]
  match code with
  | 0x0 => dataEdges t l false
  | 0x1 => dataEdges t l true
  | 0x3 => [⟨e[0], .vtt, false⟩]
  | 0x8 => []
  | 0x9 => dOn t l .vil true ++ [⟨e[1], .vil, false⟩, ⟨e[2], .vil, false⟩]
  | 0xA => dOn t l .vil true ++ [⟨e[1], .vil, false⟩, ⟨e[2], .vih, false⟩]
  | 0xB => dOn t l .vih true ++ [⟨e[1], .vih, false⟩, ⟨e[2], .vil, false⟩]
  | 0xC => dOn t l .vih true ++ [⟨e[1], .vih, false⟩, ⟨e[2], .vih, false⟩]
  | 0xD => dataEdges t l apg
  | _ => [⟨e[3], .hiz, false⟩]

/-- What a compare code expects (Table 2-3). -/
def expectOf (code : Nat) (apg : Bool) : Option Expect :=
  match code with
  | 0x4 => some .low
  | 0x5 => some .high
  | 0x6 => some .mid
  | 0xE => some (if apg then .high else .low)
  | 0xF => some .notMid
  | _ => none

/-- One drive edge on a pin: a change of state is a transition, delayed to 512 fine units after the one before it (R108). -/
def driveEdge (base : T64) (x : Pin) (e : Edge) : Pin × Nat :=
  let off := x.drv == .hiz || x.drv == .vtt
  if (e.onlyOff && !off) || x.drv == e.level then (x, 0)
  else
    let t := base + BitVec.ofNat 64 e.offset.toNat
    match x.lastEdge with
    | some p => if later (p + 512) t then ({ x with drv := e.level, lastEdge := some (p + 512) }, 1)
                else ({ x with drv := e.level, lastEdge := some t }, 0)
    | none => ({ x with drv := e.level, lastEdge := some t }, 0)

/-- All drive edges of a vector on a pin: the pin, and the transitions delayed. -/
def driveAll (base : T64) : List Edge → Pin → Nat → Pin × Nat
  | [], x, n => (x, n)
  | e :: es, x, n => let (y, k) := driveEdge base x e; driveAll base es y (n + k)

/-- The drive edges of one lane; a pin outside VECTOR mode makes none, and a driver latched by an overcurrent ignores them,
though the load follows them (R128, R133, R135). -/
def driveLane (r : RidgeId) (t : TimingSet) (v : Vec) (s : State) (l : Fin 16) : State :=
  let p := pinOf r l
  let x := s.pins[p]
  let base := s.ridges[r].start + BitVec.ofInt 64 (edgeShift s p false)
  let edges := driveEdges t l (v.code l) (s.ridges[r].apg.laneBit l)
  let asked := (driveAll base edges { x with drv := x.edge } 0).1.drv
  if x.mode ≠ 1 then s
  else if isSet s (pinW p 15) 4 then modPin s p fun x => { x with edge := asked }
  else
    let (y, n) := driveAll base edges x 0
    let s := modPin s p fun _ => { y with edge := asked }
    if n = 0 then s else setBits (bump s (rdgW r 0x1C) n) (rdgW r 0x19) 16

def lanes : List (Fin 16) := List.finRange 16

/-- The compare windows of a vector (R105, R117); a masked vector has none (Table 2-2), nor has a lane of an
aborted site (R380). -/
def windowsOf (s : State) (r : RidgeId) (t : TimingSet) (v : Vec) : List Window :=
  if v.mask then []
  else (lanes.filter fun l => !(abortedLanes s r).getLsbD l.val).filterMap fun l =>
    (expectOf (v.code l) (s.ridges[r].apg.laneBit l)).map fun e =>
      let base := s.ridges[r].start + BitVec.ofInt 64 (edgeShift s (pinOf r l) true)
      { lane := l, expect := e, opens := base + BitVec.ofNat 64 (t.edges[l][4]).toNat,
        closes := base + BitVec.ofNat 64 (t.edges[l][5]).toNat }

/-! ### One vector period (R31, R43, R49, R63, R100) -/

/-- The drivers, compares and marker of a vector, its CRC fold, and the start of the next vector. -/
def vectorPeriod (s : State) (r : RidgeId) (v : Vec) (isRep : Bool) : State :=
  let x := s.ridges[r]
  let t := activeSet x v
  let p := periodOf s r v
  let e : Entry := { number := if isRep then x.rep + 1 else x.entries, period := x.period, isRep := isRep, masked := v.mask,
                     start := x.start, windows := windowsOf s r t v }
  let s := each lanes (driveLane r t v) s
  let s := if v.mark then writeSpecial s r x.start [specialRec 2 x.start.toNat] false else s
  modR s r fun x =>
    { x with open_ := x.open_ ++ [e], entries := x.entries + (if isRep then 0 else 1), period := x.period + 1,
             crc := gangFold x.crc (bits v.word 108 64) p, ranAt := some x.start, start := x.start + BitVec.ofNat 64 p,
             lastPeriod := p, jumpIn := x.jumpIn.map (· - 1) }

/-- The FAIL flag as the next vector of the ridge sees it (R49, R64). -/
def failFlag (s : State) (r : RidgeId) : Bool :=
  let t := s.ridges[r].period
  (running s r).any fun q =>
    let y := s.ridges[q]
    y.failNow || (match y.firstFail with | some p => decide (p + 24 ≤ t) | none => false)

/-- A HALT is due at the boundary at which the ridge stands (R59). -/
def haltDue (x : Ridge) : Bool := x.halts.any fun h => !h.park && !later h.at_ x.start

/-- The APG operation of APG_ADV (Table 2-2). -/
def advance (s : State) (r : RidgeId) (v : Vec) : State :=
  if v.adv then modR s r fun x => { x with apg := x.apg.oper x.apg.defaultOp.toNat true true } else s

/-! ### Flow (R38, R39, R44, R58) -/

inductive Flow where
  | inOrder
  | jump (a : Addr)
  | again
  | stop
  deriving DecidableEq, Repr

/-- The next vector in order; none at the end of the chain (R39). -/
def nextAddr (s : State) (r : RidgeId) : Option Addr :=
  let a := s.ridges[r].pc
  if a.vec.toNat < 1023 then some ⟨a.seg, a.vec + 1⟩ else (successor s a.seg).map fun h => ⟨h, 0⟩

/-- Cross with the ridges that wait at the boundary, if no other of the gang runs. -/
def crossLeft (s : State) : List RidgeId → State
  | [] => s
  | q :: _ => crossIfDue s q

/-- The ridge leaves its gang at a boundary; what remains of the gang may cross. -/
def leaveGang (s : State) (r : RidgeId) : State :=
  let s := endRun s r s.ridges[r].start
  serveWaits (crossLeft s ((running s r).filter fun q => s.ridges[q].atBoundary))

/-- Park a ridge whose CHECKPOINT vector has completed; its estimate is released (R29, R60). -/
def parkRidge (s : State) (r : RidgeId) : State :=
  if s.ridges[r].st = .running then
    modR s r fun x => { x with st := .parked, park := false, estimate := 0, atBoundary := false, applyWait := false, after := .go }
  else s

/-- What the completion of the vector being executed brings, once it has come: the end of the run, a park, or a segment boundary.
The clock looks for it at every tick (log entry 1). -/
def vecEnd (s : State) (r : RidgeId) : State :=
  let x := s.ridges[r]
  if x.st ≠ .running ∨ !vecOver s r ∨ bearSafe s ∨ s.owl.shutdown then s
  else match x.after with
    | .stop => parkCheck (leaveGang s r)
    | .park => parkCheck (parkRidge s r)
    | .go => if x.atBoundary then parkCheck (crossIfDue s r) else s

/-- The run ends, or the ridge parks, as the vector being executed completes. -/
def endWith (s : State) (r : RidgeId) (a : After) : State := vecEnd (modR s r fun x => { x with after := a }) r

/-- What follows a vector; an event jump due at the same boundary overrides it (R58). -/
def follow (s : State) (r : RidgeId) (f : Flow) : State :=
  if s.ridges[r].jumpIn = some 0 then s
  else match f with
    | .again => s
    | .jump a => goTo s r a false
    | .inOrder => match nextAddr s r with
      | some a => goTo s r a true
      | none => endWith s r .stop
    | .stop => endWith s r .stop

/-- The address after this vector as CALL and LOOP_BEGIN push it. -/
def pushAddr (s : State) (r : RidgeId) : Addr := (nextAddr s r).getD ⟨noHandle, 0⟩

/-! ### MATCH (R51, R52, R64) -/

/-- Ridges of the gang that stand at the same MATCH. -/
def matchPeers (s : State) (r : RidgeId) : List RidgeId :=
  (running s r).filter fun q => decide (s.ridges[q].pc.vec = s.ridges[r].pc.vec) &&
    (match vecAt s q with | some v => v.opcode == 0x0C | none => false)

/-- n of R51. -/
def matchLimit (v : Vec) : Nat := max 25 v.operand

/-- Whether repetition k passed on every ridge of the gang; none while it is not judged everywhere. -/
def repPassed (s : State) (g : List RidgeId) (k : Nat) : Option Bool :=
  if g.all fun q => decide (k ≤ s.ridges[q].repFails.length) then
    some (g.all fun q => (s.ridges[q].repFails.getD (k - 1) 0) == 0)
  else none

/-- How the MATCH stands after the repetitions executed so far. -/
inductive MatchState where
  | goesOn | waits | matched | timedOut
  deriving DecidableEq, Repr

def matchState (s : State) (r : RidgeId) (v : Vec) : MatchState :=
  let j := s.ridges[r].rep
  if j < 25 then .goesOn
  else
    let g := matchPeers s r
    match repPassed s g (j - 24) with
    | none => .waits
    | some ok =>
      if ok || decide (matchLimit v ≤ j) then
        (if g.all fun q => decide (s.ridges[q].rep = j) then (if ok then .matched else .timedOut) else .waits)
      else .goesOn

/-- The end of a MATCH on one ridge: its entry, its outcome, the flags of a TIMEOUT, one APG_ADV (R51, R52, R53). -/
def endMatchOne (timeout : Bool) (s : State) (q : RidgeId) : State :=
  match vecAt s q with
  | none => s
  | some v =>
    let x := s.ridges[q]
    let lanes := if timeout then x.repFails.getD (x.rep - 25) 0 else 0
    let s := modR s q fun x => { x with open_ := x.open_.filter (!·.isRep), entries := x.entries + 1,
                                        matchOut := if timeout then .timedOut else .matched, failNow := x.failNow || timeout,
                                        rep := 0, repFails := [] }
    let s := logEntry s q x.start x.entries (x.period - 1) v.mask lanes timeout
    let s := if timeout then setBits s (rdgW q 1) 8 else s
    advance s q v

/-- End the MATCH at which the ridge stands, on all its peers, if its last repetition has been executed. -/
def settleMatch (s : State) (r : RidgeId) : State × List RidgeId :=
  match vecAt s r with
  | none => (s, [])
  | some v =>
    if v.opcode ≠ 0x0C then (s, [])
    else
      let g := matchPeers s r
      match matchState s r v with
      | .matched => (each g (endMatchOne false) s, g)
      | .timedOut => (each g (endMatchOne true) s, g)
      | _ => (s, [])

/-! ### Readiness -/

/-- The sequencer executes the vector at its pc now. -/
def vecReady (s : State) (r : RidgeId) : Bool :=
  let x := s.ridges[r]
  decide (x.st = .running) && !x.atBoundary && !x.applyWait && decide (x.after = .go) && decide (x.jumpIn ≠ some 0) && reached s.now x.start && !haltDue x &&
    !(match x.arm with | some a => a.arrived && x.jumpIn.isNone | none => false) && !bearSafe s && !s.owl.shutdown

/-- A vector address as fault detail: handle and index (Table 16-4). -/
def addrCode (a : Addr) : Nat := a.seg.toNat * 1024 + a.vec.toNat

/-- Run the vector at the pc if it carries one of the row's opcodes. A parity error, found or injected, is a fault at ridge
scope and the vector is not executed (R33, R390). -/
def withVector (s : State) (r : RidgeId) (parity : Bool) (op : Nat → Bool) (body : Vec → State → State) : State :=
  if !vecReady s r then s
  else
    let here := addrCode s.ridges[r].pc
    match vecAt s r with
    | none => s
    | some v =>
      if parity then parkCheck (ridgeFault s r 0 (some here) false)
      else if !op v.opcode then s
      else match accessInject s (Fin.castLE (by decide) r) with
        | (s, some _) => parkCheck (ridgeFault s r 0 (some here) true)
        | (s, none) =>
          let s := dueAnchor (each (running s r) judge s) r s.ridges[r].start
          let s := modR s r fun x => { x with failSeen := failFlag s r }
          parkCheck (body v s)

/-- A vector of one period: its action sees the FAIL flag and gives what follows. -/
def plainVector (r : RidgeId) (adv : Bool) (act : Vec → State → State) (flow : Vec → State → Flow) (v : Vec) (s : State) : State :=
  let f := flow v s
  let s := act v (vectorPeriod s r v false)
  follow (if adv then advance s r v else s) r f

def noAct : Vec → State → State := fun _ s => s
def inOrder : Vec → State → Flow := fun _ _ => .inOrder

/-! ### Opcodes (Table 2-5) -/

/-- NOP (R44), and the parity check of any vector word (R33). -/
def nopEffect (r : RidgeId) (parity : Bool) (s : State) : State :=
  withVector s r parity (· == 0x00) (plainVector r true noAct inOrder)

def execNop (r : RidgeId) (parity : Bool) (s : State) : Host.Outcome State Fault Refusal := done s (nopEffect r parity s)

/-- REPEAT (R45): one repetition. -/
def repeatEffect (r : RidgeId) (s : State) : State :=
  withVector s r false (· == 0x01) fun v s =>
    let n := max 1 v.operand
    let last := decide (n ≤ s.ridges[r].rep + 1)
    let s := advance (vectorPeriod s r v false) r v
    let s := modR s r fun x => { x with rep := x.rep + 1 }
    follow s r (if last then .inOrder else .again)

def execRepeatVector (r : RidgeId) (s : State) : Host.Outcome State Fault Refusal := done s (repeatEffect r s)

/-- A stack fault: the vector is not executed (R47). -/
def stackFault (s : State) (r : RidgeId) : State := ridgeFault s r 2 (some (addrCode s.ridges[r].pc)) false

/-- LOOP_BEGIN (R46, R47). -/
def loopBeginEffect (r : RidgeId) (s : State) : State :=
  withVector s r false (· == 0x02) fun v s =>
    if 8 ≤ s.ridges[r].loops.length then stackFault s r
    else
      let body := pushAddr s r
      plainVector r true (fun v s => modR s r fun x =>
        { x with loops := (body, BitVec.ofNat 32 (max 1 v.operand)) :: x.loops }) inOrder v s

def execLoopBegin (r : RidgeId) (s : State) : Host.Outcome State Fault Refusal := done s (loopBeginEffect r s)

/-- LOOP_END (R46, R47). -/
def loopEndEffect (r : RidgeId) (s : State) : State :=
  withVector s r false (· == 0x03) fun v s =>
    match s.ridges[r].loops with
    | [] => stackFault s r
    | (a, n) :: rest =>
      let more := decide (1 < n.toNat)
      plainVector r true (fun _ s => modR s r fun x => { x with loops := if more then (a, n - 1) :: rest else rest })
        (fun _ _ => if more then .jump a else .inOrder) v s

def execLoopEnd (r : RidgeId) (s : State) : Host.Outcome State Fault Refusal := done s (loopEndEffect r s)

/-- LOOP_EXIT (R44, R47). -/
def loopExitEffect (r : RidgeId) (s : State) : State :=
  withVector s r false (· == 0x04) fun v s =>
    if s.ridges[r].loops = [] then stackFault s r
    else plainVector r true (fun _ s => modR s r fun x => { x with loops := x.loops.tail }) (fun v _ => .jump v.target) v s

def execLoopExit (r : RidgeId) (s : State) : Host.Outcome State Fault Refusal := done s (loopExitEffect r s)

def jumpEffect (r : RidgeId) (s : State) : State :=
  withVector s r false (· == 0x05) (plainVector r true noAct fun v _ => .jump v.target)

/-- JUMP (R44, R48). -/
def execJump (r : RidgeId) (s : State) : Host.Outcome State Fault Refusal := done s (jumpEffect r s)

/-- CALL (R44, R47). -/
def callEffect (r : RidgeId) (s : State) : State :=
  withVector s r false (· == 0x06) fun v s =>
    if 8 ≤ s.ridges[r].calls.length then stackFault s r
    else
      let back := pushAddr s r
      plainVector r true (fun _ s => modR s r fun x => { x with calls := back :: x.calls }) (fun v _ => .jump v.target) v s

def execCall (r : RidgeId) (s : State) : Host.Outcome State Fault Refusal := done s (callEffect r s)

/-- RET (R47). -/
def retEffect (r : RidgeId) (s : State) : State :=
  withVector s r false (· == 0x07) fun v s =>
    match s.ridges[r].calls with
    | [] => stackFault s r
    | a :: rest => plainVector r true (fun _ s => modR s r fun x => { x with calls := rest }) (fun _ _ => .jump a) v s

def execRet (r : RidgeId) (s : State) : Host.Outcome State Fault Refusal := done s (retEffect r s)

def jumpFailEffect (r : RidgeId) (s : State) : State :=
  withVector s r false (· == 0x08)
    (plainVector r true noAct fun v s => if s.ridges[r].failSeen then .jump v.target else .inOrder)

/-- JUMP_FAIL (R49). -/
def execJumpFail (r : RidgeId) (s : State) : Host.Outcome State Fault Refusal := done s (jumpFailEffect r s)

def jumpPassEffect (r : RidgeId) (s : State) : State :=
  withVector s r false (· == 0x09)
    (plainVector r true noAct fun v s => if s.ridges[r].failSeen then .inOrder else .jump v.target)

/-- JUMP_PASS (R49). -/
def execJumpPass (r : RidgeId) (s : State) : Host.Outcome State Fault Refusal := done s (jumpPassEffect r s)

def jumpTimeoutEffect (r : RidgeId) (s : State) : State :=
  withVector s r false (· == 0x0A)
    (plainVector r true noAct fun v s => if s.ridges[r].matchOut = .timedOut then .jump v.target else .inOrder)

/-- JUMP_TIMEOUT (R53). -/
def execJumpTimeout (r : RidgeId) (s : State) : Host.Outcome State Fault Refusal := done s (jumpTimeoutEffect r s)

/-- CLR_FAIL (R49): compares of this vector's period and of all before it leave the flag. -/
def clrFailEffect (r : RidgeId) (s : State) : State :=
  withVector s r false (· == 0x0B) (plainVector r true (fun _ s => modR s r fun x =>
    { x with cleared := x.period, firstFail := none, failNow := false, failSeen := false }) inOrder)

def execClrFail (r : RidgeId) (s : State) : Host.Outcome State Fault Refusal := done s (clrFailEffect r s)

/-- MATCH (R51): one repetition, while the MATCH goes on. -/
def matchEffect (r : RidgeId) (s : State) : State :=
  withVector s r false (· == 0x0C) fun v s =>
    if matchState s r v ≠ .goesOn then s
    else modR (vectorPeriod s r v true) r fun x => { x with rep := x.rep + 1 }

def execMatchVector (r : RidgeId) (s : State) : Host.Outcome State Fault Refusal := done s (matchEffect r s)

/-- MATCH_END (R51 to R53): the MATCH ends on every ridge of the gang, and each continues in order. -/
def matchEndEffect (r : RidgeId) (s : State) : State :=
  if !vecReady s r then s
  else
    let s := each (running s r) judge s
    let (s, g) := settleMatch s r
    parkCheck (each g (fun s q => follow s q .inOrder) s)

def execMatchEnd (r : RidgeId) (s : State) : Host.Outcome State Fault Refusal := done s (matchEndEffect r s)

/-- APG_LOAD (R65, R69). -/
def apgLoadEffect (r : RidgeId) (s : State) : State :=
  withVector s r false (· == 0x10) (plainVector r false (fun v s => modR s r fun x =>
    { x with apg := x.apg.loadAdv (bits v.operand 28 24) (BitVec.ofNat 24 v.operand) v.adv }) inOrder)

def execApgLoad (r : RidgeId) (s : State) : Host.Outcome State Fault Refusal := done s (apgLoadEffect r s)

/-- APG_OP (R68, R69): with APG_ADV, only this operation applies. -/
def apgOpEffect (r : RidgeId) (s : State) : State :=
  withVector s r false (· == 0x11) (plainVector r false (fun v s => modR s r fun x =>
    { x with apg := x.apg.oper (bits v.operand 7 0) true true }) inOrder)

def execApgOp (r : RidgeId) (s : State) : Host.Outcome State Fault Refusal := done s (apgOpEffect r s)

def signalEffect (r : RidgeId) (s : State) : State :=
  withVector s r false (· == 0x18) (plainVector r true (fun v s => raise s r.val (bits v.operand 7 0)) inOrder)

/-- SIGNAL (R44): the ridge's program event, with the code as payload. -/
def execSignal (r : RidgeId) (s : State) : Host.Outcome State Fault Refusal := done s (signalEffect r s)

/-- Where a parking ridge will resume: the event jump's target if one is due at that boundary, else the next vector. -/
def checkpointFlow (s : State) (r : RidgeId) : Option Addr :=
  if s.ridges[r].jumpIn = some 0 then some s.ridges[r].jumpTo else nextAddr s r

/-- CHECKPOINT (R60): records the number, and parks as the vector completes if a park request is pending. A latched event jump
that is not yet due waits for the resume: no periods pass in PARKED (R57). Where no vector follows, at vector 1,023 of a segment
with no successor, the run ends in place of a park: a resume would have no vector to continue from. DESIGN CHOICE, log entry
55. -/
def checkpointEffect (r : RidgeId) (s : State) : State :=
  withVector s r false (· == 0x19) fun v s =>
    let s := advance (vectorPeriod s r v false) r v
    let s := modR s r fun x => { x with checkpoint := BitVec.ofNat 16 v.operand, ckptValid := true }
    if !s.ridges[r].park || haltDue s.ridges[r] then follow s r .inOrder
    else match checkpointFlow s r with
      | none => endWith s r .stop
      | some a =>
        let jumped := decide (s.ridges[r].jumpIn = some 0)
        let s := modR s r fun x =>
          { x with pc := a, lastSeg := x.pc.seg, rep := 0, repFails := [], jumpIn := if jumped then none else x.jumpIn,
                   loops := if jumped then [] else x.loops, calls := if jumped then [] else x.calls }
        endWith s r .park

def execCheckpoint (r : RidgeId) (s : State) : Host.Outcome State Fault Refusal := done s (checkpointEffect r s)

def haltOpcodeEffect (r : RidgeId) (s : State) : State :=
  withVector s r false (· == 0x1F) (plainVector r true noAct fun _ _ => .stop)

/-- HALT opcode (R41, R44). -/
def execHaltOpcode (r : RidgeId) (s : State) : Host.Outcome State Fault Refusal := done s (haltOpcodeEffect r s)

/-- A code outside Table 2-5 (R44): a fault at ridge scope, and the vector is not executed. -/
def illegalOpcodeEffect (r : RidgeId) (s : State) : State :=
  withVector s r false (fun op => !opcodeKnown op) fun _ s => ridgeFault s r 1 (some (addrCode s.ridges[r].pc)) false

def execIllegalOpcode (r : RidgeId) (s : State) : Host.Outcome State Fault Refusal := done s (illegalOpcodeEffect r s)

end Sys2Proof.Machine
end

