-- ==== Sys2Proof/Machine/Launch.lean ====
section
/-! DEFINITION. Launches, halts, event jumps, timing sets, and the refill of running ridges (chapters 2, 3, 4). -/

namespace Sys2Proof.Machine

/-! ### LAUNCH (R24, R29, R42, R62, R100, R102, R142, R187, R288) -/

/-- The ridges that a body names by site or by mask; none where R288 refuses it. -/
def namedRidges (s : State) (bySite : Bool) (site : Byte) (mask : BitVec 16) : List RidgeId :=
  if bySite then (match cringOf site.toNat with | some k => maskRidges s.sites[k] | none => [])
  else allRidges.filter fun r => mask.getLsbD r.val

/-- The conditions of R142 on a pin's levels, each as it stands. -/
def levelConditions (s : State) (p : PinId) : List Bool :=
  let w := fun i => field s (pinW p i) 15 0
  let lo := min (w 2) (min (w 1) (w 3))
  let hi := max (w 2) (max (w 1) (w 3))
  let clamp := isSet s (pinW p 0) 3
  [decide (w 5 ≤ w 4), !clamp || decide (w 7 < lo), !clamp || decide (hi < w 6)]

/-- A pin breaks a condition of R142. -/
def levelsBroken (s : State) (p : PinId) : Bool := (levelConditions s p).any (!·)

/-- The lowest pin in VECTOR mode, on some ridges, that fails the checks of R142. -/
def failingPin (s : State) (g : List RidgeId) : Option PinId :=
  allPins.find? fun p => decide (pinRidge p ∈ g) && field s (pinW p 0) 1 0 == 1 && (levelsBroken s p || isSet s (pinW p 15) 4)

/-- Ports that the launch starts (R187). -/
def startedPorts (s : State) (g : List RidgeId) : List RidgeId := g.filter fun n => isSet s (aptW n 0) 2

/-- The first port whose playback cannot start (R181). -/
def badPort (s : State) (g : List RidgeId) : Option (Nat × Nat) :=
  (startedPorts s g).findSome? fun n => (awgRefusal s n).map fun st => (st, field s (aptW n 1) 19 0)

/-- What the launch adds to the admitted power, in mW (R28, R187). A port that the launch names counts also where SOURCE = 0 leaves
it nothing to play. DESIGN CHOICE, log entry 56. -/
def launchPower (s : State) (g : List RidgeId) (resume : Bool) : Nat :=
  g.foldl (fun p r => p + 100 * estimateOf (dividerD s r (gangOwl s g))) 0 +
    (if resume then 0 else (startedPorts s g).foldl (fun p n => p + if portActive s.ports[n] then 0 else 500) 0)

/-- The refusals of LAUNCH: status and bytes 4-7. -/
def launchRefusal (s : State) (named : List RidgeId) (resume : Bool) : Option (Nat × Nat) :=
  let g := gangs s named
  let state : SeqState := if resume then .parked else .bound
  if named = [] then some (BAD_PARAM, 0)
  else if g.any fun r => decide (s.ridges[r].st ≠ state) then some (BUSY, 0)
  else if g.any fun r => decide (divider s r ≠ divider s ((gang s r).headD r)) then some (BAD_PARAM, 0)
  else match failingPin s g with
    | some p => some (BAD_PARAM, p.val)
    | none =>
      match (if resume then none else badPort s g) with
      | some e => some e
      | none =>
        if 85000 < admittedPower s + launchPower s g resume then some (THROTTLED, 2)
        else if owlEnforces s then some (THROTTLED, 1)
        else none

/-- An accepted launch arms the whole gang for one tick (R29, R41, R62). -/
def armLaunch (s : State) (g : List RidgeId) (resume : Bool) (t : T64) : State :=
  let k := gangOwl s g
  let s := each g (fun s r => modR s r fun x =>
    { x with st := .armed, launchAt := t, resume := resume, estimate := estimateOf (dividerD s r k) }) s
  if resume then s
  else each (startedPorts s g) (fun s n => armAwg s n (t + samplesFu (field s (aptW n 3) 23 0)) true) s

def launchEffect (h : Hdr) (resume bySite : Bool) (site : Byte) (mask : BitVec 16) (s : State) : State :=
  let named := namedRidges s bySite site mask
  command s h { row 0x20 2 .none with timed := true, mc := true } (named.map .ridge) fun s =>
    match launchRefusal s named resume with
    | some (st, info) => refuse s h 0x20 st info
    | none =>
      let soon := tickAfter (s.now + ticksFu 3000)
      let t := (startTime s h soon).getD soon
      replyAccepted (armLaunch s (gangs s named) resume t) h 0x20 0 t

def execLaunch (h : Hdr) (resume bySite : Bool) (site : Byte) (mask : BitVec 16) (s : State) : Host.Outcome State Fault Refusal :=
  done s (launchEffect h resume bySite site mask s)

/-- A ridge at the start of a new run (R42, R100). -/
def Ridge.startRun (x : Ridge) (sites : List (Fin 64)) (k : Nat) : Ridge :=
  { x with st := .running, pc := ⟨x.first, 0⟩, loops := [], calls := [], rep := 0, repFails := [], matchOut := .none,
           period := 0, firstFail := none, cleared := 0, failNow := false, failSeen := false, open_ := [], entries := 0,
           maskedEntries := 0, inMask := false, siteLogs := sites.map fun k => ⟨k, 0, none, [], false⟩, outcome := .completed,
           ckptValid := false, apg := x.apg.launch, atBoundary := false, applyWait := false, after := .go, ranAt := none, jumpIn := none, lastSeg := x.first, start := x.launchAt,
           lastPeriod := 1024, arrival := none, crc := 0, owlK := k, owlNext := k, bodies := [], resume := false }

/-- The transitions in a comparator's history, newest first: a state that follows another state. -/
def changesOf : List (T64 × Option Cmp) → List (T64 × Cmp)
  | (t, some c) :: (u, some d) :: h => (t, c) :: changesOf ((u, some d) :: h)
  | _ :: h => changesOf h
  | [] => []

def Pin.changes (x : Pin) : List (T64 × Cmp) := changesOf x.hist

/-- Transitions at or after the launch instant that the comparators have already shown: the window includes them (R208). -/
def launchChanges (s : State) (r : RidgeId) (y : Stream) (t : T64) : List (T64 × Fin 16 × Cmp) :=
  (List.finRange 16).flatMap fun l =>
    if y.lanes.getLsbD l.val then
      ((s.pins[pinOf r l].changes.filter fun e => !later t e.1).reverse).map fun e => (e.1, l, e.2)
    else []

/-- Start one armed ridge: a resume goes on where it parked, a launch begins a run and its streams, with the estimate for the
divider in force from this boundary (R29, R60, R205, R208). A park request posted in ARMED stays posted (R59). -/
def startOne (k : Nat) (s : State) (r : RidgeId) : State :=
  let x := s.ridges[r]
  if x.resume then
    modR s r fun x =>
      { x with st := .running, start := x.launchAt, lastPeriod := 1024, arrival := none, resume := false, ranAt := none }
  else
    let s := endWindow s r
    let init := initStaged s r
    let s := modR s r fun x => { x.startRun (sitesOn s r) k with
      initHeld := init, captured := x.stream.isSome, estimate := estimateOf (dividerD s r k) }
    let s := modStream s r fun y => { y with active := true, since := x.launchAt, anchorAt := x.launchAt }
    match s.ridges[r].stream with
    | some y => each (launchChanges s r y x.launchAt)
        (fun s e => offer s r e.1 e.2.1 e.2.2) (writeSpecial s r x.launchAt (basePair 0 x.launchAt 0) false)
    | none => s

/-- LAUNCH_TICK (R95, R100): the gang starts on one tick, which counts as a segment boundary. -/
def launchTickEffect (r : RidgeId) (s : State) : State :=
  let x := s.ridges[r]
  if x.st ≠ .armed ∨ !reached s.now x.launchAt ∨ bearSafe s ∨ s.owl.shutdown then s
  else
    let g := (gang s r).filter fun q => decide (s.ridges[q].st = .armed ∧ s.ridges[q].launchAt = x.launchAt)
    let s := each g (startOne (gangOwl s g)) s
    crossIfDue (each g (fun s q => modR s q fun x => { x with atBoundary := true }) s) r

def execLaunchTick (r : RidgeId) (s : State) : Host.Outcome State Fault Refusal := done s (launchTickEffect r s)

/-! ### HALT (R59, R62, R288) -/

/-- Post a park request to the whole gang of a ridge (R62). -/
def postPark (s : State) (r : RidgeId) : State :=
  each (gang s r) (fun s q => modR s q fun x => match x.st with
    | .armed | .running | .hold => { x with park := true }
    | _ => x) s

/-- A HALT that reaches a ridge now (R59): at once in ARMED and PARKED, else at the next boundary. A gang behaves as one ridge
at its boundaries (R64), so it stops whole. DEDUCED, log entry 11. -/
def haltNow (s : State) (r : RidgeId) : State :=
  match s.ridges[r].st with
  | .unbound | .bound => s
  | .armed => cancelLaunch s r
  | .parked => endRun s r s.ridges[r].start
  | .running | .hold => modR s r fun x => { x with halts := x.halts ++ [⟨s.now, false⟩] }

def haltEffect (h : Hdr) (park bySite : Bool) (site : Byte) (mask : BitVec 16) (s : State) : State :=
  let named := namedRidges s bySite site mask
  command s h { row 0x21 2 .none with timed := true, mc := true } (named.map .ridge) fun s =>
    if named = [] then refuse s h 0x21 BAD_PARAM 0
    else match startTime s h (tickAfter (s.now + ticksFu 3000)) with
      | some t =>
        replyAccepted (each (if park then named else gangs s named)
          (fun s r => modR s r fun x => { x with halts := x.halts ++ [⟨t, park⟩] }) s) h 0x21 0 t
      | none =>
        if park then replyDone (each named postPark s) h 0x21 0
        else doneWhen (each (gangs s named) haltNow s) h 0x21 (named.map .bound) []

def execHalt (h : Hdr) (park bySite : Bool) (site : Byte) (mask : BitVec 16) (s : State) : Host.Outcome State Fault Refusal :=
  done s (haltEffect h park bySite site mask s)

/-- HALT_AT_BOUNDARY (R58, R59, R98): the oldest request whose time has come takes effect at the boundary. -/
def haltAtBoundaryEffect (r : RidgeId) (s : State) : State :=
  match s.ridges[r].halts.find? fun h => reached s.now h.at_ with
  | none => s
  | some h =>
    let x := s.ridges[r]
    let gone := modR s r fun x => { x with halts := x.halts.erase h }
    if bearSafe s || s.owl.shutdown then s
    else if h.park then postPark gone r
    else match x.st with
      | .unbound | .bound => gone
      | .armed => serveWaits (cancelLaunch gone r)
      | .parked | .hold => serveWaits (endRun gone r x.start)
      | .running =>
        if later h.at_ x.start || !reached s.now x.start then s
        else parkCheck (leaveGang (settleMatch (each (running gone r) judge gone) r).1 r)

def execHaltAtBoundary (r : RidgeId) (s : State) : Host.Outcome State Fault Refusal := done s (haltAtBoundaryEffect r s)

/-! ### Event jumps (R56 to R58, R64, R91) -/

def eventJumpArmEffect (h : Hdr) (source : Byte) (disarm : Bool) (target : Word) (s : State) : State :=
  let r := hdrRidge h
  let a : Addr := ⟨BitVec.ofNat 20 (target.toNat / 1024), BitVec.ofNat 10 target.toNat⟩
  command s h (row 0x22 2 .named) [.ridge r, .handle a.seg.toNat] fun s =>
    let g := gang s r
    if disarm then replyDone (restage (each g (fun s q => modR s q fun x => { x with arm := none }) s) g) h 0x22 0
    else if g.any fun q => decide (s.ridges[q].st = .unbound) then refuse s h 0x22 BUSY 0
    else match bindHandles s [a.seg] with
      | some (st, info) => refuse s h 0x22 st info
      | none =>
        let full := g.any fun q =>
          let x := s.ridges[q]
          decide (quota s q < bindReq x.maxBody x.targets.length + 3 + x.pins.length)
        if full then refuse s h 0x22 BUSY 0
        else
          let s := each g (fun s q => modR s q fun x => { x with arm := some ⟨source, a, false, 0⟩ }) s
          replyDone (restage (reclaimLent s) g) h 0x22 0

def execEventJumpArm (h : Hdr) (source : Byte) (disarm : Bool) (target : Word) (s : State) : Host.Outcome State Fault Refusal :=
  done s (eventJumpArmEffect h source disarm target s)

/-- An event of a source reaches a ridge (R56): an idle, bound or armed ridge ignores it. -/
def ridgeEvent (s : State) (src : Nat) (r : RidgeId) : State :=
  match s.ridges[r].st with
  | .running | .hold | .parked => modR s r fun x =>
      { x with arm := x.arm.map fun a =>
          if a.source.toNat = src ∧ x.jumpIn.isNone ∧ !a.arrived then { a with arrived := true, at_ := s.now } else a }
  | _ => s

/-- The vector executed last started at a boundary in the tick of an instant, or later: an event of that instant is latched at
that boundary, and the vector is the first of the 24 (R57). -/
def ranSince (x : Ridge) (t : T64) : Bool :=
  match x.ranAt with
  | none => false
  | some u => decide (coarse u = coarse t) || later u t

/-- Vector periods executed before the boundary at which an event of an instant is latched. -/
def latchPeriod (x : Ridge) (t : T64) : Nat := x.period - (if ranSince x t then 1 else 0)

/-- The ridge latches its arm's event. -/
def Ridge.latch (x : Ridge) (t : T64) : Ridge :=
  match x.arm with
  | some b => { x with arm := none, jumpIn := some (24 - if ranSince x t then 1 else 0), jumpTo := b.target }
  | none => x

/-- EVENT_JUMP_LATCH (R57, R64): all running ridges of the gang latch at the same vector boundary, which some of them may have
passed in the tick of the event; 24 vector periods follow it. -/
def eventJumpLatchEffect (r : RidgeId) (s : State) : State :=
  let x := s.ridges[r]
  let live := fun (q : RidgeId) => match s.ridges[q].st with | .running | .hold => true | _ => false
  let g := (gang s r).filter live
  match x.arm with
  | none => s
  | some a =>
    if !a.arrived || x.jumpIn.isSome || !live r || bearSafe s || s.owl.shutdown ||
        (g.any fun q => decide (latchPeriod s.ridges[q] a.at_ ≠ latchPeriod x a.at_))
    then s
    else each g (fun s q => modR s q fun y => y.latch a.at_) s

def execEventJumpLatch (r : RidgeId) (s : State) : Host.Outcome State Fault Refusal := done s (eventJumpLatchEffect r s)

/-- EVENT_JUMP (R57, R58): the 24 periods have run, and the jump overrides every other flow change; both stacks empty. -/
def eventJumpEffect (r : RidgeId) (s : State) : State :=
  let x := s.ridges[r]
  if x.st ≠ .running ∨ x.jumpIn ≠ some 0 ∨ x.atBoundary ∨ x.applyWait ∨ x.after ≠ .go ∨ !reached s.now x.start ∨ haltDue x ∨ bearSafe s ∨ s.owl.shutdown then s
  else
    let s := (settleMatch (each (running s r) judge s) r).1
    let s := modR s r fun x => { x with loops := [], calls := [], jumpIn := none, open_ := x.open_.filter (!·.isRep) }
    parkCheck (restage (goTo s r x.jumpTo true) [r])

def execEventJump (r : RidgeId) (s : State) : Host.Outcome State Fault Refusal := done s (eventJumpEffect r s)

/-! ### Timing sets (R107, R109 to R115) -/

/-- The conditions of R107 on a lane's offsets, with its format. -/
def laneOk (pmin fmt : Nat) (e : List Nat) : Bool :=
  match e with
  | [on, data, ret, off, opens, closes] =>
    decide (on ≤ data) && decide (data + 512 ≤ ret) && decide (ret < pmin) && decide (off < pmin) &&
      decide (opens ≤ closes) && decide (closes ≤ pmin + 16384) &&
      (fmt != 3 || (decide (on + 512 ≤ data) && decide (512 + ret ≤ on + pmin)))
  | _ => false

/-- The checks of R107 and R110 on a set record. -/
def recordOk (t : SetRecord) : Bool :=
  let pmin := 1024 * (bits t.period.toNat 9 0 + 1) + bits t.period.toNat 19 10
  decide (t.period.toNat < 2 ^ 20) && t.reserved == 0 && decide (t.lanes.length = 16) &&
    t.lanes.zipIdx.all fun l =>
      l.1.2 == 0 && l.1.1.all (fun w => decide (w.toNat < 2 ^ 20)) &&
        laneOk pmin (bits t.format.toNat (2 * l.2 + 1) (2 * l.2)) (l.1.1.map fun w => w.toNat)

/-- The timing set that a record holds. -/
def setOf (t : SetRecord) : TimingSet where
  nMinus1 := BitVec.ofNat 10 t.period.toNat
  fine := BitVec.ofNat 10 (t.period.toNat / 1024)
  format := t.format
  edges := Vector.ofFn fun l : Fin 16 => Vector.ofFn fun e : Fin 6 =>
    BitVec.ofNat 20 (((t.lanes.getD l.val ([], 0)).1.getD e.val 0).toNat)

/-- Write sets into a bank from set `first` on. -/
def putSets (s : State) (r : RidgeId) (bank : Fin 2) (first : Nat) (ts : List SetRecord) : State :=
  (ts.zipIdx).foldl (fun s x => modR s r fun y =>
    { y with banks := vmod y.banks bank fun b => vmod b (Fin.ofNat 32 (first + x.2)) fun _ => setOf x.1 }) s

/-- An injection on PEDIE meets the write of the timing-set memory (R390). -/
def pedieInject (s : State) (r : RidgeId) : State :=
  let k := r.val / 4
  let b : Fin 64 := Fin.ofNat 64 (16 + k)
  match accessInject s b with
  | (s, none) => s
  | (s, some false) => corrected s b 0 true
  | (s, some true) =>
    each ((List.range 4).map fun j => (Fin.ofNat 16 (4 * k + j) : RidgeId))
      (fun s q => contained s ⟨b, 1, .contained, 4, q.val, none, true, false⟩ (abortGang q)) s

def timingWriteEffect (h : Hdr) (bank first count : Byte) (records : List SetRecord) (s : State) : State :=
  let r := hdrRidge h
  command s h (row 0x18 (2 + 33 * count.toNat) .named) [.ridge r] fun s =>
    let x := s.ridges[r]
    let n := count.toNat
    let ts := records.take n
    if 1 < bank.toNat ∨ n = 0 ∨ 32 < first.toNat + n ∨ 31 < first.toNat then refuse s h 0x18 BAD_PARAM 0
    else if bankIx x.activeBank = Fin.ofNat 2 bank.toNat then refuse s h 0x18 TS_ACTIVE 0
    else if x.swapPending ∨ x.copyBusy then refuse s h 0x18 BUSY 0
    else match ts.findIdx? fun t => !recordOk t with
      | some i => refuse s h 0x18 BAD_PARAM i
      | none => replyDone (pedieInject (putSets s r (Fin.ofNat 2 bank.toNat) first.toNat ts) r) h 0x18 0

def execTimingWrite (h : Hdr) (bank first count : Byte) (records : List SetRecord) (s : State) :
    Host.Outcome State Fault Refusal := done s (timingWriteEffect h bank first count records s)

/-- The ridge runs in the sense that a swap waits for its next segment boundary (R112). -/
def swapWaits (s : State) (r : RidgeId) : Bool := match s.ridges[r].st with | .running | .hold | .parked => true | _ => false

/-- TIMING_SWAP (R112, R113). The reply where it names ridges that swap at once and ridges that wait, as ridge 0xF can: ACCEPTED,
since a swap is still pending. DESIGN CHOICE, log entry 53. -/
def timingSwapEffect (h : Hdr) (s : State) : State :=
  command s h { row 0x19 1 .either with mc := true } ((gangs s (hdrRidges h)).map .ridge) fun s =>
    let g := gangs s (hdrRidges h)
    let waits := g.any (swapWaits s)
    let s := each g (fun s r =>
      if swapWaits s r then modR s r fun x => { x with swapPending := true } else applySwap s r s.now) s
    if waits then replyAccepted s h 0x19 0 s.now else replyDone s h 0x19 0

def execTimingSwap (h : Hdr) (s : State) : Host.Outcome State Fault Refusal := done s (timingSwapEffect h s)

/-- The gang stands at a segment boundary that it has crossed but for what is pending (R54). -/
def crossed (s : State) (r : RidgeId) : Bool :=
  decide (s.ridges[r].st = .running) && (running s r).all (fun q => s.ridges[q].applyWait) && !bearSafe s && !s.owl.shutdown

/-- TIMING_SWAP_APPLY (R113, R116): every ridge of the gang with a pending swap swaps from its next vector. -/
def timingSwapApplyEffect (r : RidgeId) (s : State) : State :=
  if !crossed s r || !s.ridges[r].swapPending then s
  else
    let g := running s r
    releaseBoundary (each g (fun s q => if s.ridges[q].swapPending then applySwap s q s.ridges[q].start else s) s) g

def execTimingSwapApply (r : RidgeId) (s : State) : Host.Outcome State Fault Refusal := done s (timingSwapApplyEffect r s)

/-- TIMING_COPY_DONE (R114): the new shadow bank equals the active bank. -/
def timingCopyDoneEffect (r : RidgeId) (s : State) : State :=
  let x := s.ridges[r]
  if !x.copyBusy then s
  else
    let active := x.banks[bankIx x.activeBank]
    modR s r fun x => { x with copyBusy := false, banks := vmod x.banks (bankIx !x.activeBank) fun _ => active }

def execTimingCopyDone (r : RidgeId) (s : State) : Host.Outcome State Fault Refusal := done s (timingCopyDoneEffect r s)

/-- OWL_FACTOR_APPLY (R29, R64, R103, R368): the largest factor requested for the gang, and the estimate that goes with it. -/
def owlFactorApplyEffect (r : RidgeId) (s : State) : State :=
  if !crossed s r then s
  else
    let g := running s r
    let k := gangOwl s g
    releaseBoundary (each g (fun s q => modR s q fun x => { x with owlK := k, estimate := estimateOf (dividerD s q k) }) s) g

def execOwlFactorApply (r : RidgeId) (s : State) : Host.Outcome State Fault Refusal := done s (owlFactorApplyEffect r s)

/-! ### Refill and hold (R92, R95 to R98, R101) -/

/-- A staging fetch arrives: the copy is resident, and a hold that waits for it notes the arrival tick (R97); a lookahead copy
takes its lent slot (R243). -/
def copyArrives (s : State) (r : RidgeId) (h : Handle) (due : Nat) : State :=
  let s := keepMax s (rdgW r 0x13) (s.ticks - due) 0xFFFF
  modR s r fun x =>
    if x.lentDue.any fun f => decide (f.1 = h) then
      { x with lent := x.lent ++ [h], lentDue := x.lentDue.filter fun f => decide (f.1 ≠ h), retried := x.retried.erase h }
    else
    { x with resident := addOnce h x.resident, cached := x.cached.erase h, fetches := x.fetches.filter fun f => decide (f.1 ≠ h),
             retried := x.retried.erase h,
             arrival := if x.st = .hold ∧ x.pc.seg = h then some s.now else x.arrival }

/-- A staging fetch fails SECDED: retried once, then a fault at ridge scope; a hold that waits for it aborts as under
policy 0 (R96). -/
def fetchFails (s : State) (r : RidgeId) (h : Handle) (injected : Bool) : State :=
  if h ∈ s.ridges[r].retried then
    let waiting := decide (s.ridges[r].st = .hold ∧ s.ridges[r].pc.seg = h)
    let s := modR s r fun x => { x with retried := x.retried.erase h, lentDue := x.lentDue.filter fun f => decide (f.1 ≠ h) }
    if waiting then
      let g := (gang s r).filter fun q => decide (s.ridges[q].st = .hold)
      let s := each g (fun s q => endRun (modR s q fun x => { x with outcome := .invalid }) q s.ridges[q].start) s
      serveWaits (logFault s ⟨Fin.castLE (by decide) r, 5, .contained, 4, r.val, some h.toNat, injected, false⟩ 0 0)
    else ridgeFault s r 5 (some h.toNat) injected
  else
    setBits (modR s r fun x =>
      let again := fun (f : Handle × Nat) => if f.1 = h then (h, s.ticks) else f
      { x with retried := h :: x.retried, fetches := x.fetches.map again, lentDue := x.lentDue.map again }) (rdgW r 0x12) 4

/-- A slot takes the copy; an injection on SEGSTORE meets the write (R390). -/
def slotWrite (s : State) (r : RidgeId) (h : Handle) (due : Nat) : State :=
  match accessInject s 23 with
  | (s, none) => copyArrives s r h due
  | (s, some false) => corrected (copyArrives s r h due) 23 0 true
  | (s, some true) => contained s ⟨23, 1, .contained, 4, r.val, some h.toNat, true, false⟩ (abortGang r)

/-- The staging read of a fetch meets its SECDED check, or an injection on HBM_CE or HBM_UE (R33, R96, R390). -/
def stageRead (s : State) (r : RidgeId) (h : Handle) (due : Nat) (read : Secded) : State :=
  let repaired := fun (s : State) (injected : Bool) => slotWrite (corrected s 20 0 injected) r h due
  match accessInject s 20 with
  | (s, some true) => fetchFails s r h true
  | (s, some false) => repaired s true
  | (s, none) =>
    match accessInject s 21 with
    | (s, some true) => fetchFails s r h true
    | (s, some false) => repaired s true
    | (s, none) => match read with
      | .clean => slotWrite s r h due
      | .corrected => repaired s false
      | .failed => fetchFails s r h false

/-- A due fetch of the window comes before this one in chain order, and no load holds it back (R73, R85). -/
def fetchWaits (s : State) (r : RidgeId) (h : Handle) : Bool :=
  let line := if s.ridges[r].inRun then stageLine s r else []
  decide (h ∈ line) && (line.takeWhile (· ≠ h)).any fun k => fetching s r k && !loading s k

/-- STAGING_FETCH_DONE (R33, R83, R85, R92, R96, R243): a fetch that is due completes, of the window in chain order; that of a
handle which a load holds waits for the load's reply (R73). -/
def stagingFetchDoneEffect (r : RidgeId) (h : Handle) (read : Secded) (s : State) : State :=
  let x := s.ridges[r]
  if bearSafe s || s.owl.shutdown || (getImg s h).isNone || loading s h || fetchWaits s r h then s
  else match (x.fetches ++ x.lentDue).find? fun f => decide (f.1 = h) with
    | some (_, due) => parkCheck (stageRead s r h due read)
    | none => s

/-- The first point of the grid b + m·p at or after t (R101). -/
def gridPoint (b t : T64) (p : Nat) : T64 :=
  if later t b then b + BitVec.ofNat 64 (cdiv (t - b).toNat p * p) else b

/-- The latest arrival tick among the ridges of the gang. -/
def lastArrival (s : State) (g : List RidgeId) : Option T64 :=
  g.foldl (fun m q => match m, s.ridges[q].arrival with
    | none, a => a
    | some x, some y => some (if later y x then y else x)
    | some x, none => some x) none

/-- HOLD_RESUME (R64, R97, R101, R112, R205): every ridge of the gang has its segment, and 4 ticks have passed; the gang crosses
the boundary as its first vector starts. -/
def holdResumeEffect (r : RidgeId) (s : State) : State :=
  let g := (gang s r).filter fun q => decide (s.ridges[q].st = .hold)
  match lastArrival s g with
  | none => s
  | some a =>
    let t := a + ticksFu 4
    if s.ridges[r].st ≠ .hold ∨ !reached s.now t ∨ bearSafe s ∨ s.owl.shutdown ∨
        !(g.all fun q => decide (s.ridges[q].pc.seg ∈ s.ridges[q].resident)) then s
    else
      let s := each g (fun s q =>
        let start := gridPoint s.ridges[q].start t s.ridges[q].lastPeriod
        let s := modR s q fun x => { x with st := .running, start := start, arrival := none, atBoundary := true }
        writeSpecial s q start [specialRec 4 start.toNat] false) s
      crossIfDue s r

def execHoldResume (r : RidgeId) (s : State) : Host.Outcome State Fault Refusal := done s (holdResumeEffect r s)

/-- HOLD_TIMEOUT (R98): 10 ms in HOLD without resuming. -/
def holdTimeoutEffect (r : RidgeId) (s : State) : State :=
  if s.ridges[r].st = .hold ∧ msTicks 10 ≤ s.ticks - s.ridges[r].holdSince ∧ !bearSafe s ∧ !s.owl.shutdown then
    parkCheck (ridgeFault s r 6 none false)
  else s

def execHoldTimeout (r : RidgeId) (s : State) : Host.Outcome State Fault Refusal := done s (holdTimeoutEffect r s)

end Sys2Proof.Machine
end

