-- ==== Sys2Proof/Machine/Pins.lean ====
section
/-! DEFINITION. The pin channels (chapter 5): mode changes, driver overcurrent, PMU compliance and comparator
transitions. -/

namespace Sys2Proof.Machine

/-- The active load is connected (R135). -/
def loadOn (s : State) (p : PinId) : Bool :=
  s.pins[p].mode == 1 && isSet s (pinW p 0) 2 && s.pins[p].edge == .hiz

/-- The pull of a mode (Table 5-1): connected in SAFE, else as PIN_CFG.PULL. -/
def pullOf (s : State) (p : PinId) (mode : Nat) : Bool := mode == 0 || isSet s (pinW p 0) 7

/-- A PIN_CFG write that leaves MODE unchanged sets the pull (R130, Table 5-1). -/
def pullAsSet (s : State) (p : PinId) : State :=
  if s.pins[p].changing || pinSafe s (pinRidge p) then s
  else modPin s p fun x => { x with pull := pullOf s p x.mode.toNat }

/-- A mode change starts: what leaves the pin is disconnected (R129, R130), the pull of SAFE among it (Table 5-2); tickets that wait
for the pin's mode end (R226). -/
def startModeChange (s : State) (p : PinId) (from_ : Nat) : State :=
  let pull := if from_ = 0 then isSet s (pinW p 0) 7 else s.pins[p].pull
  endUnready (modPin s p fun x =>
    { x.blind s.now with drv := .hiz, edge := .hiz, mode := 0, changing := true, pull := pull, complyNow := false })

/-- Level of a code in 1/128 µV: a code is 122.0703125 µV, and 0x4000 is 0 V (R138). -/
def levelOf (code : Nat) : Int := ((code : Int) - 16384) * 15625

/-- h/2 of PIN_CFG.HYST in 1/128 µV (Table 5-14). -/
def halfHyst (s : State) (p : PinId) : Int :=
  ([0, 2, 5, 10, 20, 40, 80, 160].getD (field s (pinW p 0) 6 4) 0 : Nat) * 64000

/-- One threshold comparator with hysteresis: above, below, or as it was (R136). -/
def threshold (was : Bool) (up down : Bool) : Bool := if up then true else if down then false else was

/-- The two comparators at a pin voltage (R136). -/
def comparators (s : State) (p : PinId) (v : Int) : Bool × Bool :=
  let x := s.pins[p]
  let voh := levelOf (field s (pinW p 4) 15 0)
  let vol := levelOf (field s (pinW p 5) 15 0)
  let h := halfHyst s p
  (threshold x.aboveVoh (decide (voh + h < v)) (decide (v < voh - h)),
   threshold x.belowVol (decide (v < vol - h)) (decide (vol + h < v)))

/-- The reported state: H before L before M (R136). -/
def cmpState (aboveVoh belowVol : Bool) : Cmp := if aboveVoh then .high else if belowVol then .low else .mid

/-- The comparator takes the state of the pin at a voltage (R136, R137). -/
def compareAt (s : State) (p : PinId) (v : Int) : Cmp × State :=
  let (hi, lo) := comparators s p v
  (cmpState hi lo, modPin s p fun x => { x with aboveVoh := hi, belowVol := lo })

/-- PIN_MODE_DONE (R129, R130, R137): what joins the pin is connected, the comparator takes the state of the pin, at the voltage
given, and the reply is written. -/
def pinModeDoneEffect (p : PinId) (v : Int) (s : State) : State :=
  if !s.pins[p].changing || pinSafe s (pinRidge p) then s
  else
    let m := field s (pinW p 0) 1 0
    let (c, t) := if m = 0 then (Cmp.mid, s) else compareAt s p v
    serveWaits (modPin t p fun x =>
      { x with mode := BitVec.ofNat 2 m, changing := false, pull := pullOf s p m,
               hist := if m = 0 then x.hist else (s.now, some c) :: x.hist })

def execPinModeDone (p : PinId) (v : Int) (s : State) : Host.Outcome State Fault Refusal := done s (pinModeDoneEffect p v s)

/-- DRIVER_OVERCURRENT (R133, R380): the driver is latched in HIZ; a pin of a site costs the site its run, any other pin
raises the event. A driver at high-Z carries no current. -/
def driverOvercurrentEffect (p : PinId) (s : State) : State :=
  let r := pinRidge p
  if s.pins[p].drv = .hiz then s
  else
    let s := setBits (modPin s p fun x => { x with drv := .hiz }) (pinW p 15) 16
    match siteOf s p with
    | some k => contained s ⟨Fin.castLE (by decide) r, 9, .contained, 3, k.val, some p.val, false, false⟩ (abortSite k)
    | none => raise s (0x40 + r.val) p.val

def execDriverOvercurrent (p : PinId) (s : State) : Host.Outcome State Fault Refusal := done s (driverOvercurrentEffect p s)

def selIsPin (p : PinId) (sel : BitVec 16) : Bool := decide (selPin sel.toNat = some p)

/-- PMU_COMPLIANCE (R149). -/
def pmuComplianceEffect (p : PinId) (s : State) : State :=
  if s.pins[p].mode ≠ 2 ∨ s.pins[p].complyNow then s
  else
    let s := setBits (modPin s p fun x => { x with complyNow := true }) (pinW p 15) 1
    markMeasures (raise s (0x50 + (pinRidge p).val) p.val) (selIsPin p) fun j => { j with comply := true }

def execPmuCompliance (p : PinId) (s : State) : Host.Outcome State Fault Refusal := done s (pmuComplianceEffect p s)

/-- PMU_COMPLIANCE_END (R149). -/
def pmuComplianceEndEffect (p : PinId) (s : State) : State := modPin s p fun x => { x with complyNow := false }

def execPmuComplianceEnd (p : PinId) (s : State) : Host.Outcome State Fault Refusal := done s (pmuComplianceEndEffect p s)

/-- The stream of the pin's ridge records a transition at this time (R37, R208). -/
def records (s : State) (p : PinId) (t : T64) : Bool :=
  let x := s.ridges[pinRidge p]
  match x.stream with
  | none => false
  | some y =>
    y.active && y.lanes.getLsbD (pinLane p).val && !later y.since t &&
      (match x.ended with | none => true | some e => later (e + ticksFu 32) t)

/-- COMPARATOR_TRANSITION (R37, R136, R137, R203, R216): the pin's voltage has moved to v at the stamp, an instant of the present
tick; a new state goes to the comparator's history, the capture stream and the TIMUs. -/
def comparatorTransitionEffect (p : PinId) (v : Int) (t : T64) (s : State) : State :=
  match s.pins[p].hist with
  | (t0, some c0) :: _ =>
    if later t0 t ∨ !reached s.now t ∨ !later t (s.now - 1024) then s
    else
      let keep := records s p t
      let (c, s) := compareAt s p v
      if c = c0 then s
      else
        let s := modPin s p fun x => { x with hist := (t, some c) :: x.hist }
        let s := if keep then offer s (pinRidge p) t (pinLane p) c else s
        timuSee s p c0 c t
  | _ => s

def execComparatorTransition (p : PinId) (v : Int) (t : T64) (s : State) : Host.Outcome State Fault Refusal :=
  done s (comparatorTransitionEffect p v t s)

/-- BOOSTER_FAULT (R167): BSTn_FLT_N has been low for 1 µs while BSTn_EN is high. -/
def boosterFaultEffect (n : RidgeId) (s : State) : State :=
  if !s.dps[n].boostEn then s
  else
    let s := dpsFault (modDps s n fun x => { x with boostEn := false }) n
    parkCheck (ridgeFault s n 7 none false)

def execBoosterFault (n : RidgeId) (s : State) : Host.Outcome State Fault Refusal := done s (boosterFaultEffect n s)

end Sys2Proof.Machine
end

