-- ==== Sys2Proof/Machine/Inject.lean ====
section
/-! DEFINITION. The injection points whose outcome can be fatal, on the ticket table, Marten's tables and the HBM PHY
(R390), and the commands that reach them. -/

namespace Sys2Proof.Machine

/-- An access of a source meets a pending injection: one inverted bit is corrected, two have the source's uncorrectable
outcome (R390). -/
def strike (s : State) (b : Fin 64) (double : State → State) : State :=
  match accessInject s b with
  | (s, none) => s
  | (s, some false) => corrected s b 0 true
  | (s, some true) => double s

/-- A write of the ticket table, when a ticket has been issued. -/
def ticketWrite (s t : State) : State :=
  if t.tickets.length ≤ s.tickets.length then t else strike t 25 fun u => fatalDeferred u 25 1 true

/-- A write of Marten's tables, when a ticket was issued or a frame allocated. -/
def martenWrite (s t : State) : State :=
  if t.tickets.length ≤ s.tickets.length ∧ t.store.used.length ≤ s.store.used.length then t
  else strike t 29 fun u => fatalDeferred u 29 0 true

/-- A command of the HBM controller to its PHY, when a row has read or written HBM: an injected parity error is an immediate
fatal fault. -/
def phyCommand (s t : State) : State :=
  match injectOn t 22 with
  | none => t
  | some _ => if t = s then t else fatal (useInject t 22) 22 1 false true

def execMeasure (h : Hdr) (selector nMinus1 : BitVec 16) (conv : BitVec 6) (pinned : Bool) (queue : BitVec 16) (s : State) :
    Host.Outcome State Fault Refusal :=
  done s (martenWrite s (ticketWrite s (measureEffect h selector nMinus1 conv pinned queue s)))

def execTimeMeasure (h : Hdr) (pinA edges pinB timu : Byte) (count queue : BitVec 16) (limit : BitVec 64) (s : State) :
    Host.Outcome State Fault Refusal :=
  done s (martenWrite s (ticketWrite s
    (timeMeasureEffect h ⟨pinA, edges, pinB, timu, count.toNat, queue.toNat % 16384, limit.toNat⟩ s)))

def execCaptureArm (h : Hdr) (bySite siteLanes : Bool) (site : Byte) (laneMask frames queue : BitVec 16) (buf : BitVec 64)
    (nb : Word) (s : State) : Host.Outcome State Fault Refusal :=
  done s (martenWrite s (ticketWrite s (captureArmEffect h
    ⟨bySite, siteLanes, site.toNat, laneMask, frames.toNat, queue.toNat % 16384, buf, nb.toNat⟩ s)))

def execAcqArm (h : Hdr) (dig awg stream : Bool) (k : BitVec 16) (pre post : Word) (frames queue : BitVec 16) (buf : BitVec 64)
    (nb : Word) (s : State) : Host.Outcome State Fault Refusal :=
  done s (martenWrite s (ticketWrite s (acqArmEffect h
    ⟨dig, awg, stream, k.toNat, pre.toNat, post.toNat, frames.toNat, queue.toNat % 16384, buf, nb.toNat⟩ s)))

def execSegLoad (h : Hdr) (handle : Word) (addr : BitVec 64) (s : State) : Host.Outcome State Fault Refusal :=
  done s (martenWrite s (segLoadEffect h handle addr s))

def execSegLoadDone (k : Handle) (i : SegImage) (s : State) : Host.Outcome State Fault Refusal :=
  done s (phyCommand s (segLoadDoneEffect k i s))

def execAnalogBlockCopy (n : RidgeId) (read : Secded) (s : State) : Host.Outcome State Fault Refusal :=
  done s (phyCommand s (analogBlockCopyEffect n read s))

def execCaptureBlockCopy (r : RidgeId) (read : Secded) (s : State) : Host.Outcome State Fault Refusal :=
  done s (phyCommand s (captureBlockCopyEffect r read s))

def execStagingFetchDone (r : RidgeId) (h : Handle) (read : Secded) (s : State) : Host.Outcome State Fault Refusal :=
  done s (phyCommand s (stagingFetchDoneEffect r h read s))

end Sys2Proof.Machine
end

