-- ==== Sys2Proof/Machine/Resets.lean ====
section
/-! DEFINITION. What a reset of each kind leaves: POR_N, a host reset, the reset of one ridge island, and the cols between a
reset island and a running one (chapters 16, 17, 19). -/

namespace Sys2Proof.Machine

/-! ### Cols (R402) -/

/-- The second-named island of some cols saw the first one reset (Table 17-5). -/
def peerResetB (s : State) (cs : List Nat) : State := each cs (fun s c => modCol s c fun x => { x with rstB := true }) s

/-- The first-named island of some cols saw the second one reset. -/
def peerResetA (s : State) (cs : List Nat) : State := each cs (fun s c => modCol s c fun x => { x with rstA := true }) s

/-- Words that a col drops; the counter saturates. -/
def Col.drop (n : Nat) (x : Col) : Col := { x with drops := BitVec.ofNat 32 (min 0xFFFFFFFF (x.drops.toNat + n)) }

/-- The cols over which an island other than AON asks the event router (R427). -/
def asksRouter (c : Nat) : Bool := (16 ≤ c && c ≤ 31) || c == 40 || c == 43

/-- Words in flight on a col, one at most in each direction (R396): toward AON the event request that the model holds, and of
every other kind of word a free value (log entry 2). -/
def flying (s : State) (c : Nat) : Nat :=
  (if asksRouter c then (flightOf s c).isSome else Config.inFlight s.free c true).toNat + (Config.inFlight s.free c false).toNat

/-- A col returns to idle: the words in flight are dropped and counted (R402). -/
def idleCol (s : State) (c : Nat) : State :=
  let n := flying s c
  modCol { s with events := { s.events with flight := sput flightDflt s.events.flight c none } } c (Col.drop n)

/-- Cols that return to idle together. -/
def idleCols (s : State) (cs : List Nat) : State := tickFree (each cs idleCol s)

/-- A reset island loses the event counters it holds. -/
def loseEvents (s : State) (cs : List Nat) : State :=
  let stays := fun (e : Nat × EvtSrc) => match colOf e.1 with | some c => !cs.contains c | none => true
  { s with events := { s.events with src := s.events.src.filter stays } }

/-! ### Words that take their reset value from the straps (R304, R319) -/

def strapWords (s : State) : State :=
  let z := s.boot.straps
  let s := putField s gCAIRNCFG 0 0 (if z.mstr && z.ringId == 0 then 1 else 0)
  let s := putField s (gCSPCFG 0) 0 0 (if z.csp0Slave then 1 else 0)
  let s := putField s (gCSPCFG 1) 0 0 (if z.csp1Slave then 1 else 0)
  { s with cairn := { s.cairn with root := z.mstr && z.ringId == 0 } }

/-- Fuse rows are sensed at STAGE 0; an uncorrectable row is a contained fault (R342, Table 16-3). -/
def senseFuses (s : State) : State :=
  let f := s.boot.fuses
  if f.rowError || f.keyRowError || f.debugRowError then contained s ⟨38, 0, .contained, 0, 0, none, false, false⟩ id else s

/-! ### Host reset and POR_N (R371, R389, R423, R424) -/

/-- Bear after a host reset: the log, the latch and the recovery counter stay; the window count and FAULTED are cleared. -/
def Bear.afterHostReset (b : Bear) : Bear :=
  { Bear.reset with latch := b.latch, log := b.log, recovCnt := b.recovCnt, lastEnd := b.lastEnd, asserted := b.asserted }

/-- The cols that join AON with an island that a host reset resets. -/
def aonCols : List Nat := (List.range 16).map (16 + ·) ++ [40, 41, 42, 43, 44, 45, 46]

/-- The 7264 at STAGE 0 of Table 14-1, with the AON island and the flash as they were. The words in flight on the cols to AON are
dropped and counted (R402). A latched thermal shutdown stays. -/
def hostReset (s : State) (straps : Straps) : State :=
  if s.owl.shutdown then s
  else
    let lost := each aonCols (fun t c => modCol t c (Col.drop (flying s c))) State.reset
    let t : State :=
      { lost with
        now := 0, ticks := s.ticks, free := s.free + 1, host := s.host
        boot := { Boot.reset with straps := straps, fuses := s.boot.fuses, por := s.boot.por, since := s.ticks,
                                  resonator := s.boot.resonator, refclk := s.boot.refclk }
        flash := s.flash, sensors := s.sensors, smons := s.smons, pmons := s.pmons, owl := s.owl
        events := { s.events with src := s.events.src.filter fun e => decide (colOf e.1 = none), flight := [] }
        bear := s.bear.afterHostReset, pending := s.pending }
    strapWords (peerResetB (senseFuses t) aonCols)

/-- POR_N_ASSERT (R424): every island is reset, AON included, and the fault log is cleared. Only the removal of VAUX ends a
latched thermal shutdown. -/
def porNAssertEffect (s : State) : State :=
  { State.reset with ticks := s.ticks, free := s.free, host := s.host, flash := s.flash,
                     owl := { Owl.reset with shutdown := s.owl.shutdown }, pending := s.pending }

def execPorNAssert (s : State) : Host.Outcome State Fault Refusal := done s (porNAssertEffect s)

/-- POR_RELEASE (R121, R342, R423, R424): the straps are sampled, the fuses sensed, and STAGE 0 begins. -/
def porReleaseEffect (z : Straps) (f : Fuses) (s : State) : State :=
  if !s.boot.por then s
  else senseFuses (strapWords { s with boot := { s.boot with
    por := false, straps := z, fuses := f, since := s.ticks, resonator := !z.refclkClean, refclk := z.refclkClean } })

def execPorRelease (z : Straps) (f : Fuses) (s : State) : Host.Outcome State Fault Refusal := done s (porReleaseEffect z f s)

/-! ### Reset of one ridge island (R403, R404) -/

/-- A gang partner of the ridge runs, holds or is parked. -/
def partnerRuns (s : State) (r : RidgeId) : Bool :=
  (gang s r).any fun q => decide (q ≠ r) && (match s.ridges[q].st with | .running | .hold | .parked => true | _ => false)

/-- The sequencer as the reset leaves it: UNBOUND, no arm, no slot hold; the timing-set memory stays. -/
def Ridge.resetIsland (x : Ridge) (ticks : Nat) : Ridge :=
  { Ridge.reset with inReset := true, holdSince := ticks, banks := x.banks, activeBank := x.activeBank, copyBusy := x.copyBusy,
                     owlNext := x.owlNext, delivered := x.delivered }

/-- The ridge island enters reset. -/
def resetRidge (s : State) (r : RidgeId) : State :=
  let s := endTickets s (ticketOn [r]) ABORTED_RESET
  let s := each ((gang s r).filter fun q => decide (q ≠ r ∧ s.ridges[q].st = .armed)) cancelLaunch s
  let s := stopAwg (idleSwap s r s.now) r
  let s := modR s r fun x => x.resetIsland s.ticks
  let s := loseEvents (idleCols (peerResetB s [r.val, 16 + r.val]) [r.val, 16 + r.val]) [16 + r.val]
  serveWaits (dpsFault (restage s allRidges) r)

/-- RIDGE_RESET_RELEASE (R404): 10 µs have passed; the sequencer is UNBOUND and the reply is written. -/
def ridgeResetReleaseEffect (r : RidgeId) (s : State) : State :=
  if s.ridges[r].inReset ∧ usTicks 10 ≤ s.ticks - s.ridges[r].holdSince then
    serveWaits (restage (modR s r fun x => { x.unbind with inReset := false }) [r])
  else s

def execRidgeResetRelease (r : RidgeId) (s : State) : Host.Outcome State Fault Refusal := done s (ridgeResetReleaseEffect r s)

end Sys2Proof.Machine
end

