-- ==== Sys2Proof/Machine/ParamRead.lean ====
section
/-! DEFINITION. What each word of the parameter map reads as (chapters 4 to 18), and what a read does: RC words clear, and the
low word of a 64-bit counter takes a snapshot (R7, R8, R401). -/

namespace Sys2Proof.Machine

/-- Bits i below n at which p holds. -/
def bitsWhere (n : Nat) (p : Nat → Bool) : Nat := (List.range n).foldl (fun v i => v + flag (p i) i) 0

/-! ### Held resources (Tables 8-13, 9-7) -/

/-- The converter is held: by CAL_RUN, or inside a booking's interval. -/
def convHeld (s : State) (c : Nat) : Bool :=
  convInCal s c || s.tickets.any fun t => match t.job with
    | .measure j => t.booked && decide (j.conv = c) && decide ((j.interval s.now).1 ≤ 0)
    | _ => false

def trunkHeld (s : State) (k : Nat) : Bool :=
  s.tickets.any fun t => match t.job with
    | .measure j => t.booked && decide (j.trunk = some k) && decide ((j.interval s.now).1 ≤ 0)
    | _ => false

def timuHeld (s : State) (u : Nat) : Bool :=
  s.tickets.any fun t => match t.job with
    | .timu j => t.booked && decide (j.timu = u) && decide ((j.interval s.now).1 ≤ 0)
    | _ => false

/-! ### Words of one unit -/

def pinStatus (s : State) (p : PinId) : Nat :=
  let x := s.pins[p]
  word s (pinW p 15) + flag x.complyNow 1 + flag (pinSafe s (pinRidge p) || field s (pinW p 0) 1 0 == 0) 5 +
    64 * (match x.hist with | (_, some c) :: _ => Cmp.code c | _ => 3)

def ridgeStatus (s : State) (r : RidgeId) : Nat :=
  let x := s.ridges[r]
  word s (rdgW r 1) + x.st.code + flag x.failSeen 4 + flag (decide (1 < (gang s r).length)) 5 + flag x.ckptValid 6 +
    x.checkpoint.toNat * 65536

def readRidge (s : State) (r : RidgeId) (w : Nat) : Nat :=
  let x := s.ridges[r]
  let v := word s (rdgW r w)
  match w with
  | 0x01 => ridgeStatus s r
  | 0x11 => (x.resident.length + x.fetches.length + x.lent.length) % 4096 + requirement s r % 4096 * 65536
  | 0x12 => v + flag x.bodyOver 1 + flag (initStaged s r) 3
  | 0x18 => v + x.owlK * 65536
  | 0x19 => v + flag x.activeBank 0 + flag x.swapPending 1 + flag x.copyBusy 2
  | 0x21 => v + flag x.stream.isSome 0 + flag (match x.stream with | some y => y.active | none => false) 1
  | 0x23 => (x.stream.toList ++ x.tails).foldl (fun n y => n + (y.closed.length - y.copied)) 0
  | _ => v

/-- The magnitude of the limit in force, as a current code (R153, R172, R173). Of the two limits of DPS_ILIM it is the one on the side of
the last window's current, the high one at 0 and in OFF. DESIGN CHOICE, log entry 63. -/
def ilimEff (s : State) (n : RidgeId) : Nat :=
  let x := s.dps[n]
  let v := x.ilimNow.toNat
  let limit := match x.out with
    | .fi => x.target.natAbs
    | _ => if x.current < 0 then (signed 16 (bits v 15 0)).natAbs else (signed 16 (bits v 31 16)).natAbs
  match x.effLimit with | some e => min e limit | none => limit

def readDps (s : State) (n : RidgeId) (w : Nat) : Nat :=
  let x := s.dps[n]
  match w with
  | 13 => word s (dpsW n 13) + flag x.limitNow 1 + flag x.complyNow 3 + flag (decide (x.level ≠ x.target)) 6
  | 14 => min 65535 x.power
  | 15 => min 65535 (ilimEff s n)
  | _ => word s (dpsW n w)

def readPort (s : State) (n : RidgeId) (w : Nat) : Nat :=
  let p := s.ports[n]
  match w with
  | 14 => word s (aptW n 14) + flag p.awg.isSome 0 + flag (acqOn p) 1
  | 17 => (p.tails ++ p.acq.toList).foldl (fun k a => k + a.fill) 0 % 8192 + (match p.acq with | some a => a.decim * 65536 | none => 0)
  | _ => word s (aptW n w)

/-! ### Global words -/

/-- Sensor that reads highest, the lowest-numbered on a tie (R357). -/
def hottest (s : State) : Fin 24 :=
  (List.finRange 24).foldl (fun b i => if s.sensors[b].value < s.sensors[i].value then i else b) 0

def thermMax (s : State) : Int := s.sensors[hottest s].value

def anyBroken (s : State) : Bool := s.sensors.toList.any (·.broken)

/-- GLB_STATUS (Table 18-6). -/
def statusWord (s : State) : Nat :=
  flag (s.boot.mode != .normal) 0 + flag s.ring.quarantined 1 +
    flag (s.owl.state != .normal || s.sensors.toList.any fun x => !x.converted) 2 +
    flag (s.boot.foxUp && s.boot.romLoader) 3 + flag (booted s) 4 + flag (s.bear.state != .normal) 5 + flag s.owl.shutdown 6

/-- GLB_BOOT_STATUS (Table 14-11). -/
def bootWord (s : State) : Nat :=
  let b := s.boot
  b.stage.toNat + 8 * b.fwResult.toNat + 64 * b.patchResult.toNat + 1024 * b.rsiSource.toNat + flag b.rsiRefused 12 +
    flag b.calForeign 13

/-- Copy A or B (R352): the valid slot with this label and the highest generation, the lower-numbered on a tie. -/
def copyOf (f : Flash) (b : Bool) : Option (Fin 3) :=
  (List.finRange 3).foldl (fun best k => match f.slots[k] with
    | none => best
    | some x =>
      if x.copyB ≠ b then best
      else match best with
        | none => some k
        | some j => match f.slots[j] with
          | some y => if y.generation < x.generation then some k else some j
          | none => some k) none

def generationOf (f : Flash) (k : Option (Fin 3)) : Nat :=
  match k with
  | none => 0
  | some j => match f.slots[j] with | some x => x.generation.toNat | none => 0

/-- A ridge has left the ±10 °C of its last CAL_RUN (R344). -/
def tempDrift (s : State) : Bool :=
  s.cal.valid && allRidges.any fun r =>
    calWord s 5 r.val 1 != 0 &&
      decide (100 < (s.sensors[Fin.castLE (by decide : 16 ≤ 24) r].value - signed 16 (calWord s 5 r.val 0)).natAbs)

/-- Recoveries started in the last WINDOW minutes (R388). -/
def windowCount (s : State) : Nat :=
  (s.bear.recoveries.filter fun t => decide (s.ticks - t < msTicks (60000 * field s gFAULTCFG 27 22))).length

def BearState.code : BearState → Nat
  | .normal => 0 | .parking => 1 | .safe => 2 | .recovering => 3 | .faulted => 4

def OwlState.code : OwlState → Nat
  | .normal => 0 | .request => 1 | .step1 => 2 | .step2 => 3

def sensorWord (x : Sensor) : Nat := unsign 16 x.value

/-- The router's count of delivered occurrences (GLB_EVT_CNT). -/
def totalDflt : Nat → Nat × Bool := fun _ => (0, false)

def readGlobal (s : State) (i : Nat) : Nat :=
  let v := word s i
  match i - 0x1800 with
  | 0x001 => statusWord s
  | 0x080 => freeFrames s
  | 0x081 => s.store.images.length
  | 0x082 => (s.store.images.filter fun e => match e.2 with | some x => x.relPending | none => false).length
  | 0x091 => v + flag s.boot.refclk 0 + flag s.boot.resonator 1 + flag (s.sensors[Config.coreSensor]).broken 3
  | 0x094 => s.now.toNat % 2 ^ 32
  | 0x095 => s.now.toNat / 2 ^ 32
  | 0x0A0 => min 65535 (dpsTotal s)
  | 0x0B0 => s.tickets.length
  | 0x0B1 => bitsWhere 32 (timuHeld s)
  | 0x0B2 => bitsWhere 32 (convHeld s)
  | 0x0B3 => bitsWhere 32 fun c => convHeld s (32 + c)
  | 0x0C3 => s.store.awaiting.length
  | 0x0C4 => s.cal.oos.toNat % 2 ^ 32
  | 0x0C5 => s.cal.oos.toNat / 2 ^ 32
  | 0x0C6 => bitsWhere 32 (trunkHeld s)
  | 0x0C7 => sharedFree s
  | 0x0E0 => s.ring.position.toNat + 128 * s.boot.straps.ringId.toNat + flag s.ring.enumerated 10 + flag s.boot.straps.mstr 11
  | 0x0E2 => isSet s gRINGSTATUS 5 |> fun b => s.ring.state.toNat + flag s.ring.twoSummit 2 + flag (!s.ring.aUp) 3 +
      flag (!s.ring.bUp) 4 + flag b 5
  | 0x0E3 => min 65535 (ringBound s)
  | 0x0E6 => v + flag s.cairn.locked 0 + flag s.cairn.stepHeld 1 + flag (!s.cairn.fed) 6 + flag s.cairn.extParent 7
  | 0x0E7 => s.cairn.epoch.toNat % 2 ^ 32
  | 0x0E8 => s.cairn.epoch.toNat / 2 ^ 32
  | 0x0F1 => v + flag s.xip.cont 2
  | 0x100 => bootWord s
  | 0x102 => generationOf s.flash (copyOf s.flash false)
  | 0x103 => generationOf s.flash (copyOf s.flash true)
  | 0x106 => v + flag (tempDrift s) 6 + flag (!s.cal.valid) 7 + flag s.cal.running 8
  | 0x109 =>
    let k := field s gCALSEL 15 0
    calWord s (k / 8192) (k % 256) (k / 256 % 32)
  | 0x10A => flag (s.boot.fuses.debug || s.boot.fuses.debugRowError) 0 + flag (s.boot.fuses.rowError || s.boot.fuses.keyRowError || s.boot.fuses.debugRowError) 1
  | 0x110 => sensorWord s.sensors[hottest s] + 65536 * (hottest s).val + flag (s.sensors[hottest s]).broken 21
  | 0x112 => v + s.owl.state.code + flag (anyBroken s) 4 + flag s.owl.shutdown 5 +
      65536 * bitsWhere 16 fun r => decide ((s.ridges[Fin.ofNat 16 r]).owlK ≠ 0)
  | 0x113 => v + bitsWhere 12 fun m => (s.smons[Fin.ofNat 12 m]).warn
  | 0x117 =>
    let t := sget totalDflt s.events.total (field s gEVTSEL 7 0)
    t.1 + flag t.2 31
  | 0x13D => (s.pmons[Fin.ofNat 20 (field s gPMONSEL 4 0)]).toNat
  | 0x140 => s.bear.latch.toNat % 2 ^ 32
  | 0x141 => s.bear.latch.toNat / 2 ^ 32
  | 0x145 => s.bear.state.code + 256 * min 255 (windowCount s) + 65536 * s.bear.log.length
  | 0x146 => s.bear.recovCnt.toNat
  | 0x151 => (sget colDflt s.cols (field s gCOLSEL 5 0)).drops.toNat
  | 0x152 =>
    let c := sget colDflt s.cols (field s gCOLSEL 5 0)
    flag c.rstA 0 + flag c.rstB 1 + flag c.ovf 2
  | k => if 0x124 ≤ k ∧ k ≤ 0x13B then
      (let x := s.sensors[Fin.ofNat 24 (k - 0x124)]; sensorWord x + flag x.broken 16) else v

/-- What a word of the map holds when Badger reads it; a reserved index and a WO word read as zero (R7, R407). -/
def readValue (s : State) (i : Nat) : Nat :=
  match wordInfo i with
  | none => 0
  | some w =>
    if w.access = .wo then 0
    else match locate i with
      | (.pin, u, k) => if k = 15 then pinStatus s (Fin.ofNat 256 u) else word s i
      | (.ridge, u, k) => readRidge s (Fin.ofNat 16 u) k
      | (.dps, u, k) => readDps s (Fin.ofNat 16 u) k
      | (.port, u, k) => readPort s (Fin.ofNat 16 u) k
      | (.global, _, _) => readGlobal s i

/-! ### What a read does (R7, R8, R401) -/

/-- The word is the low half of a 64-bit counter; its high half follows it. -/
def isLow (i : Nat) : Bool :=
  (decide (0x1000 ≤ i ∧ i < 0x1400) && i % 64 == 0x1A) || i == 0x1894 || i == 0x18E7 || i == 0x1940

/-- An RC word returns to its reset value. -/
def clearOnRead (s : State) (i : Nat) : State :=
  match wordInfo i with
  | none => s
  | some w =>
    if w.access ≠ .rc then s
    else if i = 0x1917 then
      { s with events := { s.events with total := sput totalDflt s.events.total (field s gEVTSEL 7 0) (0, false) } }
    else if i = 0x1951 then modCol s (field s gCOLSEL 5 0) fun c => { c with drops := 0 }
    else putWord s i w.reset

/-- Key of an access path for its snapshots (R401). -/
def Path.key : Path → Nat
  | .window => 0
  | .packet h => 1 + h.ring.val
  | .slave n => 65 + n.val
  | .bar0 _ | .config _ => 67

/-- One word read by Badger on an access path. -/
def readWord (s : State) (k i : Nat) : Word × State :=
  let held := s.link.snaps.find? fun x => decide (x.1 = k ∧ x.2.1 = i)
  match held with
  | some x => (x.2.2, { s with link := { s.link with snaps := s.link.snaps.filter fun y => !decide (y.1 = k ∧ y.2.1 = i) } })
  | none =>
    let v := BitVec.ofNat 32 (readValue s i)
    if isLow i then
      let rest := s.link.snaps.filter fun y => !decide (y.1 = k ∧ y.2.1 = i + 1)
      (v, { s with link := { s.link with snaps := rest ++ [(k, i + 1, BitVec.ofNat 32 (readValue s (i + 1)))] } })
    else (v, clearOnRead s i)

/-- Consecutive words read in order. -/
def readWords (k : Nat) : Nat → Nat → State → List Word × State
  | 0, _, s => ([], s)
  | n + 1, i, s =>
    let (v, s) := readWord s k i
    let (vs, s) := readWords k n (i + 1) s
    (v :: vs, s)

/-- The words that the window serves: all of them; in the safe state, after a thermal shutdown, before STAGE 6 and in loader
mode the few that the rules name (R290, R334, R371, R385). -/
def served (s : State) (i : Nat) : Bool :=
  if s.owl.shutdown then
    i == gID || i == gSTATUS || i == 0x1910 || i == 0x1940 || i == 0x1941 || i == gOWLSTATUS
  else if bearSafe s then
    i == gID || i == gSTATUS || i == 0x1910 || (decide (0x1940 ≤ i) && decide (i ≤ 0x1948))
  else if s.boot.stage = 7 then i == gID || i == gSTATUS
  else booted s || i == gID || i == gSTATUS || i == 0x1900

/-- A window read, or the slave-port read that Badger serves in the same way. -/
def windowRead (s : State) (k i : Nat) : Word × State := if served s i then readWord s k i else (0, s)

end Sys2Proof.Machine
end

