-- ==== Sys2Proof/Machine/Params.lean ====
section
/-! DEFINITION. What a write of a parameter word does: its checks, its effect on the hardware behind it, and the packets, the
window and the timed writes that make it (Table 0-4, R6, R82, R128 to R170, R246, R284 to R290, R319, R404, R407). -/

namespace Sys2Proof.Machine

/-! ### Checks that depend on the state (R285) -/

/-- The word's owner runs (R406), or its port plays or acquires (Table 7-6). -/
def ownerRuns (s : State) (i : Nat) : Bool :=
  match locate i with
  | (.pin, u, _) => runs s (Fin.ofNat 16 (u / 16))
  | (.ridge, u, _) => runs s (Fin.ofNat 16 u)
  | (.dps, u, _) => runs s (Fin.ofNat 16 u)
  | (.port, u, _) => runs s (Fin.ofNat 16 u) || portBusy s.ports[(Fin.ofNat 16 u : Fin 16)]
  | (.global, _, _) => false

/-- PIN_PMU_LEVEL and PIN_PMU_CLAMP under FORCE (R146, R147, Table 5-8). -/
def pmuOk (fi : Bool) (w v : Nat) : Bool :=
  if w = 12 then (if fi then v != 0x8000 else inRange 0x1000 0xF000 v)
  else if fi then inRange 0x1000 0xF000 (bits v 15 0) && inRange 0x1000 0xF000 (bits v 31 16) && decide (bits v 15 0 < bits v 31 16)
  else currentPair v

/-- DPS_CFG against the present mode, the booster and DPS_LEVEL (R151, R153). -/
def dpsCfgOk (s : State) (n : RidgeId) (v : Nat) : Bool :=
  let m := bits v 1 0
  let old := dpsMode s n
  let lv := field s (dpsW n 1) 15 0
  !(m == 1 && old == 2) && !(m == 2 && old == 1) && (bits v 4 2 != 5 || isSet s (dpsW n 12) 0) &&
    !(m == 1 && decide (60000 < lv)) && !(m == 2 && lv == 0x8000)

/-- DPS_LEVEL in the present mode (R153). -/
def dpsLevelOk (s : State) (n : RidgeId) (v : Nat) : Bool :=
  match dpsMode s n with
  | 1 => decide (v ≤ 60000)
  | 2 => v != 0x8000
  | _ => true

/-- RDG_SLOT_QUOTA against the sum and the binding requirement (R82, R91). -/
def quotaOk (s : State) (r : RidgeId) (v : Nat) : Bool :=
  let sum := allRidges.foldl (fun n q => n + if q = r then v else quota s q) 0
  decide (sum ≤ 3072) && decide (requirement s r + s.ridges[r].pins.length ≤ v)

/-- Nothing is placed: replay mode can begin (R246). -/
def replayReady (s : State) : Bool :=
  s.tickets == [] && (allRidges.all fun r => decide (s.ridges[r].st = .unbound)) && s.ports.toList.all (fun p => !awgPlays p) &&
    s.store.images == []

/-- A flash operation runs. -/
def flashBusy (s : State) : Bool := s.link.longs.any fun l => l.job.holds.any fun x => decide (x = .flash)

/-- A select of the port is asserted: Fox reads the flash on CSP0. A frame on a slave port is whole in its row. -/
def selectOn (s : State) (n : Fin 2) : Bool := n == 0 && s.xip.filling != []

/-- A ROLE write is refused (R319): while a select is asserted or a flash operation runs, and where it takes the flash from Fox. -/
def roleBusy (s : State) (n : Fin 2) (role : Nat) : Bool :=
  role != field s (gCSPCFG n) 0 0 &&
    (selectOn s n || flashBusy s || (n == 0 && role == 1 && !(s.boot.foxUp && s.boot.romLoader)))

/-- The refusal of a value that the state does not admit. -/
def stateRefusal (s : State) (i v : Nat) : Option Nat :=
  let bad := fun (ok : Bool) => if ok then none else some BAD_PARAM
  let busy := fun (b : Bool) => if b then some BUSY else none
  match locate i with
  | (.pin, u, w) => if w = 12 ∨ w = 13 then bad (pmuOk (isSet s (pinW (Fin.ofNat 256 u) 11) 0) w v) else none
  | (.ridge, u, w) =>
    let r : RidgeId := Fin.ofNat 16 u
    if w = 0x10 then bad (quotaOk s r v) else if w = 0x20 then bad (hostRdOk (word s i) v s.ridges[r].delivered) else none
  | (.dps, u, w) =>
    let n : RidgeId := Fin.ofNat 16 u
    if w = 0 then bad (dpsCfgOk s n v) else if w = 1 then bad (dpsLevelOk s n v) else none
  | (.port, u, w) => if w = 16 then bad (hostRdOk (word s i) v s.ports[(Fin.ofNat 16 u : Fin 16)].delivered) else none
  | (.global, _, _) =>
    if i = gSEED then busy (replayMode s)
    else if i = gMARTENCFG then busy (bit v 0 && !replayMode s && !replayReady s)
    else if i = gCSPCFG 0 then busy (roleBusy s 0 (bits v 0 0))
    else if i = gCSPCFG 1 then busy (roleBusy s 1 (bits v 0 0))
    else none

/-- RECLAIM is refused in replay mode while placed work is in flight (R248). -/
def reclaimBusy (s : State) : Bool :=
  replayMode s && ((allRidges.any fun r => runs s r) || s.ports.toList.any awgPlays ||
    s.tickets.any fun t => match t.job with | .capture _ _ => true | .acquire _ => true | _ => false)

/-- The refusal of a WO action. -/
def actionRefusal (s : State) (i v : Nat) : Option Nat :=
  match locate i with
  | (.ridge, u, _) => if bit v 0 && partnerRuns s (Fin.ofNat 16 u) then some BUSY else none
  | (.global, _, _) => if i = 0x18C2 ∧ bit v 0 ∧ reclaimBusy s then some BUSY else none
  | _ => none

/-- Why a write is refused: a reserved index, a value outside its range, a running owner, the state (R285, R407). A write
to an RO or RC word has no effect and is not refused (Table 0-4). -/
def writeRefusal (s : State) (i v : Nat) : Option Nat :=
  match wordInfo i with
  | none => some BAD_PARAM
  | some w =>
    let x := v &&& w.mask
    match w.access with
    | .ro | .rc | .w1c => none
    | .wo => actionRefusal s i x
    | .rw => if !staticOk i x then some BAD_PARAM else stateRefusal s i x
    | .rwl => if !staticOk i x then some BAD_PARAM else if ownerRuns s i then some BUSY else stateRefusal s i x

/-! ### Pins (R129, R130, R139 to R148) -/

/-- The code that an item of Table 14-7 class 0 corrects, in offset binary. -/
def pinCode (s : State) (p : PinId) (item : Nat) : Nat :=
  let fi := isSet s (pinW p 11) 0
  let off := fun (c : Nat) => (signed 16 c + 32768).toNat
  if item < 10 then field s (pinW p (item + 1)) 15 0
  else match (item - 10) % 4 with
    | 0 => field s (pinW p 12) 15 0
    | 1 => off (field s (pinW p 12) 15 0)
    | 2 => let c := field s (pinW p 13) 15 0; if fi then c else off c
    | _ => let c := field s (pinW p 13) 31 16; if fi then c else off c

/-- LEVEL_SAT where a bound cuts a corrected code (R140). -/
def markSat (s : State) (p : PinId) (items : List Nat) : State :=
  if items.any fun k => (correct (calWord s 0 p.val k) (pinCode s p k)).2 then setBits s (pinW p 15) 4 else s

/-- The PMU items in force: the forced quantity and the two clamps of the range. -/
def pmuItems (s : State) (p : PinId) (w : Nat) : List Nat :=
  let c := field s (pinW p 11) 3 0
  let base := 10 + 4 * (c / 2)
  if w = 12 then [base + c % 2] else [base + 2, base + 3]

/-- A level write: ORDER_BROKEN when a condition of R142 that held before it no longer holds, in a run (R143). -/
def pinLevelWrite (s : State) (p : PinId) (w v : Nat) : State :=
  let t := markSat (putWord s (pinW p w) v) p [w - 1]
  let breaks := (levelConditions s p).zip (levelConditions t p) |>.any fun c => c.1 && !c.2
  if runs s (pinRidge p) && field s (pinW p 0) 1 0 == 1 && breaks then setBits t (pinW p 15) 8 else t

/-- Full scale of a PMU range in nA (Table 5-7). -/
def pmuScale (range : Nat) : Nat × Nat := (if range = 0 then 32000000 else 20000000 / 10 ^ range, 1)

/-- Recode the current codes of a word half by half (R148, R154). -/
def recodeHalf (v lo : Nat) (a b : Nat × Nat) : Nat := unsign 16 (recode (signed 16 (v / 2 ^ lo)) a b) * 2 ^ lo

def pinPmuCfgWrite (s : State) (p : PinId) (v : Nat) : State :=
  let old := word s (pinW p 11)
  let s := putWord s (pinW p 11) v
  let a := pmuScale (bits old 3 1)
  let b := pmuScale (bits v 3 1)
  let s :=
    if bit old 0 ≠ bit v 0 then
      (if bit v 0 then putWord (putWord s (pinW p 12) 0) (pinW p 13) 0xF0001000
       else putWord (putWord s (pinW p 12) 0x4000) (pinW p 13) 0x7FFF8001)
    else if bits old 3 1 = bits v 3 1 then s
    else if bit v 0 then putWord s (pinW p 12) (recodeHalf (word s (pinW p 12)) 0 a b)
    else
      let c := word s (pinW p 13)
      putWord s (pinW p 13) (recodeHalf c 0 a b + recodeHalf c 16 a b)
  if old = v then s
  else
    let s := markSat s p (pmuItems s p 12 ++ pmuItems s p 13)
    if bits old 3 1 = bits v 3 1 then s
    else markMeasures s (fun sel => sel.toNat == 0x1000 + p.val) fun j => { j with rangeMoved := true }

def pinWrite (s : State) (p : PinId) (w v : Nat) : State :=
  if w = 0 then
    (let old := field s (pinW p 0) 1 0
     let s := putWord s (pinW p 0) v
     if bits v 1 0 = old then pullAsSet s p else startModeChange s p old)
  else if w ≤ 10 then pinLevelWrite s p w v
  else if w = 11 then pinPmuCfgWrite s p v
  else
    let s := putWord s (pinW p w) v
    if w = 12 ∨ w = 13 then markSat s p (pmuItems s p w) else s

/-! ### Supplies (R151 to R157, R164, R170) -/

/-- The forced value follows DPS_LEVEL where the output is on in the mode of DPS_CFG (R157, R158, R164). -/
def dpsLevelWrite (s : State) (n : RidgeId) (v : Nat) : State :=
  let s := putWord s (dpsW n 1) v
  let x := s.dps[n]
  if dpsHeld s n || dpsForcedOff s n || x.out == .off || x.closing || x.out != dpsWanted s n then s
  else dpsMove s n (dpsSlewEn s n) (dpsLevelWord s n)

/-- Recode the words that hold current codes to a new range (R154). -/
def dpsRecode (s : State) (n : RidgeId) (a b : Nat × Nat) (level : Bool) : State :=
  let il := word s (dpsW n 2)
  let s := putWord s (dpsW n 2) (recodeHalf il 0 a b + recodeHalf il 16 a b)
  let s := putWord s (dpsW n 8) (recodeHalf (word s (dpsW n 8)) 0 a b)
  let s := if level then putWord s (dpsW n 1) (recodeHalf (word s (dpsW n 1)) 0 a b) else s
  markMeasures s (fun sel => sel.toNat == 0x3000 + n.val) fun j => { j with rangeMoved := true }

def dpsCfgWrite (s : State) (n : RidgeId) (v : Nat) : State :=
  let mode := dpsMode s n
  let range := dpsRange s n
  let s := putWord s (dpsW n 0) v
  let s := if range = bits v 4 2 then s
    else dpsRecode s n (dpsScale s n range) (dpsScale s n (bits v 4 2)) (mode == 2 && bits v 1 0 == 2)
  dpsApply s n

def dpsWrite (s : State) (n : RidgeId) (w v : Nat) : State :=
  if w = 0 then dpsCfgWrite s n v
  else if w = 1 then dpsLevelWrite s n v
  else
    let s := putWord s (dpsW n w) v
    if w = 9 ∨ w = 10 then modDps s n fun x => { x with phaseReset := true }
    else if w = 2 ∧ !dpsHeld s n then modDps s n fun x => { x with ilimNow := BitVec.ofNat 32 v }
    else s

/-! ### The other blocks -/

def ridgeWrite (s : State) (r : RidgeId) (w v : Nat) : State :=
  let s := putWord s (rdgW r w) v
  if w = 0x10 then restage (reclaimLent s) [r] else s

def portWrite (s : State) (n : RidgeId) (w v : Nat) : State :=
  let s := putWord s (aptW n w) v
  if w = 4 ∨ w = 5 then ncoReset s n s.now else s

/-- GLB_MARTEN_CFG: leaving replay mode returns the frames that await RECLAIM (R248), entering it sets the allocation pointer to 0
(R240), and no slot stays lent in replay mode or without LEND_EN (R243). -/
def martenCfg (s : State) (was : Bool) (v : Nat) : State :=
  let s := if was && !bit v 0 then { s with store := { s.store with awaiting := [] } } else s
  let s := if !was && bit v 0 then { s with store := { s.store with ptr := 0 } } else s
  if bit v 0 || !bit v 1 then endLending s else s

/-- A DIV written while no select is asserted is in force at once (R320). -/
def cspCfg (s : State) (n : Fin 2) : State :=
  if selectOn s n then s else modCsp s n fun x => { x with div := BitVec.ofNat 8 (field s (gCSPCFG n) 15 8) }

def globalWrite (s : State) (i v : Nat) : State :=
  let was := replayMode s
  let s := putWord s i v
  if i = gMARTENCFG then martenCfg s was v else if i = gEXTDLY then spreadDly s
  else if i = gCSPCFG 0 then cspCfg s 0 else if i = gCSPCFG 1 then cspCfg s 1 else s

/-- A checked value takes effect in its word. -/
def applyWord (s : State) (i v : Nat) : State :=
  match locate i with
  | (.pin, u, w) => pinWrite s (Fin.ofNat 256 u) w v
  | (.ridge, u, w) => ridgeWrite s (Fin.ofNat 16 u) w v
  | (.dps, u, w) => dpsWrite s (Fin.ofNat 16 u) w v
  | (.port, u, w) => portWrite s (Fin.ofNat 16 u) w v
  | (.global, _, _) => globalWrite s i v

/-! ### Sticky bits and actions -/

/-- Queues and completion rings are written again once latch bit 33 is cleared (R376). -/
def unblock (s : State) : State :=
  let s := each (skeys s.queues) (fun s id => modQ s id fun q => { q with blocked := false }) s
  each (List.finRange 64) deliver { s with cq := s.cq.map fun c => { c with blocked := false } }

/-- Clear bits of GLB_FAULT_LATCH. -/
def clearLatch (s : State) (m : BitVec 64) : State :=
  let s := { s with bear := { s.bear with latch := s.bear.latch &&& ~~~m } }
  if m.getLsbD 33 then unblock s else s

/-- A write of ones to a W1C word (Table 0-4). Clearing DRV_OVC moves no driver: it answers drive edges again from the next one on, on a
ridge that does not run as well. DESIGN CHOICE, log entry 61. -/
def clearBits (s : State) (i m : Nat) : State :=
  match locate i with
  | (.ridge, u, w) =>
    let s := clrBits s i m
    if w = 0x12 ∧ bit m 1 then modR s (Fin.ofNat 16 u) fun x => { x with bodyOver := false } else s
  | (.dps, u, w) =>
    let s := clrBits s i m
    if w = 13 ∧ bit m 9 then dpsApply s (Fin.ofNat 16 u) else s
  | (.global, _, _) =>
    if i = 0x1940 then clearLatch s (BitVec.ofNat 64 m)
    else if i = 0x1941 then clearLatch s (BitVec.ofNat 64 (m * 2 ^ 32))
    else if i = 0x1952 then
      modCol s (field s gCOLSEL 5 0) fun c =>
        { c with rstA := c.rstA && !bit m 0, rstB := c.rstB && !bit m 1, ovf := c.ovf && !bit m 2 }
    else if i = gTIMEDERR ∧ bit m 31 then clrBits s i 0xFF000000
    else clrBits s i m
  | _ => clrBits s i m

/-- RECLAIM (R248): in replay mode the frames return to the allocator. -/
def reclaimFrames (s : State) : State := { s with store := { s.store with awaiting := [] } }

/-- What a write to a WO word starts. -/
def act (s : State) (i v : Nat) : State :=
  match locate i with
  | (.port, u, _) =>
    let n : RidgeId := Fin.ofNat 16 u
    let s := if bit v 0 then stopAwg s n else s
    if bit v 1 then stopAcq s n else s
  | (.ridge, u, _) => if bit v 0 then resetRidge s (Fin.ofNat 16 u) else s
  | (.global, _, _) =>
    if i = 0x18C2 then (if bit v 0 then reclaimFrames s else s)
    else if i = 0x1915 then raise s (0xF0 + v % 16) 0
    else if i = 0x1948 then (if bit v 0 then hostReset s s.boot.straps else s)
    else s
  | _ => s

/-- The effect of a write that was not refused; an injection on PARAM meets an accepted write of a stored word and is
corrected by the word's copies (R390). -/
def writeEffect (s : State) (i v : Nat) : State :=
  match wordInfo i with
  | none => s
  | some w =>
    let x := v &&& w.mask
    match w.access with
    | .ro | .rc => s
    | .w1c => clearBits s i x
    | .wo => act s i x
    | .rw | .rwl =>
      let s := applyWord s i x
      match accessInject s 26 with
      | (s, none) => s
      | (s, some _) => corrected s 26 0 true

/-- One write: its effect, or the status of its refusal. -/
def tryWrite (s : State) (i v : Nat) : State × Option Nat :=
  match writeRefusal s i v with
  | some st => (s, some st)
  | none => (writeEffect s i v, none)

/-! ### Several writes (R287) -/

/-- Writes in order; the first that is refused stops them, with its position and status. -/
def writeAll : Nat → List (Nat × Nat) → State → State × Option (Nat × Nat)
  | _, [], s => (s, none)
  | k, (i, v) :: l, s =>
    match tryWrite s i v with
    | (s, none) => writeAll (k + 1) l s
    | (s, some st) => (s, some (k, st))

/-- The words that differ, as they were before. -/
def changedWords (s t : State) : List (Nat × Word) :=
  ((dedup (skeys s.params ++ skeys t.params)).filter fun i => sget resetWord s.params i != sget resetWord t.params i).map
    fun i => (i, sget resetWord s.params i)

/-- What the reply to a write waits for (R25, R129, R155, R404). -/
def waitsFor (i : Nat) : List WaitOn :=
  match locate i with
  | (.pin, u, 0) => [.pin (Fin.ofNat 256 u)]
  | (.dps, u, 0) => [.dps (Fin.ofNat 16 u)]
  | (.ridge, u, 0x30) => [.resetEnd (Fin.ofNat 16 u)]
  | _ => []

/-- The write is HOST_RESET: nothing is left to answer. -/
def isHostReset (s : State) (x : Nat × Nat) : Bool := x.1 == 0x1948 && bit x.2 0 && !s.owl.shutdown

/-- Bytes 4-7 of a refused body of writes: the position of the first pair that fails, with BAD_PARAM (Table 11-8, R287). -/
def pairInfo (op k st : Nat) : Nat := if op = 2 ∨ st ≠ BAD_PARAM then 0 else k

/-- The first pair that is refused in the state that the packet finds. -/
def firstRefused (s : State) : Nat → List (Nat × Nat) → Option (Nat × Nat)
  | _, [] => none
  | k, (i, v) :: l => match writeRefusal s i v with | some st => some (k, st) | none => firstRefused s (k + 1) l

/-- A body of writes from a packet, checked whole before any takes effect; then all take effect, in order, or none does (R287).
Pairs that each pass but not after one another are refused as well. DEDUCED, log entry 20. -/
def packetWrites (h : Hdr) (op : Nat) (l : List (Nat × Nat)) (s : State) : State :=
  match firstRefused s 0 l with
  | some (k, st) => refuse s h op st (pairInfo op k st)
  | none =>
    match writeAll 0 l s with
    | (_, some (k, st)) => refuse s h op st (pairInfo op k st)
    | (t, none) =>
      if l.any (isHostReset s) then t
      else doneWhen t h op (l.flatMap fun x => waitsFor x.1) (changedWords s t)

/-! ### Timed writes (R284, R285) -/

/-- The check at taking: index and value alone. -/
def timedBad (x : Nat × Nat) : Bool :=
  match wordInfo x.1 with
  | none => true
  | some w => (w.access == .rw || w.access == .rwl) && !staticOk x.1 (x.2 &&& w.mask)

/-- NCO_EN as it will stand before an instant: the present one, or what the last timed write pending before that instant gives it. -/
def ncoEnBefore (s : State) (n : RidgeId) (t : T64) : Bool :=
  let due := s.link.timed.filter fun x => decide (x.index = dpsW n 0) && !later x.at_ t
  match due.foldl (fun best x => match best with
    | none => some x
    | some (b : Timed) => if later b.at_ x.at_ then some b else some x) none with
  | some x => bit x.value.toNat 6
  | none => dpsNcoEn s n

/-- The apply instant (R284). Whether a DPS_CFG write changes NCO_EN is judged when it is taken, against the writes pending before
it. DEDUCED, log entry 46. -/
def applyInstant (s : State) (i v : Nat) (t : T64) : T64 :=
  match locate i with
  | (.dps, u, w) =>
    let n : RidgeId := Fin.ofNat 16 u
    if (9 ≤ w ∧ w ≤ 11) ∨ (w = 0 ∧ bit v 6 ≠ ncoEnBefore s n t) then gridAfter 150 t else tickAfter t
  | (.port, u, w) =>
    let n : RidgeId := Fin.ofNat 16 u
    if w = 2 ∨ w = 4 ∨ w = 5 ∨ w = 6 then sampleAfter s n false t
    else if w = 9 then sampleAfter s n true t
    else tickAfter t
  | _ => tickAfter t

/-- Schedule one timed write. -/
def addTimed (t : T64) (s : State) (x : Nat × Nat) : State :=
  { s with link := { s.link with timed := s.link.timed ++ [(⟨x.1, BitVec.ofNat 32 x.2, applyInstant s x.1 x.2 t⟩ : Timed)] } }

def timedWrites (h : Hdr) (op : Nat) (l : List (Nat × Nat)) (t : T64) (s : State) : State :=
  match l.findIdx? timedBad with
  | some k => refuse s h op BAD_PARAM (if op = 2 then 0 else k)
  | none =>
    if 256 < s.link.timed.length + l.length then refuse s h op BUSY 0
    else replyAccepted (l.foldl (addTimed t) s) h op 0 t

/-- The timed write due first. -/
def firstTimed (s : State) : Option Timed :=
  s.link.timed.foldl (fun best x => match best with
    | none => some x
    | some b => if later b.at_ x.at_ then some x else some b) none

/-- A timed write is dropped at its apply instant (Table 11-11). -/
def dropTimed (s : State) (i st : Nat) : State :=
  let old := word s gTIMEDERR
  let drops := if bit old 31 then min 127 (bits old 30 24 + 1) else 1
  raise (putWord s gTIMEDERR (i % 8192 + st * 2 ^ 16 + drops * 2 ^ 24 + 2 ^ 31)) 0xDE i

/-- A timed write of an APT NCO word loads the phase at its own sample instant, which may lie within the tick (R186). -/
def timedPhase (s : State) (x : Timed) : State :=
  match locate x.index with
  | (.port, u, w) => if w = 4 ∨ w = 5 then ncoReset s (Fin.ofNat 16 u) x.at_ else s
  | _ => s

/-- One timed write comes due. -/
def applyTimed (s : State) (x : Timed) : State :=
  let s := { s with link := { s.link with timed := s.link.timed.erase x } }
  match tryWrite s x.index x.value.toNat with
  | (t, none) => timedPhase t x
  | (t, some st) => dropTimed t x.index st

/-- TIMED_WRITE_APPLY (R284, R285). -/
def timedWriteApplyEffect (s : State) : State :=
  match firstTimed s with
  | none => s
  | some x => if !reached s.now x.at_ || bearSafe s || s.owl.shutdown then s else applyTimed s x

def execTimedWriteApply (s : State) : Host.Outcome State Fault Refusal := done s (timedWriteApplyEffect s)

/-! ### PARAM_WRITE, PARAM_WRITE_MULTI, PARAM_READ (Tables 11-9, 11-10) -/

/-- The ridge that an index of the ridge block names (R286, R405). -/
def wordNeed (i : Nat) : List Need :=
  match locate i with
  | (.ridge, u, _) => [.ridge (Fin.ofNat 16 u)]
  | _ => []

def paramWriteEffect (h : Hdr) (index : BitVec 16) (value : Word) (s : State) : State :=
  let l := [(index.toNat % 8192, value.toNat)]
  command s h { row 0x02 2 .none with timed := true, mc := true } (l.flatMap fun x => wordNeed x.1) fun s =>
    match startTime s h s.now with
    | some t => timedWrites h 0x02 l t s
    | none => packetWrites h 0x02 l s

def execParamWrite (h : Hdr) (index : BitVec 16) (value : Word) (s : State) : Host.Outcome State Fault Refusal :=
  done s (paramWriteEffect h index value s)

def paramWriteMultiEffect (h : Hdr) (count : BitVec 16) (pairs : List (BitVec 16 × Word)) (s : State) : State :=
  let n := count.toNat
  let l := (pairs.take n).map fun p => (p.1.toNat % 8192, p.2.toNat)
  command s h { row 0x04 (2 + cdiv n 2) .none with timed := true, mc := true } (l.flatMap fun x => wordNeed x.1) fun s =>
    if n = 0 ∨ 8192 < n then refuse s h 0x04 BAD_PARAM 0
    else match startTime s h s.now with
      | some t => timedWrites h 0x04 l t s
      | none => packetWrites h 0x04 l s

def execParamWriteMulti (h : Hdr) (count : BitVec 16) (pairs : List (BitVec 16 × Word)) (s : State) :
    Host.Outcome State Fault Refusal := done s (paramWriteMultiEffect h count pairs s)

/-- PARAM_READ by a packet (R8, R401, R408): the words go to host memory. -/
def packetRead (h : Hdr) (first count : BitVec 16) (addr : BitVec 64) (s : State) : State :=
  let i := first.toNat % 8192
  let n := count.toNat
  command s h (row 0x03 2 .none) [] fun s =>
    if n = 0 ∨ 256 < n ∨ addr.toNat % 4 ≠ 0 ∨ 0x1A00 < i + n then refuse s h 0x03 BAD_PARAM 0
    else
      let (ws, t) := readWords (Path.key (.packet h)) n i s
      dataReply t h 0x03 addr.toNat (ws.flatMap fun w => leBytes 4 w.toNat)

/-! ### The parameter window (R290, R371, R385) -/

/-- The window takes a write of this word now. -/
def windowTakes (s : State) (i : Nat) : Bool :=
  if s.owl.shutdown then false
  else if bearSafe s then i == 0x1940 || i == 0x1941 || i == 0x1948
  else booted s

/-- A window write: its effect, or its record in GLB_WIN_ERR where a packet would have been refused (R286, R290). -/
def windowWrite (s : State) (i v : Nat) : State :=
  if !windowTakes s i then s
  else if heldByLong s (wordNeed i) then putWord s gWINERR (i % 8192 + BUSY * 2 ^ 16 + 2 ^ 31)
  else match tryWrite s i v with
    | (t, none) => serveWaits t
    | (t, some st) => putWord t gWINERR (i % 8192 + st * 2 ^ 16 + 2 ^ 31)

/-- A window read leaves its value as the model's view of the read. -/
def windowReadEffect (i : Nat) (s : State) : State :=
  let (v, t) := windowRead s (Path.key .window) i
  { t with link := { t.link with winRead := v } }

end Sys2Proof.Machine
end

