-- ==== Sys2Proof/Machine/Csp.lean ====
section
/-! DEFINITION. The clocked serial ports (chapter 13): slave frames and their outcomes, the writes they carry, and Fox's
execute-in-place window. -/

namespace Sys2Proof.Machine

/-! ### Slave frames (R326 to R331, Tables 13-2, 13-3) -/

/-- The flags of a frame (Table 13-3). -/
structure FrameFlags where
  crc : Bool
  aborted : Bool
  length : Bool
  aliveGap : Bool
  repeated : Bool
  refused : Bool
  badCmd : Bool
  notReady : Bool
  deriving DecidableEq, Repr

def FrameFlags.byte (f : FrameFlags) : Nat :=
  flag f.crc 0 + flag f.aborted 1 + flag f.length 2 + flag f.aliveGap 3 + flag f.repeated 4 + flag f.refused 5 +
    flag f.badCmd 6 + flag f.notReady 7

/-- The frame is discarded (R330). -/
def FrameFlags.bad (f : FrameFlags) : Bool := f.crc || f.aborted || f.length || f.repeated || f.badCmd || f.notReady

/-- The word count c (Table 13-2). -/
def frameWords (cmd : Nat) (f : CspFrame) : Nat := if cmd = 5 then 0 else f.cm1.toNat + 1

/-- Edges of the request phase, and of the whole frame: one byte per edge. -/
def requestEdges (cmd : Nat) (f : CspFrame) : Nat := 6 + (if cmd = 2 then 4 * frameWords cmd f else 0)
def frameEdges (cmd : Nat) (f : CspFrame) : Nat := 18 + 4 * frameWords cmd f

/-- The bytes that the request CRC covers (R326). -/
def requestBytes (cmd : Nat) (f : CspFrame) : List Byte :=
  leBytes 1 cmd ++ leBytes 2 f.addr.toNat ++ leBytes 1 (f.alive.toNat + 16 * f.cm1.toNat) ++
    (if cmd = 2 then f.data.flatMap fun w => leBytes 4 w.toNat else [])

/-- A frame selected less than 2 µs after a WRITE frame's release, its select having been asserted for so many ticks (R329). -/
def tooSoon (s : State) (n : Fin 2) (selected : Nat) : Bool :=
  match s.csps[n].writeAt with
  | some t => decide (s.ticks - selected - t < usTicks 2)
  | none => false

/-- Only GLB_ID and GLB_STATUS can be read before STAGE 6 (R329). -/
def earlyRead (cmd : Nat) (f : CspFrame) : Bool :=
  cmd == 11 && decide (gID ≤ f.addr.toNat) && decide (f.addr.toNat + frameWords cmd f ≤ gSTATUS + 1)

def notReady (s : State) (n : Fin 2) (cmd : Nat) (f : CspFrame) : Bool := tooSoon s n f.selected || (!booted s && !earlyRead cmd f)

/-- The outcome flags of a WRITE, READ or STATUS frame. -/
def frameFlags (s : State) (n : Fin 2) (cmd : Nat) (f : CspFrame) : FrameFlags :=
  let crc := decide (requestEdges cmd f ≤ f.edges) && crc16 (requestBytes cmd f) != f.crc
  let ab := decide (f.edges < frameEdges cmd f)
  let len := decide (frameEdges cmd f < f.edges)
  let seen := decide (4 ≤ f.edges)
  let rep := seen && s.csps[n].alive == some f.alive
  let gap := match s.csps[n].alive with | some a => seen && a + 1 != f.alive | none => false
  { crc := crc, aborted := ab, length := len, aliveGap := gap && !rep && !(crc || ab || len), repeated := rep,
    refused := false, badCmd := false, notReady := notReady s n cmd f }

/-- The port answers as a slave: it has the role, and the device runs. -/
def slaveOn (s : State) (n : Fin 2) : Bool := isSet s (gCSPCFG n) 0 && !s.boot.por

/-- Sticky copies of flags (Table 13-7). -/
def stickyFlags (s : State) (n : Fin 2) (fl : FrameFlags) : State := setBits s (gCSPSTATUS n) (8 * fl.byte)

/-- The bytes that the reply CRC covers, and the CRC: sent inverted where the request CRC of a READ fails (R326, R328). -/
def replyCrc (status : Byte) (alive : BitVec 4) (ws : List Word) (invert : Bool) : BitVec 16 :=
  let c := crc16 (leBytes 1 status.toNat ++ leBytes 1 alive.toNat ++ ws.flatMap fun w => leBytes 4 w.toNat)
  if invert then ~~~c else c

/-- A frame has ended: its flags become the previous frame's, its ALIVE is kept, a discarded frame is counted. The reply, if
the frame came that far, carried the flags of the frame before it (R330). -/
def frameEnd (s : State) (n : Fin 2) (cmd : Nat) (f : CspFrame) (ws : List Word) (fl : FrameFlags) : State :=
  let s := modCsp s n fun x =>
    { x with alive := if 4 ≤ f.edges ∧ !fl.badCmd then some f.alive else x.alive
             prev := BitVec.ofNat 8 fl.byte
             followed := x.write.isSome
             reply := if requestEdges cmd f + 9 ≤ f.edges ∧ !fl.badCmd then
                 (x.prev, f.alive, ws, replyCrc x.prev f.alive ws (fl.crc && cmd == 11))
               else x.reply }
  let s := stickyFlags s n fl
  if fl.bad then bump s (gCSPBAD n) 1 else s

/-- CSP_WRITE (R327): received whole and checked at select release; an accepted WRITE waits for Badger. -/
def cspWriteEffect (n : Fin 2) (f : CspFrame) (s : State) : State :=
  if !slaveOn s n then s
  else
    let fl := frameFlags s n 2 f
    let s := modCsp (frameEnd s n 2 f [] fl) n fun x => { x with writeAt := some s.ticks }
    if fl.bad then s
    else modCsp s n fun x => { x with write := some (f.addr, f.data.take (frameWords 2 f)), followed := false }

def execCspWrite (n : Fin 2) (f : CspFrame) (s : State) : Host.Outcome State Fault Refusal := done s (cspWriteEffect n f s)

/-- REFUSED of the WRITE last released: in the STATUS byte while no frame has followed it, and in the sticky flags. -/
def slaveRefused (s : State) (n : Fin 2) : State :=
  setBits (modCsp s n fun x => if x.followed then x else { x with prev := x.prev ||| 0x20#8 }) (gCSPSTATUS n) 0x100

/-- Words that a slave WRITE brings, as one PARAM_WRITE_MULTI would apply them (R327); what the window would not take is not
applied. -/
def slaveApply (s : State) (n : Fin 2) (a : Nat) (ws : List Nat) : State :=
  let l := ws.zipIdx.map fun x => (a + x.2, x.1)
  if !(l.all fun x => windowTakes s x.1) then s
  else if (l.any fun x => heldByLong s (wordNeed x.1)) || (firstRefused s 0 l).isSome then slaveRefused s n
  else match writeAll 0 l s with
    | (t, none) => serveWaits t
    | (_, some _) => slaveRefused s n

/-- CSP_WRITE_APPLY (R327): Badger applies the words of an accepted slave WRITE. -/
def cspWriteApplyEffect (n : Fin 2) (s : State) : State :=
  match s.csps[n].write with
  | none => s
  | some (a, ws) =>
    modCsp (slaveApply s n a.toNat (ws.map fun w => w.toNat)) n fun x => { x with write := none, followed := false }

def execCspWriteApply (n : Fin 2) (s : State) : Host.Outcome State Fault Refusal := done s (cspWriteApplyEffect n s)

/-- Consecutive words that a slave READ returns, as the window serves them. -/
def slaveWords (n : Fin 2) : Nat → Nat → State → List Word × State
  | 0, _, s => ([], s)
  | k + 1, i, s =>
    let (v, s) := windowRead s (Path.key (.slave n)) i
    let (vs, s) := slaveWords n k (i + 1) s
    (v :: vs, s)

/-- CSP_READ (R328): the words are read at the first turnaround edge, and the read counts even where the frame is aborted
later; a failed request CRC returns zeros. The reply data of another repeat, or of another frame that is not ready, is free (log
entry 2). -/
def cspReadEffect (n : Fin 2) (f : CspFrame) (s : State) : State :=
  if !slaveOn s n then s
  else
    let fl := frameFlags s n 11 f
    let c := frameWords 11 f
    let (ws, s) := if f.edges < 7 then ([], s)
      else if fl.crc then (List.replicate c 0#32, s)
      else if fl.repeated ∨ fl.notReady then ((List.range c).map (Config.discardedRead s.free), tickFree s)
      else slaveWords n c f.addr.toNat s
    frameEnd { s with link := { s.link with cspRead := ws } } n 11 f ws fl

def execCspRead (n : Fin 2) (f : CspFrame) (s : State) : Host.Outcome State Fault Refusal := done s (cspReadEffect n f s)

/-- PARAM_READ over a slave port: the words of a READ frame that is right in all else. Under R329 it is discarded with NOT_READY. -/
def slaveReadEffect (n : Fin 2) (count first : Nat) (s : State) : State :=
  let early := decide (gID ≤ first) && decide (first + count ≤ gSTATUS + 1)
  if !slaveOn s n then s
  else if tooSoon s n 0 || (!booted s && !early) then
    let s := modCsp s n fun x => { x with prev := 0x80 }
    bump (setBits { s with link := { s.link with cspRead := [] } } (gCSPSTATUS n) 0x400) (gCSPBAD n) 1
  else
    let (ws, t) := slaveWords n count first s
    { t with link := { t.link with cspRead := ws } }

/-- CSP_STATUS (R330): the frame returns the outcome of the frame before it. -/
def cspStatusEffect (n : Fin 2) (f : CspFrame) (s : State) : State :=
  if !slaveOn s n then s else frameEnd s n 5 f [] (frameFlags s n 5 f)

def execCspStatus (n : Fin 2) (f : CspFrame) (s : State) : Host.Outcome State Fault Refusal := done s (cspStatusEffect n f s)

/-- BAD_CMD_FRAME (R330): an unknown CMD; the rest of the frame is ignored, its ALIVE too. DEDUCED, log entry 37. -/
def badCmdFrameEffect (n : Fin 2) (f : CspFrame) (s : State) : State :=
  if !slaveOn s n then s
  else frameEnd s n 5 f []
    { crc := false, aborted := false, length := false, aliveGap := false, repeated := false, refused := false, badCmd := true,
      notReady := tooSoon s n f.selected || !booted s }

def execBadCmdFrame (n : Fin 2) (f : CspFrame) (s : State) : Host.Outcome State Fault Refusal := done s (badCmdFrameEffect n f s)

/-! ### Execute in place (R323 to R325) -/

/-- Fox fetches from the flash on CSP0: it runs, and its port is a master. -/
def xipOn (s : State) : Bool := s.boot.foxUp && s.boot.sfdpOk && !isSet s (gCSPCFG 0) 0

def xipLine (a : Nat) : Nat := a / 64 * 64

/-- Select 0 of CSP0 is asserted: the divider last written is in force from here (R320). -/
def assertSelect (s : State) : State := modCsp s 0 fun x => { x with div := BitVec.ofNat 8 (field s (gCSPCFG 0) 15 8) }

/-- A read of the flash starts a continuous read where SFDP reports it (R324). -/
def flashRead (s : State) : State := assertSelect { s with xip := { s.xip with cont := s.xip.cont || s.xip.canCont } }

/-- A command other than a read leaves continuous read; lines that overlap its range are invalidated, and fetches of such lines that
are under way are lost and must be made again (R324, R325). -/
def flashCommand (s : State) (lo size : Nat) : State :=
  let clear := fun (a : Nat) => decide (a + 64 ≤ lo) || decide (lo + size ≤ a)
  assertSelect { s with xip := { s.xip with cont := false, lines := s.xip.lines.filter clear
                                            filling := s.xip.filling.filter fun l => clear l.1 } }

/-- XIP_MISS (R323, R325): the line that holds the address is fetched; a miss on a line being filled waits for it, and a miss
while the flash is busy waits for the flash. A fetch that hits makes its line the most recently used. -/
def xipMissEffect (addr : BitVec 32) (s : State) : State :=
  let a := xipLine addr.toNat
  if !xipOn s then s
  else if a ∈ s.xip.lines then { s with xip := { s.xip with lines := a :: s.xip.lines.erase a } }
  else if flashBusy s || s.xip.filling.any (fun l => l.1 == a) then s
  else flashRead { s with xip := { s.xip with filling := s.xip.filling ++ [(a, true)] } }

def execXipMiss (addr : BitVec 32) (s : State) : Host.Outcome State Fault Refusal := done s (xipMissEffect addr s)

/-- XIP_LINE_FILL (R323): the line is the most recently used of four; the fetch that a miss asked for is followed by that of
the next line where it is absent. -/
def xipLineFillEffect (addr : BitVec 32) (s : State) : State :=
  let a := xipLine addr.toNat
  match s.xip.filling.find? fun l => l.1 == a with
  | none => s
  | some (_, demanded) =>
    let lines := (a :: s.xip.lines.erase a).take 4
    let filling := s.xip.filling.filter fun l => l.1 != a
    let next := a + 64
    let s := { s with xip := { s.xip with lines := lines, filling := filling } }
    if demanded && !flashBusy s && !decide (next ∈ lines) && !filling.any (fun l => l.1 == next) then
      flashRead { s with xip := { s.xip with filling := filling ++ [(next, false)] } }
    else s

def execXipLineFill (addr : BitVec 32) (s : State) : Host.Outcome State Fault Refusal := done s (xipLineFillEffect addr s)

end Sys2Proof.Machine
end

