-- ==== Sys2Proof/Machine/Image.lean ====
section
/-! DEFINITION. The retained-state image (Table 14-8): its snapshot, its application, and the commands that save and restore
it (R351 to R355). -/

namespace Sys2Proof.Machine

/-! ### Snapshot (R354) -/

/-- The silicon revision letter (R2). -/
def revisionLetter : Byte := 0x42

/-- What a queue keeps. -/
def keepOf (q : Nat × Queue) : QueueKeep := ⟨BitVec.ofNat 14 q.1, q.2.reservation, q.2.drainThr, q.2.stale⟩

/-- The retained content as it stands. -/
def snapshot (s : State) : Retained where
  dieSerial := s.boot.fuses.dieSerial
  revision := revisionLetter
  t64 := s.now
  words := s.params.filter fun w => isRetained w.1
  sets := s.ridges.toList.map fun x => x.banks[bankIx x.activeBank]
  sites := s.sites
  routes := s.events.routes
  queues := s.queues.map keepOf
  cal := s.cal.items
  oos := s.cal.oos
  hops := s.cairn.hops
  dly := BitVec.ofNat 32 (word s gCAIRNDLY)
  fwLevel := BitVec.ofNat 16 (field s gFWLEVELS 15 0)
  patchLevel := BitVec.ofNat 16 (field s gFWLEVELS 31 16)

/-! ### The bytes of an image (R5, R352, Table 14-8) -/

/-- A set record (Table 4-3). -/
def TimingSet.bytes (t : TimingSet) : List Byte :=
  leBytes 4 (t.nMinus1.toNat + t.fine.toNat * 1024) ++ leBytes 4 t.format.toNat ++ leBytes 8 0 ++
    t.edges.toList.flatMap fun l => (l.toList.flatMap fun e => leBytes 4 e.toNat) ++ leBytes 8 0

/-- What a queue keeps, in 8 bytes; a queue that nothing has configured keeps its power-up items. -/
def QueueKeep.bytes (q : QueueKeep) : List Byte := leBytes 8 (q.reservation + (q.drainThr - 1) * 2 ^ 17 + q.stale * 2 ^ 26)

/-- Every calibration item of Table 14-7, by class, unit and item. -/
def calItems : List Nat :=
  (List.range 6).flatMap fun c => (List.range 256).flatMap fun u => ((List.range 32).map fun k => calKey c u k).filter calSelOk

/-- The sections of an image, each at its offset. The order of the items within the calibration section and within the ring section is
not given: items by class, unit and item, then GLB_CONV_OOS; h by position, then GLB_CAIRN_DLY. DESIGN CHOICE, log entry 66. Indices
that are not retained are written as zero (R410). -/
def Retained.body (i : Retained) : List Byte :=
  let dflt : QueueKeep := keepOf (0, Queue.reset)
  padTo 0x6FC0 ((List.range 0x1A00).flatMap fun k => leBytes 4 (if isRetained k then (sget resetWord i.words k).toNat else 0)) ++
  padTo 0x42000 (i.sets.flatMap fun b => b.toList.flatMap TimingSet.bytes) ++
  padTo 0x800 (i.sites.toList.flatMap fun m => leBytes 32 m.toNat) ++
  padTo 0x800 (i.routes.toList.flatMap fun m => leBytes 8 m.toNat) ++
  padTo 0x20000 ((List.range 16384).flatMap fun id => ((i.queues.find? fun q => q.id.toNat == id).getD dflt).bytes) ++
  padTo 0x10000 ((calItems.flatMap fun k => leBytes 4 (sget calDflt i.cal k).toNat) ++ leBytes 8 i.oos.toNat) ++
  padTo 0x6000 (((List.range 128).flatMap fun k => leBytes 4 (i.hops.getD k 0).toNat) ++ leBytes 4 i.dly.toNat)

/-- The 64-byte header, with a given CRC field. -/
def RSlot.header (x : RSlot) (crc : Word) : List Byte :=
  leBytes 2 0x5352 ++ leBytes 1 1 ++ leBytes 1 (if x.copyB then 0x42 else 0x41) ++ leBytes 4 x.generation.toNat ++ leBytes 4 524288 ++
    leBytes 1 x.image.revision.toNat ++ leBytes 3 0 ++ leBytes 16 x.image.dieSerial.toNat ++ leBytes 2 x.image.fwLevel.toNat ++
    leBytes 2 x.image.patchLevel.toNat ++ leBytes 4 0 ++ leBytes 8 x.image.t64.toNat ++ leBytes 12 0 ++ leBytes 4 crc.toNat

/-- The 524,288 bytes of a slot, its CRC taken with the field zero. -/
def RSlot.bytes (x : RSlot) : List Byte :=
  let body := x.image.body
  x.header (crc32 (x.header 0 ++ body)) ++ body

/-! ### Application (R353) -/

/-- A calibration section holds CAL_RUN data: the SCOPE of a CAL_RUN on some ridge (Table 14-7). -/
def calRecorded (t : CalTable) : Bool := allRidges.any fun r => sget calDflt t (calKey 5 r.val 1) != 0

/-- Step 1: the calibration section, if it was made on this die (R353). -/
def applyCal (s : State) (i : Retained) : State :=
  let own := i.dieSerial == s.boot.fuses.dieSerial && i.revision == revisionLetter
  let s := { s with boot := { s.boot with calForeign := !own } }
  if own then { s with cal := { s.cal with items := i.cal, base := i.cal, valid := calRecorded i.cal, oos := i.oos } }
  else { s with cal := { s.cal with items := [], base := [], valid := false } }

/-- The value with which an image word is written: the exceptions of R351. -/
def imageWord (s : State) (i v : Nat) : Nat :=
  let low := fun (b : Bool) => v / 2 * 2 + flag b 0
  if i = gMARTENCFG then low false
  else if i = gCSPCFG 0 then low s.boot.straps.csp0Slave
  else if i = gCSPCFG 1 then low s.boot.straps.csp1Slave
  else if i = gCAIRNCFG then low (s.boot.straps.mstr && s.boot.straps.ringId == 0)
  else match locate i with
    | (.dps, _, 0) => v / 4 * 4
    | _ => v

/-- One image word: written as a packet would write it; a word that its rules refuse keeps its ROM default. -/
def applyImageWord (img : Sparse Word) (s : State) (i : Nat) : State :=
  let v := imageWord s i (sget resetWord img i).toNat
  match writeRefusal s i v with
  | none => applyWord s i v
  | some _ => { putWord s i (resetWord i).toNat with boot := { s.boot with rsiRefused := true } }

/-- Step 2: every retained word, in index order. -/
def applyWords (s : State) (img : Sparse Word) : State :=
  each ((List.range 0x1A00).filter isRetained) (applyImageWord img) s

/-- The checks of R107 on a timing set. -/
def setOk (t : TimingSet) : Bool :=
  let pmin := 1024 * (t.nMinus1.toNat + 1) + t.fine.toNat
  (List.finRange 16).all fun l =>
    laneOk pmin (bits t.format.toNat (2 * l.val + 1) (2 * l.val)) ((t.edges[l]).toList.map fun e => e.toNat)

/-- Step 3: each set record into both banks, with bank 0 active; a record that R107 refuses keeps its ROM default. -/
def applySets (s : State) (sets : List (Vector TimingSet 32)) : State :=
  each allRidges (fun s r =>
    match sets[r.val]? with
    | none => s
    | some b =>
      let kept := b.map fun t => if setOk t then t else TimingSet.reset
      let s := modR s r fun x => { x with banks := Vector.replicate 2 kept, activeBank := false, swapPending := false }
      if b.all setOk then s else { s with boot := { s.boot with rsiRefused := true } }) s

/-- Step 4: a site whose pins lie in a lower site already is refused (R288). -/
def applySites (s : State) (m : Vector (BitVec 256) 64) : State :=
  each (List.finRange 64) (fun s k =>
    if (List.finRange 64).any fun j => decide (j < k) && (s.sites[j] &&& m[k]) != 0 then
      { s with boot := { s.boot with rsiRefused := true } }
    else { s with sites := s.sites.set k m[k] }) { s with sites := Vector.replicate 64 0 }

/-- Step 4: the retained items of each queue; a reservation that breaks R244 is refused. -/
def applyQueues (s : State) (l : List QueueKeep) : State :=
  let s := each (skeys s.queues) (fun s id => modQ s id fun q => { q with reservation := 0, drainThr := 16, stale := 100 }) s
  each l (fun s k =>
    if k.reservation ≤ 65536 ∧ reservationSum s + k.reservation ≤ 253952 ∧ inRange 1 256 k.drainThr ∧ inRange 1 1000000 k.stale then
      modQ s k.id.toNat fun q => { q with reservation := k.reservation, drainThr := k.drainThr, stale := k.stale }
    else { s with boot := { s.boot with rsiRefused := true } }) s

/-- Step 4: hop values and DLY (Table 14-8). -/
def applyRing (s : State) (i : Retained) : State :=
  putWord { s with cairn := { s.cairn with hops := i.hops, dlyBase := i.dly.toInt } } gCAIRNDLY i.dly.toNat

/-- The power-up value of every DPS (R162). -/
def dpsPowerUp (s : State) : State :=
  each allRidges (fun s n =>
    if isSet s (dpsW n 6) 16 then
      dpsApply (putField (putWord s (dpsW n 1) (field s (dpsW n 6) 15 0)) (dpsW n 0) 1 0 1) n
    else dpsApply (putField s (dpsW n 0) 1 0 0) n) s

/-- An image takes effect, in the order of R353. -/
def applyImage (s : State) (i : Retained) : State :=
  let s := applySets (applyWords (applyCal { s with boot := { s.boot with rsiRefused := false } } i) i.words) i.sets
  let s := applySites s i.sites
  applyRing (applyQueues { s with events := { s.events with routes := i.routes } } i.queues) i

/-- The result of an application (Tables 14-10, 14-11). -/
def imageApplied (s : State) (source : BitVec 2) (gen : Nat) (i : Option Retained) : State :=
  putWord { s with working := i, boot := { s.boot with rsiSource := source } } gRSIAPPLIED gen

/-! ### Copies (R352) -/

/-- The content of a copy. -/
def copyContent (f : Flash) (k : Option (Fin 3)) : Option RSlot := k.bind fun j => f.slots[j]

/-- Copy B is the newer copy. -/
def newerIsB (f : Flash) : Bool :=
  match copyContent f (copyOf f false), copyContent f (copyOf f true) with
  | some a, some b => decide (a.generation < b.generation)
  | none, some _ => true
  | _, none => false

/-- RSI_APPLY (R353): the newer copy, the other one where the newer fails its CRC as it is read, or the ROM defaults, at which no
route is set (R364); then STAGE 6 and the power-up of the supplies (R162, R332). -/
def rsiApplyEffect (newerOk otherOk : Bool) (s : State) : State :=
  if s.boot.stage ≠ 5 ∨ !s.boot.calDone ∨ s.owl.shutdown then s
  else
    let b := newerIsB s.flash
    let pick := fun (copyB ok : Bool) => if ok then copyContent s.flash (copyOf s.flash copyB) else none
    let (copyB, slot) := match pick b newerOk with
      | some x => (b, some x)
      | none => (!b, pick (!b) otherOk)
    let s := match slot with
      | some x => imageApplied (applyImage s x.image) (if copyB then 2 else 1) x.generation.toNat (some x.image)
      | none => imageApplied { s with events := { s.events with routes := Vector.replicate 256 0 } } 0 0 none
    dpsPowerUp { s with boot := { s.boot with stage := 6 } }

def execRsiApply (newerOk otherOk : Bool) (s : State) : Host.Outcome State Fault Refusal := done s (rsiApplyEffect newerOk otherOk s)

/-! ### SAVE_STATE (R354) -/

/-- Fox can use the flash: it runs its firmware, and CSP0 is a master (Table 1-3, R319). -/
def foxFlash (s : State) : Bool := foxReady s && !isSet s (gCSPCFG 0) 0

/-- Highest generation of any valid slot. -/
def topGeneration (f : Flash) : Nat := f.slots.toList.foldl (fun g x => match x with | some y => max g y.generation.toNat | none => g) 0

/-- The slot that a save takes: the lowest that holds neither copy. -/
def saveSlot (f : Flash) : Fin 3 :=
  let a := copyOf f false
  let b := copyOf f true
  ((List.finRange 3).find? fun k => a != some k && b != some k).getD 0

/-- The label that a save takes: the one that has no copy, A first, else that of the older copy. -/
def saveLabelB (f : Flash) : Bool :=
  match copyContent f (copyOf f false), copyContent f (copyOf f true) with
  | none, _ => false
  | some _, none => true
  | some a, some b => decide (b.generation < a.generation)

/-- Address of a retained-state slot (Table 14-2). -/
def slotAddr (k : Fin 3) : Nat := 0x200000 + 0x80000 * k.val

def eraseSlot (s : State) (k : Fin 3) : State :=
  flashCommand { s with flash := { s.flash with slots := s.flash.slots.set k none } } (slotAddr k) 0x80000

def saveStateEffect (h : Hdr) (s : State) : State :=
  command s h (row 0x08 1 .none) [.flash] fun s =>
    let g := topGeneration s.flash
    if !foxFlash s then refuse s h 0x08 BUSY 0
    else if g = 0xFFFFFFFF then refuse s h 0x08 BAD_PARAM 0
    else
      let k := saveSlot s.flash
      let i := snapshot s
      startLong (eraseSlot { s with working := some i } k) h 0x08 (.save k (saveLabelB s.flash) (BitVec.ofNat 32 (g + 1)) i)

def execSaveState (h : Hdr) (s : State) : Host.Outcome State Fault Refusal := done s (saveStateEffect h s)

/-- SAVE_STATE_DONE: the slot is programmed and read back; a mismatch leaves it invalid. -/
def saveStateDoneEffect (ok : Bool) (s : State) : State :=
  match findLong s fun j => match j with | .save _ _ _ _ => true | _ => false with
  | none => s
  | some l =>
    match l.job with
    | .save k b g i =>
      let t := dropLong s l
      if bearSafe s || s.owl.shutdown then s
      else if ok then
        replyDone { t with flash := { t.flash with slots := t.flash.slots.set k (some ⟨b, g, i⟩) } } l.hdr 0x08 g.toNat
      else refuse (contained t ⟨37, 0, .contained, 0, 0, none, false, false⟩ id) l.hdr 0x08 ABORTED_FAULT 0
    | _ => s

def execSaveStateDone (ok : Bool) (s : State) : Host.Outcome State Fault Refusal := done s (saveStateDoneEffect ok s)

/-! ### RESTORE_STATE (R355) -/

/-- The copy that SOURCE names. -/
def restoreCopy (s : State) (source : Nat) : Option (Bool × RSlot) :=
  let copyB := if source = 0 then newerIsB s.flash else source == 2
  (copyContent s.flash (copyOf s.flash copyB)).map fun x => (copyB, x)

def restoreStateEffect (h : Hdr) (source : Byte) (crcOk : Bool) (s : State) : State :=
  command s h (row 0x09 2 .none) [.flash] fun s =>
    let busy := !foxFlash s || (allRidges.any fun r => runs s r) || s.tickets != [] || s.ports.toList.any awgPlays ||
      s.link.timed != []
    if busy then refuse s h 0x09 BUSY 0
    else if 2 < source.toNat then refuse s h 0x09 BAD_PARAM 0
    else match restoreCopy s source.toNat with
      | none => refuse s h 0x09 BAD_PARAM 0
      | some (copyB, x) =>
        if !crcOk then refuse s h 0x09 BAD_PARAM 0
        else
          let s := each allRidges (fun s n => putField (modDps s n (Dps.toOff true)) (dpsW n 0) 1 0 0) s
          let s := imageApplied (applyImage s x.image) (if copyB then 2 else 1) x.generation.toNat (some x.image)
          replyDone (dpsPowerUp s) h 0x09 0

def execRestoreState (h : Hdr) (source : Byte) (crcOk : Bool) (s : State) : Host.Outcome State Fault Refusal :=
  done s (restoreStateEffect h source crcOk s)

end Sys2Proof.Machine
end

