-- ==== Sys2Proof/Machine/Cmds.lean ====
section
/-! DEFINITION. The remaining command packets of one device: IDENTIFY, ECHO, SITE_MAP, EVENT_ROUTE, CAL_RUN, FW_UPDATE, and
PARAM_WRITE's neighbours that Fox serves (chapters 11, 14, 15). -/

namespace Sys2Proof.Machine

/-! ### IDENTIFY and ECHO (Table 11-10) -/

/-- The device address (R11). -/
def deviceAddress (s : State) : Nat := s.ring.position.toNat + 128 * s.boot.straps.ringId.toNat

def modeCode (s : State) : Nat := match s.boot.mode with | .normal => 0 | .baseline => 1 | .loader => 2

/-- The 64-byte record of IDENTIFY. -/
def identifyRecord (s : State) : List Byte :=
  padTo 64 (leBytes 4 0x72640042 ++ leBytes 4 (statusWord s) ++ leBytes 2 (deviceAddress s) ++
    leBytes 2 (field s gFWLEVELS 15 0) ++ leBytes 2 (field s gFWLEVELS 31 16) ++ leBytes 1 revisionLetter.toNat ++
    leBytes 1 (modeCode s) ++ leBytes 16 s.boot.fuses.dieSerial.toNat)

def identifyEffect (h : Hdr) (addr : BitVec 64) (s : State) : State :=
  command s h { row 0x01 2 .none with loader := true } [] fun s =>
    if addr.toNat % 8 ≠ 0 then refuse s h 0x01 BAD_PARAM 0
    else dataReply s h 0x01 addr.toNat (identifyRecord s)

def execIdentify (h : Hdr) (addr : BitVec 64) (s : State) : Host.Outcome State Fault Refusal := done s (identifyEffect h addr s)

/-- The units that an ECHO of this LENGTH has to have, without the launch word: 2 to 257. -/
def echoUnits (h : Hdr) : Nat :=
  let lw := if h.launchAt.isSome then 1 else 0
  if 257 < h.length.toNat then 257 - lw else max 2 (h.length.toNat - lw)

def echoEffect (h : Hdr) (addr : BitVec 64) (data : List Byte) (s : State) : State :=
  command s h { row 0x7F (echoUnits h) .none with loader := true } [] fun s =>
    let n := 16 * (h.length.toNat - 2)
    if addr.toNat % 8 ≠ 0 then refuse s h 0x7F BAD_PARAM 0
    else dataReply s h 0x7F addr.toNat (padTo n data)

def execEcho (h : Hdr) (addr : BitVec 64) (data : List Byte) (s : State) : Host.Outcome State Fault Refusal :=
  done s (echoEffect h addr data s)

/-! ### SITE_MAP (R10, R288) -/

def siteMapEffect (h : Hdr) (site : Byte) (clear : Bool) (mask : BitVec 256) (s : State) : State :=
  command s h { row 0x40 4 .none with mc := true } [] fun s =>
    match cringOf site.toNat with
    | none => refuse s h 0x40 BAD_PARAM 0
    | some k =>
      let m := if clear then 0#256 else mask
      if (List.finRange 64).any fun j => j != k && (s.sites[j] &&& m) != 0 then refuse s h 0x40 BAD_PARAM 0
      else if (maskRidges (s.sites[k] ||| m)).any fun r => runs s r then refuse s h 0x40 BUSY 0
      else replyDone { s with sites := s.sites.set k m } h 0x40 0

def execSiteMap (h : Hdr) (site : Byte) (clear : Bool) (mask : BitVec 256) (s : State) : Host.Outcome State Fault Refusal :=
  done s (siteMapEffect h site clear mask s)

/-! ### EVENT_ROUTE (R364) -/

def eventRouteEffect (h : Hdr) (source action : Byte) (enable : Bool) (s : State) : State :=
  command s h { row 0x38 2 .none with mc := true } [] fun s =>
    if 57 ≤ action.toNat then refuse s h 0x38 BAD_PARAM 0
    else
      let m : BitVec 64 := BitVec.ofNat 64 (2 ^ action.toNat)
      let i : Fin 256 := Fin.ofNat 256 source.toNat
      let s := { s with events := { s.events with routes := vmod s.events.routes i fun x => if enable then x ||| m else x &&& ~~~m } }
      replyDone s h 0x38 0

def execEventRoute (h : Hdr) (source action : Byte) (enable : Bool) (s : State) : Host.Outcome State Fault Refusal :=
  done s (eventRouteEffect h source action enable s)

/-! ### CAL_RUN (R345 to R348) -/

/-- Converters in scope: those of the named ridges' dies. -/
def calConverters (rs : List RidgeId) : List Nat := (List.range 64).filter fun c => rs.any fun r => decide (r.val / 4 = c / 16)

def calRunEffect (h : Hdr) (scope : Byte) (s : State) : State :=
  let rs := hdrRidges h
  command s h (row 0x48 2 .either) (rs.map .ridge) fun s =>
    let v := scope.toNat
    let busy := (rs.any fun r => runs s r || portBusy s.ports[r]) || (bit v 2 && (calConverters rs).any (convHeld s))
    if v = 0 ∨ 31 < v then refuse s h 0x48 BAD_PARAM 0
    else if busy then refuse s h 0x48 BUSY 0
    else endUnready (settle (startLong { s with cal := { s.cal with running := true } } h 0x48 (.calRun scope rs)))

def execCalRun (h : Hdr) (scope : Byte) (s : State) : Host.Outcome State Fault Refusal := done s (calRunEffect h scope s)

/-- SCOPE bit of a class of Table 14-7; none for the record of class 5. -/
def calBit (cls : Nat) : Option Nat := match cls with | 0 => some 1 | 1 => some 0 | 2 => some 3 | 3 => some 4 | 4 => some 2 | _ => none

/-- A measured correction lies in the scope of the run. -/
def inCalScope (scope : Nat) (rs : List RidgeId) (x : CalResult) : Bool :=
  let u := x.unit.val
  let mine := match x.cls.val with
    | 0 | 1 => decide ((Fin.ofNat 16 (u / 16) : RidgeId) ∈ rs)
    | 4 => decide (u ∈ calConverters rs)
    | _ => decide ((Fin.ofNat 16 u : RidgeId) ∈ rs)
  mine && calSelOk (calKey x.cls.val u x.item.val) && (x.cls.val != 1 || decide (x.item.val ≤ 1)) &&
    (x.cls.val != 4 || x.item.val == 0) && (match calBit x.cls.val with | some b => bit scope b | none => false)

/-- The item holds a pair (R350), so that its gain is bounded too (R347). -/
def calFails (x : CalResult) : Bool :=
  let o := clampI (-32768) 32767 x.offset
  let pair := calIsPair (calKey x.cls.val x.unit.val x.item.val)
  decide (o ≠ x.offset) || (pair && decide (x.gain ≠ clampI 14336 18432 x.gain)) || (x.cls.val == 4 && x.outOfBounds)

/-- The word stored: a failing pair at its nearest bound (R347). -/
def calWordOf (x : CalResult) : Nat :=
  let o := unsign 16 (clampI (-32768) 32767 x.offset)
  if calIsPair (calKey x.cls.val x.unit.val x.item.val) then (clampI 14336 18432 x.gain).toNat + o * 65536 else o

def putCal (s : State) (cls unit item v : Nat) : State :=
  { s with cal := { s.cal with items := sput calDflt s.cal.items (calKey cls unit item) (BitVec.ofNat 32 v) } }

/-- One correction takes effect; a failing converter is out of service until a later run finds it within bounds (R347). -/
def applyCalResult (s : State) (x : CalResult) : State :=
  let s := putCal s x.cls.val x.unit.val x.item.val (calWordOf x)
  let s := if calFails x then (match calBit x.cls.val with | some b => setBits s gCALSTATUS (2 ^ b) | none => s) else s
  let m := BitVec.ofNat 64 (2 ^ x.unit.val)
  let out := if calFails x then s.cal.oos ||| m else s.cal.oos &&& ~~~m
  if x.cls.val = 4 then { s with cal := { s.cal with oos := out } } else s

/-- The first of two results in the order of GLB_CAL_FAIL: the lower unit, then the lower class. -/
def calBefore (a b : CalResult) : Bool := decide (a.unit.val < b.unit.val) || (a.unit == b.unit && decide (a.cls.val < b.cls.val))

/-- GLB_CAL_FAIL: the lowest failing unit of the run. -/
def calFailWord (l : List CalResult) : Nat :=
  match (l.filter calFails).foldl (fun best x => match best with
    | none => some x
    | some b => if calBefore x b then some x else some b) none with
  | none => 0
  | some x => x.unit.val + x.cls.val * 256 + 2 ^ 31

/-- The record of a run on a ridge: temperature and SCOPE, and C_bg of its pins back to 0. -/
def calRidgeEnd (scope : Nat) (s : State) (r : RidgeId) : State :=
  let pins := (List.finRange 16).map fun l => (pinOf r l).val
  let s := each pins (fun s p => putCal (putCal s 1 p 2 0) 1 p 3 0) s
  let s := putCal s 5 r.val 0 (unsign 16 (s.sensors[Fin.castLE (by decide : 16 ≤ 24) r]).value)
  let s := putCal s 5 r.val 1 scope
  each ((List.finRange 16).map (pinOf r)) (fun s p =>
    markSat s p (List.range 10 ++ pmuItems s p 12 ++ pmuItems s p 13)) s

/-- The converters' noise (Table 14-7 class 4 item 1). -/
def calNoise (s : State) (c : Nat) : State := putCal (tickFree s) 4 c 1 (Config.noise s.free).toNat

/-- The items that a run has set: its results, and of the ridges in scope C_bg and the record, with the noise of the converters. -/
def calKeys (scope : Nat) (rs : List RidgeId) (l : List CalResult) : List Nat :=
  l.map (fun x => calKey x.cls.val x.unit.val x.item.val) ++
    rs.flatMap (fun r => [calKey 5 r.val 0, calKey 5 r.val 1] ++
      (List.finRange 16).flatMap fun i => [calKey 1 (pinOf r i).val 2, calKey 1 (pinOf r i).val 3]) ++
    (if bit scope 2 then (calConverters rs).map fun c => calKey 4 c 1 else [])

/-- Background calibration goes on from what the run has set, and elsewhere from what the run before left (R349). -/
def calBase (c : Cal) (keys : List Nat) : CalTable := keys.foldl (fun b k => sput calDflt b k (sget calDflt c.items k)) c.base

/-- CAL_RUN_DONE (R346, R347, Table 15-2): all new corrections take effect together, and the parts in scope return to their configured
states; the reply follows once the pins have. Monitors 10 and 11 gate the run. -/
def calRunDoneEffect (results : List CalResult) (s : State) : State :=
  match findLong s fun j => match j with | .calRun _ _ => true | _ => false with
  | none => s
  | some l =>
    match l.job with
    | .calRun scope rs =>
      if bearSafe s || s.owl.shutdown || !s.smons[10].released || !s.smons[11].released then s
      else
        let was := s
        let v := scope.toNat
        let l' := results.filter (inCalScope v rs)
        let s := each l' applyCalResult (dropLong s l)
        let s := if bit v 2 then each (calConverters rs) calNoise s else s
        let s := putWord (each rs (calRidgeEnd v) s) gCALFAIL (calFailWord l')
        let more := s.link.longs.any fun l => match l.job with | .calRun _ _ => true | _ => false
        let s := { s with cal := { s.cal with base := calBase s.cal (calKeys v rs l'), valid := true, running := more }
                          working := s.working.map fun w => { w with cal := s.cal.items, oos := s.cal.oos } }
        let pins := rs.flatMap fun r => (List.finRange 16).map fun i => WaitOn.pin (pinOf r i)
        waitFor (settle (replaceJobs (each rs dpsApply s)))
          ⟨l.hdr, 0x48, pins, changedWords was s, 0, some (was.cal, was.working)⟩
    | _ => s

def execCalRunDone (results : List CalResult) (s : State) : Host.Outcome State Fault Refusal := done s (calRunDoneEffect results s)

/-! ### FW_UPDATE (R336, R341) -/

/-- An image whose first four bytes read 0xFFFFFFFF is absent (R336). -/
def fwAbsent (i : FwImage) : Bool := i.magic == 0xFFFFFFFF#32

/-- Steps 1 to 5 of R336: 0, or the step's code: 1 format, 2 key hash, 3 signature, 4 GCM tag, 5 MIN_REV. -/
def imageCheck (fuses : Fuses) (patch : Bool) (i : FwImage) : Nat :=
  let len := i.payloadLen.toNat
  let form := decide (i.magic = 0x5348494D#32) && i.kind == (if patch then 1 else 0) && i.version == 1 && i.reservedZero &&
    (if patch then len % 16 == 0 && inRange 1 2048 ((len - 128) / 16) else inRange 1 1048320 len)
  if !form then 1
  else if !i.keyHashOk || fuses.keyRowError then 2
  else if !i.sigOk then 3
  else if patch && !i.gcmOk then 4
  else if !patch && decide (0x42 < i.minRev.toNat) then 5
  else 0

/-- The flash slot of an image (Table 14-2). -/
def fwSlot (patch : Bool) : Nat × Nat := if patch then (0x100000, 0x10000) else (0, 0x100000)

def eraseImage (s : State) (patch : Bool) : State :=
  let f := if patch then { s.flash with patch := none } else { s.flash with firmware := none }
  flashCommand { s with flash := f } (fwSlot patch).1 (fwSlot patch).2

def fwUpdateEffect (h : Hdr) (target : Byte) (len : Word) (addr : BitVec 64) (img : FwImage) (s : State) : State :=
  command s h { row 0x60 2 .none with loader := true } [.flash] fun s =>
    let patch := target == 1
    let n := len.toNat
    let fox := if s.boot.stage = 7 then !isSet s (gCSPCFG 0) 0 else foxFlash s
    if 1 < target.toNat ∨ addr.toNat % 64 ≠ 0 then refuse s h 0x60 BAD_PARAM 0
    else if !fox then refuse s h 0x60 BUSY 0
    else if n < 256 ∨ (fwSlot patch).2 < n ∨ n ≠ 256 + img.payloadLen.toNat then refuse s h 0x60 BAD_PARAM 0
    else if imageCheck s.boot.fuses patch img ≠ 0 then refuse s h 0x60 AUTH_FAIL 0
    else startLong (eraseImage s patch) h 0x60 (.fwUpdate patch img)

def execFwUpdate (h : Hdr) (target : Byte) (len : Word) (addr : BitVec 64) (img : FwImage) (s : State) :
    Host.Outcome State Fault Refusal := done s (fwUpdateEffect h target len addr img s)

/-- FW_UPDATE_DONE (R341): programmed and read back; in loader mode a firmware update restarts the boot at STAGE 1. -/
def fwUpdateDoneEffect (s : State) : State :=
  match findLong s fun j => match j with | .fwUpdate _ _ => true | _ => false with
  | none => s
  | some l =>
    match l.job with
    | .fwUpdate patch img =>
      if bearSafe s || s.owl.shutdown then s
      else
        let f := if patch then { s.flash with patch := some img } else { s.flash with firmware := some img }
        let s := replyDone { dropLong s l with flash := f } l.hdr 0x60 0
        if s.boot.stage = 7 ∧ !patch then
          { s with boot := { s.boot with stage := 1, mode := .normal, fwResult := 0, patchResult := 0, romLoader := true, sfdpOk := false } }
        else s
    | _ => s

def execFwUpdateDone (s : State) : Host.Outcome State Fault Refusal := done s (fwUpdateDoneEffect s)

end Sys2Proof.Machine
end

