-- ==== Sys2Proof/Machine/Boot.lean ====
section
/-! DEFINITION. The power-up sequence up to the application of the image, Fox's watchdog, the clock source, and background
calibration (chapters 4 and 14). -/

namespace Sys2Proof.Machine

/-! ### The boot sequence (Table 14-1) -/

/-- Boot steps happen while POR_N is high and no thermal shutdown is latched. -/
def bootRuns (s : State) (stage : Nat) : Bool := s.boot.stage.toNat == stage && !s.boot.por && !s.owl.shutdown

def modBoot (s : State) (f : Boot → Boot) : State := { s with boot := f s.boot }

/-- Loader mode (Table 14-4): Fox stays in its ROM loader; the patch is not read. -/
def toLoader (s : State) (result : BitVec 3) : State :=
  putField (modBoot s fun b => { b with stage := 7, mode := .loader, fwResult := result, patchResult := 7, romLoader := true })
    gFWLEVELS 31 0 0

/-- FOX_RELEASE (R360, R319): every shutdown comparator and supply monitors 0 to 4 have released. -/
def foxReleaseEffect (s : State) : State :=
  let clean := s.sensors.all (·.compReleased) && (List.finRange 5).all fun m => (s.smons[Fin.castLE (by decide : 5 ≤ 12) m]).released
  if !bootRuns s 0 || !clean then s
  else
    let s := modBoot s fun b => { b with stage := 1, foxUp := true, romLoader := true }
    if isSet s (gCSPCFG 0) 0 then toLoader s 7 else s

def execFoxRelease (s : State) : Host.Outcome State Fault Refusal := done s (foxReleaseEffect s)

/-- SFDP_READ (R321, R322, R335). -/
def sfdpReadEffect (valid profile sizeOk continuous : Bool) (s : State) : State :=
  if !bootRuns s 1 then s
  else if !valid || !sizeOk then toLoader s 1
  else
    let s := modBoot s fun b => { b with stage := 2, sfdpOk := true }
    let s := { s with xip := { s.xip with canCont := continuous } }
    if profile then setBits (assertSelect (putField s (gCSPCFG 0) 15 8 0)) (gCSPSTATUS 0) 1 else setBits s (gCSPSTATUS 0) 2

def execSfdpRead (valid profile sizeOk continuous : Bool) (s : State) : Host.Outcome State Fault Refusal :=
  done s (sfdpReadEffect valid profile sizeOk continuous s)

/-- FW_RESULT of an image as it is read (Table 14-11). -/
def fwResultOf (s : State) (i : Option FwImage) : Nat :=
  match i with
  | none => 2
  | some x => if fwAbsent x then 2 else match imageCheck s.boot.fuses false x with | 0 => 0 | 5 => 6 | k => k + 2

/-- The patch level in force; 0 under the ROM baseline (R338). -/
def patchLevel (s : State) : Nat := field s gFWLEVELS 31 16

/-- FIRMWARE_VERIFY (R319, R336, R340): at STAGE 2, and once more after a watchdog restart, from CSP0 as a master. A firmware that does
not pass then leaves Fox in its ROM loader. -/
def firmwareVerifyEffect (i : Option FwImage) (s : State) : State :=
  let t := { s with flash := { s.flash with firmware := i } }
  let res := fwResultOf s i
  if bootRuns s 2 then
    (match i with
      | some x => if res = 0 then putField (modBoot t fun b => { b with stage := 3, fwResult := 0, romLoader := false }) gFWLEVELS 15 0 x.level.toNat
        else toLoader t (BitVec.ofNat 3 res)
      | none => toLoader t 2)
  else if bootRuns s 6 && s.boot.reload && !isSet s (gCSPCFG 0) 0 then
    let t := modBoot t fun b => { b with reload := false }
    (match i with
      | some x =>
        if res = 0 ∧ x.partnerMin.toNat ≤ patchLevel s ∧ patchLevel s ≤ x.partnerMax.toNat then
          putField (modBoot t fun b => { b with romLoader := false }) gFWLEVELS 15 0 x.level.toNat
        else t
      | none => t)
  else s

def execFirmwareVerify (i : Option FwImage) (s : State) : Host.Outcome State Fault Refusal := done s (firmwareVerifyEffect i s)

/-- Each image's level lies in the other's partner range (R337). -/
def partners (fw patch : FwImage) : Bool :=
  decide (fw.partnerMin.toNat ≤ patch.level.toNat) && decide (patch.level.toNat ≤ fw.partnerMax.toNat) &&
    decide (patch.partnerMin.toNat ≤ fw.level.toNat) && decide (fw.level.toNat ≤ patch.partnerMax.toNat)

/-- PATCH_RESULT (Table 14-11). -/
def patchResultOf (s : State) (i : Option FwImage) : Nat :=
  match i with
  | none => 1
  | some x => if fwAbsent x then 1 else match imageCheck s.boot.fuses true x with
    | 0 => match s.flash.firmware with
      | some fw => if partners fw x then 0 else 6
      | none => 6
    | k => k + 1

/-- PATCH_LOAD (R337, R338, Tables 14-3, 14-4): the patch is loaded into patch RAM, or Badger runs its ROM microcode alone; Badger leaves reset. -/
def patchLoadEffect (i : Option FwImage) (s : State) : State :=
  if !bootRuns s 3 then s
  else
    let res := patchResultOf s i
    let (level, entries, words) := match i with | some x => if res = 0 then (x.level.toNat, x.entries, x.words) else (0, [], []) | none => (0, [], [])
    let s := { s with flash := { s.flash with patch := i } }
    putField (modBoot s fun b =>
      { b with stage := 4, mode := if res = 0 then .normal else .baseline, patchResult := BitVec.ofNat 4 res, patchDone := true
               patchRam := words, patchEntries := entries })
      gFWLEVELS 31 16 level

def execPatchLoad (i : Option FwImage) (s : State) : Host.Outcome State Fault Refusal := done s (patchLoadEffect i s)

/-- PCIE_LINK_UP (R270). -/
def pcieLinkUpEffect (s : State) : State :=
  if s.boot.por then s else modBoot s fun b => { b with pcieUp := true }

def execPcieLinkUp (s : State) : Host.Outcome State Fault Refusal := done s (pcieLinkUpEffect s)

/-- POWERUP_CAL_DONE (R348, Table 15-2): monitors 10 and 11 gate it. -/
def powerupCalDoneEffect (s : State) : State :=
  if (bootRuns s 4 || bootRuns s 5) && s.smons[10].released && s.smons[11].released then
    modBoot s fun b => { b with calDone := true }
  else s

def execPowerupCalDone (s : State) : Host.Outcome State Fault Refusal := done s (powerupCalDoneEffect s)

/-- HBM_TRAINING_DONE (R352, Tables 14-1, 15-2): monitors 5 and 6 gate it; the slots are checked, and the newer copy goes to
the HBM working copy. -/
def hbmTrainingDoneEffect (ok : List Bool) (s : State) : State :=
  if bootRuns s 4 && s.smons[5].released && s.smons[6].released then
    let slots := Vector.ofFn fun k : Fin 3 => if ok.getD k.val true then s.flash.slots[k] else none
    let s := { s with flash := { s.flash with slots := slots } }
    let chosen := (copyContent s.flash (copyOf s.flash (newerIsB s.flash))).map (·.image)
    modBoot { s with working := chosen } fun b => { b with stage := 5, hbmUp := true, slotsRead := true }
  else s

def execHbmTrainingDone (ok : List Bool) (s : State) : Host.Outcome State Fault Refusal := done s (hbmTrainingDoneEffect ok s)

/-! ### Fox's watchdog (R20) -/

/-- Long commands that need Fox end with it. -/
def needsFox (j : LongJob) : Bool := match j with | .save _ _ _ _ => true | .fwUpdate _ _ => true | _ => false

/-- FOX_WATCHDOG (R20, Table 16-3): Bear restarts Fox from its ROM loader; parameter map, patch and ridges go on. -/
def foxWatchdogEffect (s : State) : State :=
  if !bootRuns s 6 || !foxReady s then s
  else
    let s := contained s ⟨36, 0, .contained, 6, 0, none, false, false⟩ id
    let s := modBoot s fun b => { b with romLoader := true, reload := true }
    let s := idleCols (peerResetB (peerResetA s [35]) [38, 39, 44]) [35, 38, 39, 44]
    let s := { s with xip := { s.xip with lines := [], filling := [], cont := false } }
    if bearSafe s then s
    else
      each (s.link.longs.filter fun l => needsFox l.job) (fun s l => refuse (dropLong s l) l.hdr l.opcode.toNat ABORTED_FAULT 0) s

def execFoxWatchdog (s : State) : Host.Outcome State Fault Refusal := done s (foxWatchdogEffect s)

/-! ### Clock source (R122, R123) -/

/-- REFCLK_LOSS: holdover on the resonator. -/
def refclkLossEffect (s : State) : State :=
  if s.boot.por then s
  else
    let was := s.boot.resonator
    let s := modBoot s fun b => { b with refclk := false, resonator := true }
    if was then s else raise (setBits s gCLKSTATUS 4) 0xD2 0

def execRefclkLoss (s : State) : Host.Outcome State Fault Refusal := done s (refclkLossEffect s)

def refclkPresentEffect (s : State) : State := if s.boot.por then s else modBoot s fun b => { b with refclk := true }

def execRefclkPresent (s : State) : Host.Outcome State Fault Refusal := done s (refclkPresentEffect s)

/-- CLOCK_REVERT: with REVERT set, REFCLK present, and every ridge UNBOUND or BOUND. -/
def clockRevertEffect (s : State) : State :=
  if isSet s gCLKCFG 0 && s.boot.refclk && s.boot.resonator && (allRidges.all fun r => !runs s r) then
    modBoot s fun b => { b with resonator := false }
  else s

def execClockRevert (s : State) : Host.Outcome State Fault Refusal := done s (clockRevertEffect s)

/-! ### The resonator's correction (R124 to R126) -/

/-- The table's value at a temperature in 0.1 °C: linear between its points, the rounding left free. -/
def tcompAt (pts : List (BitVec 24)) (v : Int) : Int :=
  if v < 0 ∨ 1100 < v then (Config.tcompOutside v).toInt
  else
    let k := v.toNat / 100
    let a := (pts.getD k 0).toInt
    let b := (pts.getD (min 11 (k + 1)) 0).toInt
    let n := (b - a) * (v.toNat % 100 : Nat)
    a + n / 100 + (if n % 100 ≠ 0 ∧ Config.roundsUp n 100 then 1 else 0)

/-- TCOMP_UPDATE (R124, R126): every 10 ms C = TCOMP(T) + GLB_XO_AGE; it holds its value while the core sensor reads BROKEN. -/
def tcompUpdateEffect (s : State) : State :=
  let x := s.sensors[Config.coreSensor]
  if s.boot.por || x.broken then s
  else
    let t := tcompAt s.boot.fuses.xoTcomp x.value
    putWord { s with boot := { s.boot with xoCorr := t + signed 24 (word s gXOAGE) } } gXOTCOMP (unsign 24 t)

def execTcompUpdate (s : State) : Host.Outcome State Fault Refusal := done s (tcompUpdateEffect s)

/-- AGE_UPDATE (R125): GLB_XO_AGE moves toward the measured residual by at most 10 units. -/
def ageUpdateEffect (residual : Int) (s : State) : State :=
  if s.boot.resonator || !s.boot.refclk || !isSet s gCLKCFG 1 then s
  else
    let age := signed 24 (word s gXOAGE)
    putWord s gXOAGE (unsign 24 (clampI (-200000) 200000 (age + clampI (-10) 10 (residual - age))))

def execAgeUpdate (residual : Int) (s : State) : Host.Outcome State Fault Refusal := done s (ageUpdateEffect residual s)

/-! ### Background calibration (R119, R349) -/

/-- Hold a value within d of another, and say whether it was cut. -/
def within (base d x : Int) : Int × Bool := (clampI (base - d) (base + d) x, decide (x < base - d) || decide (base + d < x))

/-- C_bg of one pin and edge kind follows its drift, within ±3 ps of the value that CAL_RUN left. -/
def trackPin (s : State) (p kind : Nat) : State × Bool :=
  let base := signed 16 (sget calDflt s.cal.base (calKey 1 p (2 + kind))).toNat
  let (v, cut) := within base 4 (Config.drift s.free (2 * p + kind))
  (putCal s 1 p (2 + kind) (unsign 16 v), cut)

def trackPins : List Nat → State → State × Bool
  | [], s => (s, false)
  | p :: ps, s =>
    let (s, a) := trackPin s p 0
    let (s, b) := trackPin s p 1
    let (s, c) := trackPins ps s
    (s, a || b || c)

/-- Pins whose C_bg may change now: while a CAL_RUN is in progress, those of idle ridges only (R119). -/
def bgPins (s : State) : List Nat :=
  ((List.finRange 256).filter fun p => !s.cal.running || !runs s (pinRidge p)).map fun p => p.val

/-- BG_CAL (R349): in a gap of at least 20 µs between a converter's bookings, its correction follows the measurement within
its bound, and C_bg of the pins follows their drift. -/
def bgCalEffect (conv : Fin 64) (gain offset : Int) (s : State) : State :=
  let free := !convInCal s conv.val && clear (convBooked s none conv.val) 0 (usFu 20)
  if !isSet s gCALCFG 0 || !booted s || bearSafe s || s.owl.shutdown || !free then s
  else
    let base := (sget calDflt s.cal.base (calKey 4 conv.val 0)).toNat
    let (g, a) := within (bits base 15 0 : Nat) Config.bgGain gain
    let (o, b) := within (signed 16 (bits base 31 16)) Config.bgOffset offset
    let s := putCal s 4 conv.val 0 ((clampI 0 65535 g).toNat + unsign 16 (clampI (-32768) 32767 o) * 65536)
    let (s, c) := trackPins (bgPins s) s
    let s := tickFree s
    if a || b || c then raise (setBits s gCALSTATUS 32) 0xD7 0 else s

def execBgCal (conv : Fin 64) (gain offset : Int) (s : State) : Host.Outcome State Fault Refusal := done s (bgCalEffect conv gain offset s)

end Sys2Proof.Machine
end

