-- ==== Sys2Proof/Machine/Monitors.lean ====
section
/-! DEFINITION. Temperatures, supplies, process monitors, Owl, thermal shutdown, and the event router (chapter 15). -/

namespace Sys2Proof.Machine

/-! ### Owl (R367 to R370) -/

def modOwl (s : State) (f : Owl → Owl) : State := { s with owl := f s.owl }

/-- A set of ridges as a mask. -/
def ridgeMask (l : List RidgeId) : BitVec 16 := BitVec.ofNat 16 (bitsWhere 16 fun k => l.any fun r => r.val == k)

/-- Reading of a ridge's own sensor. -/
def ridgeTemp (s : State) (r : RidgeId) : Int := (s.sensors[Fin.castLE (by decide : 16 ≤ 24) r]).value

def activeRidges (s : State) : List RidgeId := allRidges.filter fun r => runs s r

/-- The ridges that the rule of R367 names now. -/
def owlSet (s : State) : BitVec 16 :=
  ridgeMask (if (hottest s).val < 16 then allRidges.filter fun r => decide (thermMax s - 50 ≤ ridgeTemp s r) else activeRidges s)

/-- Every ridge of the set asks for a factor; it applies at the ridge's next segment boundary (R368). -/
def askFactor (s : State) (k : Nat) : State :=
  each (allRidges.filter fun r => s.owl.set.getLsbD r.val) (fun s r => modR s r fun x => { x with owlNext := k }) s

/-- Enter STEP1 or STEP2 with the set enlarged (R367, Table 15-6). -/
def owlStep (s : State) (st : OwlState) (more : BitVec 16) : State :=
  let s := modOwl s fun o => { o with state := st, set := o.set ||| more, graceAt := some s.ticks }
  let s := askFactor s (if st = .step1 then 1 else 2)
  raise (setBits s gOWLSTATUS 8) 0xDA s.owl.set.toNat

/-- What GLB_THERM_MAX does to Owl after a conversion (R367, R369). -/
def owlSee (s : State) : State :=
  let m := thermMax s
  if s.owl.shutdown then s
  else
    let s := modOwl s fun o => { o with coolAt := if m < 970 then some (o.coolAt.getD s.ticks) else none }
    match s.owl.state with
    | .normal =>
      if m < 1000 then s
      else
        let s := modOwl s fun o => { o with state := .request, set := owlSet s, graceAt := some s.ticks }
        raise (setBits s gOWLSTATUS 4) 0xD9 s.owl.set.toNat
    | .request =>
      if m < 970 then modOwl s fun o => { o with graceAt := none }
      else if 1000 ≤ m ∧ s.owl.graceAt = none then modOwl s fun o => { o with graceAt := some s.ticks }
      else s
    | _ => s

/-- GRACE in ticks. -/
def graceTicks (s : State) : Nat := msTicks (field s gOWLCFG 9 0)

/-- OWL_GRACE_EXPIRY (R367, Table 15-6). -/
def owlGraceExpiryEffect (s : State) : State :=
  let ripe := match s.owl.graceAt with | some t => decide (graceTicks s ≤ s.ticks - t) && decide (1000 ≤ thermMax s) | none => false
  if !ripe || s.owl.shutdown then s
  else match s.owl.state with
    | .request => owlStep s .step1 (owlSet s)
    | .step1 => owlStep s .step2 (owlSet s)
    | _ => s

def execOwlGraceExpiry (s : State) : Host.Outcome State Fault Refusal := done s (owlGraceExpiryEffect s)

/-- OWL_RELEASE (R369, R370): below 97.0 °C for GRACE, and no sensor broken. -/
def owlReleaseEffect (s : State) : State :=
  let cool := match s.owl.coolAt with | some t => decide (graceTicks s ≤ s.ticks - t) | none => false
  if !cool || s.owl.state == .normal || anyBroken s || s.owl.shutdown then s
  else
    let m := s.owl.set.toNat
    let s := askFactor s 0
    raise (modOwl s fun o => { o with state := .normal, set := 0, graceAt := none }) 0xDB m

def execOwlRelease (s : State) : Host.Outcome State Fault Refusal := done s (owlReleaseEffect s)

/-! ### Temperatures (R357, R358, R360) -/

def modSensor (s : State) (k : Fin 24) (f : Sensor → Sensor) : State := { s with sensors := vmod s.sensors k f }

/-- A sensor breaks: it reads 150.0 °C, and Owl enters STEP2 at once (R357, R370). -/
def sensorBreaks (s : State) (k : Fin 24) : State :=
  let s := raise (modSensor s k fun x => { x with value := 1500, broken := true, goodSince := s.ticks }) 0xDC k.val
  let more := ridgeMask (if k.val < 16 then [Fin.ofNat 16 k.val] else activeRidges s)
  let s := modOwl s fun o => { o with coolAt := none }
  if s.owl.state = .step2 ∨ s.owl.shutdown then s else owlStep s .step2 more

/-- TEMP_CONVERSION (R357, R360, R367). -/
def tempConversionEffect (k : Fin 24) (v : Int) (s : State) : State :=
  let inRange := decide (-400 ≤ v) && decide (v ≤ 1500)
  let x := s.sensors[k]
  if s.boot.por then s
  else if x.broken then modSensor s k fun x => { x with raw := v, goodSince := if inRange then x.goodSince else s.ticks }
  else
    let s := modSensor s k fun x =>
      { x with value := v, raw := v, bad := if inRange then 0 else x.bad + 1
               released := x.released || (inRange && decide (v < 970)), converted := x.converted || inRange }
    if 3 ≤ (s.sensors[k]).bad then sensorBreaks s k else owlSee s

def execTempConversion (k : Fin 24) (v : Int) (s : State) : Host.Outcome State Fault Refusal := done s (tempConversionEffect k v s)

/-- SENSOR_RECOVER (R357): its conversions have stayed inside the range for 1 s. -/
def sensorRecoverEffect (k : Fin 24) (s : State) : State :=
  let x := s.sensors[k]
  if x.broken ∧ msTicks 1000 ≤ s.ticks - x.goodSince then
    owlSee (modSensor s k fun x => { x with value := x.raw, broken := false, bad := 0 })
  else s

def execSensorRecover (k : Fin 24) (s : State) : Host.Outcome State Fault Refusal := done s (sensorRecoverEffect k s)

/-- THERMAL_SHUTDOWN (R360, R371): a released comparator trips; ridges, ports, Badger and Marten are held in reset. -/
def thermalShutdownEffect (k : Fin 24) (s : State) : State :=
  if !(s.sensors[k]).compReleased || s.owl.shutdown || s.boot.por then s
  else
    let s := modOwl s fun o => { o with shutdown := true }
    let s := logFault s ⟨52, 0, .fatal, 0, 0, none, false, false⟩ 0 0
    let s := each allRidges (fun s r => modR s r fun x => x.resetIsland s.ticks) s
    { s with ports := Vector.replicate 16 Port.reset, tickets := []
             link := { s.link with inbox := [], waits := [], longs := [], timed := [] } }

def execThermalShutdown (k : Fin 24) (s : State) : Host.Outcome State Fault Refusal := done s (thermalShutdownEffect k s)

/-! ### Supplies (R359 to R362) -/

def modSmon (s : State) (m : Fin 12) (f : Smon → Smon) : State := { s with smons := vmod s.smons m f }

/-- Latch bit of supply monitor m. -/
def smonBit (m : Fin 12) : Fin 64 := Fin.ofNat 64 (40 + m.val)

/-- A fatal source is no longer asserted (R386). -/
def deassert (s : State) (b : Fin 64) : State :=
  startQuiet { s with bear := { s.bear with asserted := s.bear.asserted &&& ~~~(BitVec.ofNat 64 (2 ^ b.val)) } }

/-- SUPPLY_RESET_FAULT (R361): the monitor asserts, and the fault is fatal and immediate. -/
def supplyResetFaultEffect (m : Fin 12) (s : State) : State :=
  if !(s.smons[m]).released || s.boot.por || s.owl.shutdown then s
  else fatal (modSmon s m fun x => { x with released := false, resetLow := true }) (smonBit m) 0 true false

def execSupplyResetFault (m : Fin 12) (s : State) : Host.Outcome State Fault Refusal := done s (supplyResetFaultEffect m s)

/-- SUPPLY_DIP (R362): nothing is rolled back; the suspect window runs from 1 µs before the detection. -/
def supplyDipEffect (m : Fin 12) (s : State) : State :=
  let x := s.smons[m]
  if !x.released || x.warn || s.boot.por || s.owl.shutdown then s
  else
    let s := modSmon s m fun x =>
      { x with warn := true, suspectFrom := some (s.now - ticksFu (usTicks 1)), suspectTo := none
               suspects := match x.suspectFrom, x.suspectTo with | some f, some e => (f, e) :: x.suspects | _, _ => x.suspects }
    let s := raise (setBits s gSMONSTATUS (2 ^ (16 + m.val))) 0xD8 m.val
    contained s ⟨smonBit m, 1, .contained, 0, 0, none, false, false⟩ id

def execSupplyDip (m : Fin 12) (s : State) : Host.Outcome State Fault Refusal := done s (supplyDipEffect m s)

/-- SUSPECT_WINDOW_END (R362): 10 µs after the input is clean again. -/
def suspectWindowEndEffect (m : Fin 12) (s : State) : State :=
  if (s.smons[m]).warn then modSmon s m fun x => { x with warn := false, suspectTo := some s.now } else s

def execSuspectWindowEnd (m : Fin 12) (s : State) : Host.Outcome State Fault Refusal := done s (suspectWindowEndEffect m s)

/-- MONITOR_RELEASE (R360, R386, Table 15-2): the input has been seen clean. -/
def monitorReleaseEffect (m : MonitorId) (s : State) : State :=
  if s.boot.por || s.owl.shutdown then s
  else match m with
    | .comparator k => modSensor s k fun x => { x with compReleased := true }
    | .supply m =>
      if (s.smons[m]).released then s
      else
        let s := deassert (modSmon s m fun x => { x with released := true, resetLow := false }) (smonBit m)
        if m = 9 then each allRidges dpsApply s else s

def execMonitorRelease (m : MonitorId) (s : State) : Host.Outcome State Fault Refusal := done s (monitorReleaseEffect m s)

/-- MONITOR_TIMEOUT (R360): still asserted 100 ms after the reset release. -/
def monitorTimeoutEffect (m : Fin 12) (s : State) : State :=
  let x := s.smons[m]
  if x.released || x.timedOut || x.resetLow || s.boot.por || s.owl.shutdown || decide (s.ticks - s.boot.since < msTicks 100) then s
  else contained (modSmon s m fun x => { x with timedOut := true }) ⟨smonBit m, 2, .contained, 0, 0, none, false, false⟩ id

def execMonitorTimeout (m : Fin 12) (s : State) : Host.Outcome State Fault Refusal := done s (monitorTimeoutEffect m s)

/-- PMON_GATE (R363). -/
def pmonGateEffect (counts : List (BitVec 20)) (s : State) : State :=
  if s.boot.por then s else { s with pmons := Vector.ofFn fun k : Fin 20 => counts.getD k.val 0 }

def execPmonGate (counts : List (BitVec 20)) (s : State) : Host.Outcome State Fault Refusal := done s (pmonGateEffect counts s)

/-! ### The event router (R364 to R366, R427, Tables 15-3, 15-4) -/

/-- Key under which the router remembers the source it delivered last: the col, or 47 for AON. -/
def colKey (c : Option (Fin 47)) : Nat := match c with | some c => c.val | none => 47

/-- The waiting sources of a col, and the one delivered next (R365). -/
def waitingSrcs (s : State) (c : Option (Fin 47)) : List Nat :=
  (skeys s.events.src).filter fun k => decide (colOf k = c.map fun x => x.val)

def nextSrc (s : State) (c : Option (Fin 47)) : Option Nat :=
  let l := waitingSrcs s c
  match l.find? fun k => decide (sget lastDflt s.events.last (colKey c) < k) with
  | some k => some k
  | none => l.head?

/-- A host notice (R366). -/
def hostNotice (s : State) (src : Nat) (e : EvtSrc) : State :=
  match cringOf (field s gEVTCFG 7 0) with
  | none => s
  | some c =>
    let entry := 0x81 + src * 2 ^ 16 + e.payload.toNat * 2 ^ 32 + flag e.ovf 63 + e.time.toNat * 2 ^ 64
    postNotice s ⟨c, .event (BitVec.ofNat 8 src), e.count, BitVec.ofNat 128 entry⟩

/-- One action of Table 15-4. In the safe state the ridges and ports take none. -/
def fireAction (src : Nat) (e : EvtSrc) (s : State) (a : Nat) : State :=
  let r : RidgeId := Fin.ofNat 16 a
  if a = 48 then hostNotice s src e
  else if 49 ≤ a then
    (if s.ring.enumerated && decide (a ≤ 56) then
      let s := sendRing s none (.event (Fin.ofNat 8 (a - 49)) s.ring.position)
      raise s (0xE8 + (a - 49)) s.ring.position.toNat
    else s)
  else if bearSafe s || !booted s then s
  else if a < 16 then serveWaits (each (gang s r) haltNow s)
  else if a < 32 then postPark s r
  else stopAcq s r

/-- The ports whose EVENT trigger names the source (R191). -/
def eventPorts (s : State) (src : Nat) : List RidgeId :=
  allRidges.filter fun n => trigSource s n == 2 && field s (aptW n 10) 11 4 == src

/-- One delivery: the counts reach the router, armed ridges and ports see the event, and each routed action fires once. -/
def deliverEvent (s : State) (src : Nat) (e : EvtSrc) : State :=
  let t := sget totalDflt s.events.total src
  let s := { s with events := { s.events with total := sput totalDflt s.events.total src (min 0x7FFFFFFF (t.1 + e.count), t.2 || e.ovf) } }
  let s := each allRidges (fun s r => ridgeEvent s src r) s
  let s := each (eventPorts s src) acqEvent s
  let row := s.events.routes[(Fin.ofNat 256 src : Fin 256)]
  each ((List.range 57).filter fun a => row.getLsbD a) (fireAction src e) s

/-- The col goes on to its next request, or is idle (R365, R400). -/
def nextRequest (s : State) (c : Fin 47) : State :=
  match nextSrc s (some c) with
  | some k => request s c.val k
  | none => { s with events := { s.events with flight := sput flightDflt s.events.flight c.val none } }

/-- EVENT_DELIVERY (R365): the request in flight on a col, or one source of the AON island itself. -/
def eventDeliveryEffect (c : Option (Fin 47)) (s : State) : State :=
  if s.owl.shutdown || s.boot.por then s
  else match c with
    | some c => match flightOf s c.val with
      | none => s
      | some (k, e) => nextRequest (deliverEvent s k e) c
    | none => match nextSrc s none with
      | none => s
      | some k =>
        let e := sget evtDflt s.events.src k
        deliverEvent { s with events := { s.events with
          src := sput evtDflt s.events.src k (evtDflt k), last := sput lastDflt s.events.last (colKey none) k } } k e

def execEventDelivery (c : Option (Fin 47)) (s : State) : Host.Outcome State Fault Refusal := done s (eventDeliveryEffect c s)

end Sys2Proof.Machine
end

