-- ==== Sys2Proof/Machine/Bear.lean ====
section
/-! DEFINITION. Bear's recovery, the fatal sources that are no supply, and the fault commands (chapter 16). -/

namespace Sys2Proof.Machine

/-! ### Fatal sources (R374, R386) -/

/-- HBM_TRAINING_LOSS: once the HBM has trained. -/
def hbmTrainingLossEffect (s : State) : State :=
  if !s.boot.hbmUp || s.boot.por || s.owl.shutdown then s else fatal s 22 0 true false

def execHbmTrainingLoss (s : State) : Host.Outcome State Fault Refusal := done s (hbmTrainingLossEffect s)

/-- MULTIPLIER_LOCK_LOSS. -/
def multiplierLockLossEffect (s : State) : State :=
  if s.boot.por || s.owl.shutdown then s else fatal s 35 0 true false

def execMultiplierLockLoss (s : State) : Host.Outcome State Fault Refusal := done s (multiplierLockLossEffect s)

/-- FATAL_SOURCE_DEASSERTS. -/
def fatalSourceDeassertsEffect (b : Fin 64) (s : State) : State := if s.boot.por then s else deassert s b

def execFatalSourceDeasserts (b : Fin 64) (s : State) : Host.Outcome State Fault Refusal := done s (fatalSourceDeassertsEffect b s)

/-! ### Recovery (R387, R388) -/

/-- Header and opcode of a command packet. -/
def packetOf : Instr → Option (Hdr × Nat)
  | .identify h _ => some (h, 0x01)
  | .paramWrite h _ _ => some (h, 0x02)
  | .paramRead (.packet h) _ _ _ => some (h, 0x03)
  | .paramWriteMulti h _ _ => some (h, 0x04)
  | .saveState h => some (h, 0x08)
  | .restoreState h _ _ => some (h, 0x09)
  | .segLoad h _ _ => some (h, 0x10)
  | .segRelease h _ => some (h, 0x11)
  | .segPin h _ => some (h, 0x12)
  | .segUnpin h _ => some (h, 0x13)
  | .progBind h _ _ _ _ _ => some (h, 0x14)
  | .timingWrite h _ _ _ _ => some (h, 0x18)
  | .timingSwap h => some (h, 0x19)
  | .launch h _ _ _ _ => some (h, 0x20)
  | .halt h _ _ _ _ => some (h, 0x21)
  | .eventJumpArm h _ _ _ => some (h, 0x22)
  | .measure h _ _ _ _ _ => some (h, 0x28)
  | .timeMeasure h _ _ _ _ _ _ _ => some (h, 0x29)
  | .captureArm h _ _ _ _ _ _ _ _ => some (h, 0x2A)
  | .acqArm h _ _ _ _ _ _ _ _ _ _ => some (h, 0x2B)
  | .queueConfig h _ _ _ _ _ _ _ _ _ => some (h, 0x30)
  | .queueFlush h _ _ => some (h, 0x31)
  | .eventRoute h _ _ _ => some (h, 0x38)
  | .siteMap h _ _ _ => some (h, 0x40)
  | .calRun h _ => some (h, 0x48)
  | .faultRead h _ => some (h, 0x50)
  | .faultClear h _ => some (h, 0x51)
  | .faultInject h _ _ => some (h, 0x52)
  | .ringEnum h _ => some (h, 0x58)
  | .syncCal h _ => some (h, 0x59)
  | .fwUpdate h _ _ _ _ => some (h, 0x60)
  | .echo h _ _ => some (h, 0x7F)
  | _ => none

/-- Put back the words that a command wrote. -/
def undoWords (s : State) (l : List (Nat × Word)) : State := each l (fun s x => putWord s x.1 x.2.toNat) s

/-- Put back what a command changed whose reply still waits: its words, and the corrections of a CAL_RUN. -/
def undoWait (s : State) (w : Wait) : State :=
  let s := undoWords s w.undo
  match w.cal with
  | some (c, k) => { s with cal := { c with running := s.cal.running }, working := k }
  | none => s

/-- Step 6 of R387: ABORTED_FAULT to every command that was taken and not replied to; its effects are absent. -/
def abortCommands (s : State) : State :=
  let inbox := s.link.inbox
  let waits := s.link.waits
  let longs := s.link.longs
  let s := { s with link := { s.link with inbox := [], waits := [], longs := [] }, cal := { s.cal with running := false } }
  let s := each (skeys s.queues) (fun s id => modQ s id fun q => { q with flush := none, flushLeft := none }) s
  let s := each waits undoWait s
  let s := each inbox (fun s i => match packetOf i with | some (h, op) => refuse s h op ABORTED_FAULT 0 | none => s) s
  let s := each waits (fun s w => refuse s w.hdr w.opcode.toNat ABORTED_FAULT 0) s
  let s := each longs (fun s l => match l.job with
    | .segLoad _ fresh => restage (each fresh.toList undoAlloc s) allRidges
    | _ => s) s
  let s := each longs (fun s l => refuse s l.hdr l.opcode.toNat ABORTED_FAULT 0) s
  each (List.finRange 64) (fun s q =>
    deliver (setTaken s q (s.sq[q].taken.map fun t =>
      if t.reply = none ∧ t.forwarded = none ∧ t.mc = none then
        { t with reply := some ⟨t.opcode, BitVec.ofNat 8 ABORTED_FAULT, t.tag, 0, s.now⟩ }
      else t)) q) s

/-- Step 7: the timed writes whose time passed, in the order of their instants. -/
def applyOverdue : Nat → State → State
  | 0, s => s
  | n + 1, s =>
    match firstTimed s with
    | none => s
    | some x => if reached s.now x.at_ then applyOverdue n (applyTimed s x) else s

/-- Steps 1 to 7 of R387. -/
def recover (s : State) : State :=
  let s := { s with bear := { s.bear with
    state := .recovering, quietAt := none, inject := [], recoveries := s.ticks :: s.bear.recoveries
    recovCnt := if s.bear.recovCnt = 0xFFFF#16 then s.bear.recovCnt else s.bear.recovCnt + 1 } }
  let s := each (allRidges.filter fun r => decide (s.ridges[r].st = .armed)) cancelLaunch s
  let up := (List.range 16).map (16 + ·)
  let s := peerResetB s (up ++ [32, 33, 34, 35, 36, 37, 40])
  let s := loseEvents (idleCols s (List.range 16 ++ up ++ [32, 33, 34, 35, 36, 37, 40])) (up ++ [40])
  let s := each (skeys s.queues) (fun s id => rollbackQueue s id ABORTED_FAULT) s
  let s := endTickets s (fun _ => true) ABORTED_FAULT
  let s := abortCommands s
  applyOverdue s.link.timed.length s

/-- QUIET_PERIOD_END (R386, R388): recovery, or FAULTED. -/
def quietPeriodEndEffect (s : State) : State :=
  match s.bear.state, s.bear.quietAt with
  | .safe, some t =>
    if s.ticks - t < msTicks (field s gFAULTCFG 13 0) ∨ s.owl.shutdown then s
    else if field s gFAULTCFG 21 14 ≤ windowCount s ∨ s.bear.noRecovery then { s with bear := { s.bear with state := .faulted } }
    else recover s
  | _, _ => s

def execQuietPeriodEnd (s : State) : Host.Outcome State Fault Refusal := done s (quietPeriodEndEffect s)

/-- RECOVERY_COMPLETE (R387 steps 8 to 10, R164): pins and supplies return, and Badger fetches. -/
def recoveryCompleteEffect (s : State) : State :=
  if s.bear.state ≠ .recovering ∨ s.owl.shutdown then s
  else
    let s := { s with bear := { s.bear with state := .normal, lastEnd := s.now, phyFault := false, cstoreFault := false } }
    let s := each allRidges (fun s n => clrBits s (dpsW n 13) 512) s
    replaceJobs (each allRidges dpsApply s)

def execRecoveryComplete (s : State) : Host.Outcome State Fault Refusal := done s (recoveryCompleteEffect s)

/-! ### Fault commands (R377, R390, R391) -/

/-- The record of FAULT_READ. -/
def faultRecord (s : State) : List Byte :=
  leBytes 8 s.bear.latch.toNat ++ leBytes 1 s.bear.log.length ++ leBytes 1 (min 255 (windowCount s)) ++ leBytes 2 s.bear.recovCnt.toNat ++
    leBytes 4 0 ++ leBytes 8 s.bear.lastEnd.toNat ++ leBytes 8 0 ++ s.bear.log.flatMap LogEntry.bytes

def faultReadEffect (h : Hdr) (addr : BitVec 64) (s : State) : State :=
  command s h (row 0x50 2 .none) [] fun s =>
    if addr.toNat % 8 ≠ 0 then refuse s h 0x50 BAD_PARAM 0
    else
      dataReply s h 0x50 addr.toNat (faultRecord s)

def execFaultRead (h : Hdr) (addr : BitVec 64) (s : State) : Host.Outcome State Fault Refusal := done s (faultReadEffect h addr s)

def faultClearEffect (h : Hdr) (mask : BitVec 64) (s : State) : State :=
  command s h (row 0x51 2 .none) [] fun s =>
    let s := { s with bear := { s.bear with log := s.bear.log.filter fun e => !mask.getLsbD e.bit.val } }
    replyDone (clearLatch s mask) h 0x51 0

def execFaultClear (h : Hdr) (mask : BitVec 64) (s : State) : Host.Outcome State Fault Refusal := done s (faultClearEffect h mask s)

/-- The injection's outcome is fatal (R391, Table 16-3). -/
def injectFatal (b : Nat) (double : Bool) : Bool := b == 22 || (double && (b == 25 || b == 27 || b == 29))

def faultInjectEffect (h : Hdr) (bit_ count : Byte) (s : State) : State :=
  command s h { row 0x52 2 .none with baseline := false } [] fun s =>
    let n := count.toNat % 128
    let dbl := bit count.toNat 7
    if 32 ≤ bit_.toNat ∨ n = 0 ∨ (injectFatal bit_.toNat dbl ∧ !isSet s gFAULTCFG 28) then refuse s h 0x52 BAD_PARAM 0
    else
      let b : Fin 64 := Fin.ofNat 64 bit_.toNat
      if (injectOn s b).isSome then refuse s h 0x52 BUSY 0
      else replyDone { s with bear := { s.bear with inject := s.bear.inject ++ [⟨b, n, dbl⟩] } } h 0x52 0

def execFaultInject (h : Hdr) (bit_ count : Byte) (s : State) : Host.Outcome State Fault Refusal :=
  done s (faultInjectEffect h bit_ count s)

end Sys2Proof.Machine
end

