-- ==== Sys2Proof/Machine/HostLink.lean ====
section
/-! DEFINITION. The host link (chapter 11): ring registers, the fetch of a packet with checks 1 to 6, replies and notices that
wait, interrupts, and the queue status window of BAR0. -/

namespace Sys2Proof.Machine

/-! ### Bodies (Table 11-10) -/

/-- A field of a packet body, missing bytes zero. -/
def bodyAt (w : Nat) (b : List Byte) (off n : Nat) : BitVec w := BitVec.ofNat w (leAt b off n)

/-- Set record k of a TIMING_WRITE body (Table 4-3): 528 bytes, 16 for the header and 32 for each lane. -/
def bodyRecord (b : List Byte) (k : Nat) : SetRecord :=
  let o := 16 + 528 * k
  { period := bodyAt 32 b o 4, format := bodyAt 32 b (o + 4) 4, reserved := bodyAt 64 b (o + 8) 8
    lanes := (List.range 16).map fun l =>
      ((List.range 6).map fun e => bodyAt 32 b (o + 16 + 32 * l + 4 * e) 4, bodyAt 64 b (o + 16 + 32 * l + 24) 8) }

/-- The command that an opcode and its body spell; none for a code outside Table 11-9. -/
def decodeBody (h : Hdr) (op : Nat) (b : List Byte) (free : Nat) : Option Instr :=
  let f := fun w off n => bodyAt w b off n
  let at_ := fun off i => bit (leAt b off 1) i
  match op with
  | 0x01 => some (.identify h (f 64 0 8))
  | 0x02 => some (.paramWrite h (f 16 0 2) (f 32 4 4))
  | 0x03 => some (.paramRead (.packet h) (f 16 0 2) (f 16 2 2) (f 64 8 8))
  | 0x04 => some (.paramWriteMulti h (f 16 0 2) ((List.range (leAt b 0 2)).map fun k => (f 16 (16 + 8 * k) 2, f 32 (20 + 8 * k) 4)))
  | 0x08 => some (.saveState h)
  | 0x09 => some (.restoreState h (f 8 0 1) true)
  | 0x10 => some (.segLoad h (f 32 0 4) (f 64 8 8))
  | 0x11 => some (.segRelease h (f 32 0 4))
  | 0x12 => some (.segPin h (f 32 0 4))
  | 0x13 => some (.segUnpin h (f 32 0 4))
  | 0x14 => some (.progBind h (f 32 0 4) (at_ 4 0) (f 8 5 1) (f 8 6 1) ((List.range (leAt b 6 1)).map fun k => f 32 (16 + 4 * k) 4))
  | 0x18 => some (.timingWrite h (f 8 0 1) (f 8 1 1) (f 8 2 1) ((List.range (leAt b 2 1)).map (bodyRecord b)))
  | 0x19 => some (.timingSwap h)
  | 0x20 => some (.launch h (at_ 0 0) (at_ 0 1) (f 8 1 1) (f 16 2 2))
  | 0x21 => some (.halt h (at_ 0 0) (at_ 0 1) (f 8 1 1) (f 16 2 2))
  | 0x22 => some (.eventJumpArm h (f 8 0 1) (at_ 1 0) (f 32 4 4))
  | 0x28 => some (.measure h (f 16 0 2) (f 16 4 2) (f 6 8 1) (at_ 8 6) (f 16 10 2))
  | 0x29 => some (.timeMeasure h (f 8 0 1) (f 8 1 1) (f 8 2 1) (f 8 3 1) (f 16 4 2) (f 16 6 2) (f 64 8 8))
  | 0x2A => some (.captureArm h (at_ 0 0) (at_ 0 1) (f 8 1 1) (f 16 2 2) (f 16 4 2) (f 16 6 2) (f 64 8 8) (f 32 16 4))
  | 0x2B => some (.acqArm h (at_ 0 0) (at_ 0 1) (at_ 0 2) (f 16 2 2) (f 32 4 4) (f 32 8 4) (f 16 12 2) (f 16 14 2) (f 64 16 8)
      (f 32 24 4))
  | 0x30 => some (.queueConfig h (f 16 0 2) (f 8 2 1) (f 8 3 1) (f 32 4 4) (f 64 8 8) (f 64 16 8) (f 8 24 1) (f 16 26 2) (f 32 28 4))
  | 0x31 => some (.queueFlush h (f 16 0 2) (f 8 2 1))
  | 0x38 => some (.eventRoute h (f 8 0 1) (f 8 1 1) (at_ 2 0))
  | 0x40 => some (.siteMap h (f 8 0 1) (at_ 1 0) (f 256 16 32))
  | 0x48 => some (.calRun h (f 8 0 1))
  | 0x50 => some (.faultRead h (f 64 8 8))
  | 0x51 => some (.faultClear h (f 64 0 8))
  | 0x52 => some (.faultInject h (f 8 0 1) (f 8 1 1))
  | 0x58 => some (.ringEnum h (f 64 8 8))
  | 0x59 => some (.syncCal h (f 8 0 1))
  | 0x60 => some (.fwUpdate h (f 8 0 1) (f 32 4 4) (f 64 8 8) (Config.fetchedImage (f 64 8 8) (f 32 4 4) free))
  | 0x7F => some (.echo h (f 64 0 8) (b.drop 16))
  | _ => none

/-! ### The packet (R277, R278) -/

/-- Header fields of a packet carried by ring q. -/
def packetHdr (p : Packet) (q : Fin 64) (era : Nat) (remote : Option (BitVec 7)) : Hdr :=
  { ring := q, era := era, seq := p.seq, tag := p.tag, length := p.length, ridge := BitVec.ofNat 4 (bits p.target.toNat 13 10)
    launchAt := if bit p.flags.toNat 0 then some (bodyAt 64 p.rest 0 8) else none
    suppress := bit p.flags.toNat 1, multicast := bit p.flags.toNat 2, asap := bit p.flags.toNat 3, remote := remote }

/-- The command that a packet carries. -/
def packetCommand (p : Packet) (h : Hdr) (free : Nat) : Option Instr :=
  decodeBody h p.opcode.toNat (if h.launchAt.isSome then p.rest.drop 16 else p.rest) free

/-- The CRC that the packet must carry. -/
def packetCrc (p : Packet) : Word :=
  crc32 (padTo (16 * p.length.toNat) (leBytes 1 p.opcode.toNat ++ leBytes 1 p.flags.toNat ++ leBytes 2 p.length.toNat ++
    leBytes 2 p.tag.toNat ++ leBytes 2 p.target.toNat ++ leBytes 4 p.seq.toNat ++ leBytes 4 0 ++ p.rest))

/-- An opcode marked MC in Table 11-9. -/
def multicastOk (op : Nat) : Bool := decide (op ∈ [0x02, 0x04, 0x19, 0x20, 0x21, 0x38, 0x40])

/-- Opcodes that a quarantined member accepts (Table 11-6 step 5). -/
def quarantineOk (op : Nat) : Bool := decide (op ∈ [0x01, 0x7F, 0x50, 0x60])

/-! ### Taking a packet (R271 to R274, R280) -/

/-- The units that must lie below SQ_TAIL: the packet, or its header where LENGTH is refused. -/
def unitsThere (x : Sq) (len : Nat) : Bool :=
  let n := (x.tail - x.head).toNat
  if len = 0 ∨ 2 ^ x.n < len then decide (1 ≤ n) else decide (len ≤ n)

/-- Badger can take the packet at the head of the ring now (R271, R273, R274, R286). -/
def canFetch (s : State) (q : Fin 64) (p : Packet) : Bool :=
  let x := s.sq[q]
  canTake s (packetHdr p q x.era none) && x.enabled && !x.stopped && !x.taken.any (·.long) && s.cq[x.cq].spare &&
    unitsThere x p.length.toNat

/-- The entry of a packet that ring q takes; a long command holds its ring from here on, wherever it is sent (R286). -/
def packetTaken (s : State) (q : Fin 64) (p : Packet) : Taken :=
  { era := s.sq[q].era, seq := p.seq, cq := s.sq[q].cq, opcode := p.opcode, tag := p.tag, suppress := bit p.flags.toNat 1
    long := longOp p.opcode.toNat, forwarded := none, mc := none, reply := none }

/-- A refusal that stops the ring (R273): SQ_HEAD stays at the packet. -/
def stopRing (s : State) (q : Fin 64) (p : Packet) (st info : Nat) (mark : Sq → Sq) : State :=
  let r : Reply := ⟨p.opcode, BitVec.ofNat 8 st, p.tag, BitVec.ofNat 32 info, s.now⟩
  let s := modSq s q fun x => mark { x with stopped := true }
  deliver (addTaken s q { packetTaken s q p with long := false, reply := some r }) q

/-- Members that a MULTICAST acts on (R289). -/
def mcMembers (s : State) : List Nat :=
  (List.range s.ring.members.length).filter fun k => match s.ring.members[k]? with | some m => !m.quarantined | none => false

/-- A command for this device waits for Badger; an opcode outside Table 11-9 is refused at check 6. -/
def takeLocal (s : State) (p : Packet) (h : Hdr) : State :=
  match packetCommand p h s.free with
  | some i => tickFree { s with link := { s.link with inbox := s.link.inbox ++ [i] } }
  | none => refuse s h p.opcode.toNat BAD_OPCODE 0

/-- The row of Table 11-9 of an opcode marked MC. -/
def mcRow (p : Packet) (h : Hdr) : Row :=
  let body := if h.launchAt.isSome then p.rest.drop 16 else p.rest
  match p.opcode.toNat with
  | 0x02 => { row 0x02 2 .none with timed := true, mc := true }
  | 0x04 => { row 0x04 (2 + cdiv (leAt body 0 2) 2) .none with timed := true, mc := true }
  | 0x19 => { row 0x19 1 .either with mc := true }
  | 0x20 => { row 0x20 2 .none with timed := true, mc := true }
  | 0x21 => { row 0x21 2 .none with timed := true, mc := true }
  | 0x38 => { row 0x38 2 .none with mc := true }
  | _ => { row 0x40 4 .none with mc := true }

/-- The taking device checks the horizon of a MULTICAST once (R283), in its place after checks 6 to 10: the packet is LATE where
none of those refuses it. -/
def mcLate (s : State) (p : Packet) (h : Hdr) : Bool := decide (admission s h (mcRow p h) = some (LATE, 0))

/-- Checks 4 and 5, then the way to the target (R280, R289, R293, R295, R301, R302). A MULTICAST for which no member is left, all
being quarantined, is DONE: no member returned anything else. -/
def routePacket (s : State) (q : Fin 64) (p : Packet) (h : Hdr) : State :=
  let op := p.opcode.toNat
  let pos := bits p.target.toNat 6 0
  let here := s.ring.position.toNat
  let stop := fun (s : State) (st : Nat) => refuse s h op st 0
  let msg := RingMsg.load (.packet s.ring.position q h.era p)
  if !s.ring.enumerated then (if h.multicast then stop s BAD_TARGET else takeLocal s p h)
  else if bits p.target.toNat 9 7 ≠ s.boot.straps.ringId.toNat then stop s BAD_TARGET
  else if h.multicast then
    let ms := mcMembers s
    if pos ≠ 0x7F ∨ !multicastOk op ∨ ms.any (fun k => !reachable s k) then stop s BAD_TARGET
    else if mcLate s p h then stop s LATE
    else if ms = [] then sendRing (replyDone s h op 0) none msg
    else
      let s := modTaken s q h.era p.seq fun t => { t with mc := some ⟨ms, s.ticks, false, 0, none, s.now⟩ }
      let s := sendRing s none msg
      if here ∈ ms then takeLocal s p h else s
  else if s.ring.members.length ≤ pos ∨ !reachable s pos then stop s BAD_TARGET
  else if (match s.ring.members[pos]? with | some m => m.quarantined | none => false) && !quarantineOk op then stop s MEMBER_QUARANTINED
  else if pos = here then takeLocal s p h
  else sendRing (modTaken s q h.era p.seq fun t => { t with forwarded := some (BitVec.ofNat 7 pos, s.ticks) }) (some pos) msg

/-- An injection on the control store meets the packet (R390). -/
def cstoreStrike (s : State) : State :=
  match accessInject s 27 with
  | (s, none) => s
  | (s, some false) => corrected s 27 0 true
  | (s, some true) => if s.boot.mode = .normal then fatalDeferred s 27 1 true else corrected s 27 0 true

/-- PACKET_FETCH (R271 to R274, R278, R280): a DMA read error stops the ring; checks 1 to 3 stop it with a reply; else the
packet is taken and goes to its target. -/
def packetFetchEffect (q : Fin 64) (p : Packet) (readError : Bool) (s : State) : State :=
  let x := s.sq[q]
  let h := packetHdr p q x.era none
  if !canFetch s q p then s
  else if readError then
    contained (modSq s q fun x => { x with stopped := true }) ⟨32, 0, .contained, 0, 0, none, false, false⟩ id
  else if p.length = 0 ∨ 2 ^ x.n < p.length.toNat then stopRing s q p BAD_LENGTH 0 fun x => { x with lenErr := true }
  else if p.crc ≠ packetCrc p then stopRing s q p CRC_ERROR 0 fun x => { x with crcErr := true }
  else if p.seq ≠ x.seq then stopRing s q p BAD_PARAM x.seq.toNat fun x => { x with seqErr := true }
  else
    let s := addTaken s q (packetTaken s q p)
    let s := modSq s q fun x => { x with head := x.head + BitVec.ofNat 32 p.length.toNat, seq := x.seq + 1 }
    cstoreStrike (routePacket s q p h)

def execPacketFetch (q : Fin 64) (p : Packet) (readError : Bool) (s : State) : Host.Outcome State Fault Refusal :=
  done s (packetFetchEffect q p readError s)

/-! ### Submission ring registers (Table 11-3, R271 to R273, R425) -/

/-- A refused register write (R425). -/
def sqRefused (s : State) (q : Fin 64) : State := modSq s q fun x => { x with regErr := true }
def cqRefused (s : State) (c : Fin 64) : State := modCq s c fun x => { x with regErr := true }

/-- Replace the low or high half of an address. -/
def setLow (a : BitVec 64) (v mask : Nat) : BitVec 64 := BitVec.ofNat 64 (a.toNat / 2 ^ 32 * 2 ^ 32 + (v &&& mask) % 2 ^ 32)
def setHigh (a : BitVec 64) (v : Nat) : BitVec 64 := BitVec.ofNat 64 (a.toNat % 2 ^ 32 + v % 2 ^ 32 * 2 ^ 32)

/-- DOORBELL (R271). -/
def doorbellWrite (s : State) (q : Fin 64) (v : Word) : State :=
  modSq s q fun x =>
    let d := (v - x.head).toNat
    if (x.tail - x.head).toNat ≤ d ∧ d ≤ 2 ^ x.n then { x with tail := v } else { x with dbErr := true }

/-- SQ_CTRL (R272). -/
def sqCtrlWrite (s : State) (q : Fin 64) (v : Word) : State :=
  let x := s.sq[q]
  if v.getLsbD 0 = x.enabled then s
  else if x.enabled then modSq s q fun x => { x with enabled := false }
  else if !s.cq[x.cq].enabled then sqRefused s q
  else modSq s q fun x => { x with enabled := true, stopped := false, era := x.era + 1, head := 0, tail := 0, seq := 0 }

/-- SQ_RESUME (R273). -/
def sqResumeWrite (s : State) (q : Fin 64) (v : Word) : State :=
  if v.getLsbD 0 then modSq s q fun x => { x with stopped := false } else s

/-- A write of a submission ring register at an offset. -/
def sqWrite (s : State) (q : Fin 64) (off : Nat) (v : Word) : State :=
  let x := s.sq[q]
  let w := v.toNat
  match off with
  | 0x00 => if x.enabled then sqRefused s q else modSq s q fun x => { x with base := setLow x.base w 0xFFFFF000 }
  | 0x04 => if x.enabled then sqRefused s q else modSq s q fun x => { x with base := setHigh x.base w }
  | 0x08 =>
    if x.enabled ∨ !inRange 8 20 (bits w 4 0) then sqRefused s q
    else modSq s q fun x => { x with n := bits w 4 0, cq := Fin.ofNat 64 (bits w 13 8) }
  | 0x0C => sqCtrlWrite s q v
  | 0x10 => doorbellWrite s q v
  | 0x18 => modSq s q fun x =>
      { x with seqErr := x.seqErr && !bit w 1, crcErr := x.crcErr && !bit w 2, lenErr := x.lenErr && !bit w 3
               dbErr := x.dbErr && !bit w 4, regErr := x.regErr && !bit w 5 }
  | 0x1C => sqResumeWrite s q v
  | _ => s

/-! ### Completion ring registers (Table 11-4, R276, R426) -/

/-- An enabled submission ring replies into the ring, or an enabled queue names it (R426). -/
def cqInUse (s : State) (c : Fin 64) : Bool :=
  s.sq.toList.any (fun x => x.enabled && x.cq == c) || s.queues.any fun q => q.2.enabled && cringOf q.2.cring.toNat == some c

/-- Write the notices held for a completion ring, oldest first, while unreserved entries are free (R275, R426). -/
def deliverNotices (c : Fin 64) : Nat → State → State
  | 0, s => s
  | k + 1, s =>
    match s.link.notices.find? fun n => decide (n.cq = c) with
    | none => s
    | some n =>
      if noticeOut s c then
        deliverNotices c k (cqWrite { s with link := { s.link with notices := s.link.notices.erase n } } c n.bytes)
      else s

/-- CQ_CFG (R425, R426). -/
def cqCfgWrite (s : State) (c : Fin 64) (v : Word) : State :=
  let x := s.cq[c]
  let w := v.toNat
  let n := bits w 4 0
  let vec : Fin 64 := Fin.ofNat 64 (bits w 13 8)
  let en := bit w 16
  if !inRange 6 16 n then cqRefused s c
  else if x.enabled && en then (if n ≠ x.n ∨ vec ≠ x.vector then cqRefused s c else s)
  else if x.enabled && cqInUse s c then cqRefused s c
  else
    let s := modCq s c fun x => { x with n := n, vector := vec, enabled := en }
    if en then
      let s := each (List.finRange 64) deliver (modCq s c fun x => { x with head := 0, tail := 0, unsignalled := 0 })
      deliverNotices c s.link.notices.length s
    else s

/-- CQ_HEAD (R276). -/
def cqHeadReg (s : State) (c : Fin 64) (v : Word) : State :=
  modCq s c fun x => if (v - x.head).toNat ≤ (x.tail - x.head).toNat then { x with head := v } else { x with headErr := true }

/-- A write of a completion ring register at an offset. -/
def cqWriteReg (s : State) (c : Fin 64) (off : Nat) (v : Word) : State :=
  let x := s.cq[c]
  let w := v.toNat
  match off with
  | 0x00 => if x.enabled then cqRefused s c else modCq s c fun x => { x with base := setLow x.base w 0xFFFFF000 }
  | 0x04 => if x.enabled then cqRefused s c else modCq s c fun x => { x with base := setHigh x.base w }
  | 0x08 => cqCfgWrite s c v
  | 0x0C =>
    if !inRange 1 255 (bits w 7 0) ∨ 1000000 < bits w 27 8 then cqRefused s c
    else modCq s c fun x => { x with irqCount := bits w 7 0, irqTime := bits w 27 8 }
  | 0x10 => modCq s c fun x => { x with wb := setLow x.wb w 0xFFFFFFF8 }
  | 0x14 => modCq s c fun x => { x with wb := setHigh x.wb w }
  | 0x18 => cqHeadReg s c v
  | 0x20 => modCq s c fun x =>
      { x with merged := x.merged && !bit w 0, headErr := x.headErr && !bit w 1, regErr := x.regErr && !bit w 2 }
  | _ => s

/-! ### The rows of these registers: the device is out of POR -/

def doorbellEffect (q : Fin 64) (v : Word) (s : State) : State := if s.boot.por then s else doorbellWrite s q v
def execDoorbell (q : Fin 64) (v : Word) (s : State) : Host.Outcome State Fault Refusal := done s (doorbellEffect q v s)

def sqEnableEffect (q : Fin 64) (v : Word) (s : State) : State := if s.boot.por then s else sqCtrlWrite s q v
def execSqEnable (q : Fin 64) (v : Word) (s : State) : Host.Outcome State Fault Refusal := done s (sqEnableEffect q v s)

def sqResumeEffect (q : Fin 64) (v : Word) (s : State) : State := if s.boot.por then s else sqResumeWrite s q v
def execSqResume (q : Fin 64) (v : Word) (s : State) : Host.Outcome State Fault Refusal := done s (sqResumeEffect q v s)

def cqEnableEffect (c : Fin 64) (v : Word) (s : State) : State := if s.boot.por then s else cqCfgWrite s c v
def execCqEnable (c : Fin 64) (v : Word) (s : State) : Host.Outcome State Fault Refusal := done s (cqEnableEffect c v s)

def cqHeadWriteEffect (c : Fin 64) (v : Word) (s : State) : State := if s.boot.por then s else cqHeadReg s c v
def execCqHeadWrite (c : Fin 64) (v : Word) (s : State) : Host.Outcome State Fault Refusal := done s (cqHeadWriteEffect c v s)

/-! ### Notices, interrupts, DMA errors -/

/-- PENDING_NOTICE_WRITE (R275, R426): the oldest notice held for the ring is written once an unreserved entry is free. -/
def pendingNoticeWriteEffect (c : Fin 64) (s : State) : State := deliverNotices c 1 s

def execPendingNoticeWrite (c : Fin 64) (s : State) : Host.Outcome State Fault Refusal := done s (pendingNoticeWriteEffect c s)

/-- CQ_IRQ_TIMER (R276): TIME µs have passed since the oldest unsignalled entry; TIME = 0 signals every entry. -/
def cqIrqTimerEffect (c : Fin 64) (s : State) : State :=
  let x := s.cq[c]
  if dmaOk s && x.enabled && decide (0 < x.unsignalled) && decide (usTicks x.irqTime ≤ s.ticks - x.oldest) then
    signalCq s c
  else s

def execCqIrqTimer (c : Fin 64) (s : State) : Host.Outcome State Fault Refusal := done s (cqIrqTimerEffect c s)

/-- DMA_WRITE_ERROR (R376): the write is issued once more; after the second error its target is not written until latch bit 33
is cleared. -/
def dmaWriteErrorEffect (t : DmaTarget) (again : Bool) (s : State) : State :=
  if !again || s.boot.por then s
  else contained s ⟨33, 0, .contained, 0, 0, none, false, false⟩ fun s =>
    match t with
    | .queue id => modQ s id.toNat fun q => { q with blocked := true }
    | .completion c => modCq s c fun x => { x with blocked := true }
    | .other => s

def execDmaWriteError (t : DmaTarget) (again : Bool) (s : State) : Host.Outcome State Fault Refusal :=
  done s (dmaWriteErrorEffect t again s)

/-! ### The endpoint (R270, R294) -/

/-- What Table 11-1 says of the endpoint. -/
structure Endpoint where
  deviceId : BitVec 16
  classCode : BitVec 24
  barSize : Nat
  maxPayload : Nat
  maxRead : Nat
  tagBits : Nat
  outstanding : Nat
  vectors : Nat
  aer : Bool
  functionReset : Bool
  deriving DecidableEq, Repr

/-- The endpoint of Table 11-1: BAR0 of 2 MiB, 64 MSI-X vectors, AER, function level reset. -/
def endpoint : Endpoint where
  deviceId := 0x7264; classCode := 0x118000; barSize := 0x200000; maxPayload := 512; maxRead := 4096; tagBits := 10
  outstanding := 256; vectors := 64; aer := true; functionReset := true

/-- A word of the configuration space: the device ID and the class code stand where PCI Express has them, and bus mastering is bit 2
of the command register. PRESUMED, log entry 67; everything else is free (log entry 2). -/
def configRead (s : State) (off : Nat) : Nat :=
  let other := (Config.pciConfig (off / 4)).toNat
  match off / 4 with
  | 0 => endpoint.deviceId.toNat * 65536 + other % 65536
  | 1 => other / 8 * 8 + flag s.boot.busMaster 2 + other % 4
  | 2 => endpoint.classCode.toNat * 256 + other % 256
  | _ => other

/-- A write of the configuration space: the command register enables bus mastering. -/
def configWrite (s : State) (off : Nat) (v : Word) : State :=
  if s.boot.por then s
  else if off / 4 = 1 then { s with boot := { s.boot with busMaster := v.getLsbD 2 } } else s

/-! ### BAR0 outside the parameter window (Tables 10-7, 11-1, 11-2) -/

/-- A write of an MSI-X table word; an unmasked vector sends what it kept pending. -/
def msixWrite (s : State) (v : Fin 64) (w : Nat) (x : Word) : State :=
  { s with msix := vmod s.msix v fun m =>
      let m := match w with
        | 0 => { m with addr := setLow m.addr x.toNat 0xFFFFFFFC }
        | 1 => { m with addr := setHigh m.addr x.toNat }
        | 2 => { m with data := x }
        | _ => { m with masked := x.getLsbD 0 }
      if m.pending && !m.masked then { m with pending := false, sent := m.sent + 1 } else m }

/-- A write of the queue status window (R269). -/
def queueWindowWrite (s : State) (id w : Nat) (v : Word) : State :=
  match w with
  | 0 => queueHeadWriteEffect (BitVec.ofNat 14 id) v s
  | 4 => modQ s id fun q => { q with ringFull := q.ringFull && !v.getLsbD 0, headErr := q.headErr && !v.getLsbD 1, waited := q.waited && !v.getLsbD 2 }
  | _ => s

/-- A write of BAR0 at a byte offset, taken by its 32-bit word; a write outside the ranges of Table 11-2 has no effect. -/
def bar0Write (s : State) (off : Nat) (v : Word) : State :=
  if s.boot.por then s
  else if off < 0x6800 then windowWrite s (off / 4) v.toNat
  else if 0x10000 ≤ off ∧ off < 0x11000 then sqWrite s (Fin.ofNat 64 ((off - 0x10000) / 64)) (off % 64 / 4 * 4) v
  else if 0x12000 ≤ off ∧ off < 0x13000 then cqWriteReg s (Fin.ofNat 64 ((off - 0x12000) / 64)) (off % 64 / 4 * 4) v
  else if 0x80000 ≤ off ∧ off < 0x100000 then queueWindowWrite s ((off - 0x80000) / 32) (off % 32 / 4) v
  else if 0x100000 ≤ off ∧ off < 0x100400 then msixWrite s (Fin.ofNat 64 ((off - 0x100000) / 16)) (off % 16 / 4) v
  else s

/-- What a submission ring register reads as. -/
def sqRead (x : Sq) (off : Nat) : Nat :=
  match off with
  | 0x00 => x.base.toNat % 2 ^ 32
  | 0x04 => x.base.toNat / 2 ^ 32
  | 0x08 => x.n + x.cq.val * 256
  | 0x0C => flag x.enabled 0
  | 0x10 => x.tail.toNat
  | 0x14 => x.head.toNat
  | 0x18 => flag x.stopped 0 + flag x.seqErr 1 + flag x.crcErr 2 + flag x.lenErr 3 + flag x.dbErr 4 + flag x.regErr 5
  | 0x20 => x.seq.toNat
  | _ => 0

/-- What a completion ring register reads as. -/
def cqRead (x : Cq) (off : Nat) : Nat :=
  match off with
  | 0x00 => x.base.toNat % 2 ^ 32
  | 0x04 => x.base.toNat / 2 ^ 32
  | 0x08 => x.n + x.vector.val * 256 + flag x.enabled 16
  | 0x0C => x.irqCount + x.irqTime * 256
  | 0x10 => x.wb.toNat % 2 ^ 32
  | 0x14 => x.wb.toNat / 2 ^ 32
  | 0x18 => x.head.toNat
  | 0x1C => x.tail.toNat
  | 0x20 => flag x.merged 0 + flag x.headErr 1 + flag x.regErr 2
  | _ => 0

/-- What a word of the queue status window reads as (Table 10-7). -/
def queueWindowRead (q : Queue) (w : Nat) : Nat :=
  match w with
  | 0 => q.head.toNat
  | 1 => q.tail.toNat
  | 2 => q.store.length
  | 3 => q.depth
  | 4 => flag q.ringFull 0 + flag q.headErr 1 + flag q.waited 2 + flag q.enabled 3
  | 5 => q.waitCnt.toNat
  | 6 => q.discardCnt.toNat
  | _ => q.nextSeq.toNat

/-- What an MSI-X table word reads as. -/
def msixRead (m : Msix) (w : Nat) : Nat :=
  match w with
  | 0 => m.addr.toNat % 2 ^ 32
  | 1 => m.addr.toNat / 2 ^ 32
  | 2 => m.data.toNat
  | _ => flag m.masked 0

/-- A read of BAR0 outside the parameter window: the value, and the state with the RC words cleared. -/
def bar0Read (s : State) (off : Nat) : Nat × State :=
  if 0x10000 ≤ off ∧ off < 0x11000 then (sqRead s.sq[(Fin.ofNat 64 ((off - 0x10000) / 64) : Fin 64)] (off % 64 / 4 * 4), s)
  else if 0x12000 ≤ off ∧ off < 0x13000 then (cqRead s.cq[(Fin.ofNat 64 ((off - 0x12000) / 64) : Fin 64)] (off % 64 / 4 * 4), s)
  else if 0x80000 ≤ off ∧ off < 0x100000 then
    let id := (off - 0x80000) / 32
    let w := off % 32 / 4
    let s' := if w = 5 then modQ s id fun q => { q with waitCnt := 0 }
      else if w = 6 then modQ s id fun q => { q with discardCnt := 0 } else s
    (queueWindowRead (getQ s id) w, s')
  else if 0x100000 ≤ off ∧ off < 0x100400 then (msixRead s.msix[(Fin.ofNat 64 ((off - 0x100000) / 16) : Fin 64)] (off % 16 / 4), s)
  else if off / 8 = 0x101000 / 8 then
    (bitsWhere 32 fun k => (s.msix[(Fin.ofNat 64 (k + 8 * (off % 8 / 4 * 4)) : Fin 64)]).pending, s)
  else (0, s)

/-- A read of the configuration space. -/
def configReadEffect (off : Nat) (s : State) : State := { s with link := { s.link with winRead := BitVec.ofNat 32 (configRead s off) } }

/-- A read of BAR0 leaves its value as the model's view of the read. -/
def bar0ReadEffect (off : Nat) (s : State) : State :=
  if off < 0x6800 then windowReadEffect (off / 4) s
  else
    let (v, t) := bar0Read s off
    { t with link := { t.link with winRead := BitVec.ofNat 32 v } }

end Sys2Proof.Machine
end

