-- ==== Sys2Proof/Machine/Ring.lean ====
section
/-! DEFINITION. The Dectik ring (chapter 12): its links, enumeration, quarantine, forwarded packets and replies, and the ring
events. -/

namespace Sys2Proof.Machine

/-! ### Links (R292, R300, R301) -/

/-- The oldest frame of a port that is not acknowledged. -/
def oldestFrame (s : State) (portB : Bool) : Option RingFrame := s.ring.outbox.find? fun f => f.portB == portB

/-- The frame has waited 2 µs for its acknowledgement since it was sent last. -/
def unanswered (s : State) (f : RingFrame) : Bool := decide (usTicks 2 ≤ s.ticks - f.sentAt)

/-- LINK_FRAME_RESEND (R292): a frame not acknowledged within 2 µs is sent again, 8 times in all. -/
def linkFrameResendEffect (portB : Bool) (s : State) : State :=
  match oldestFrame s portB with
  | none => s
  | some f =>
    if !unanswered s f || decide (8 ≤ f.sends) then s
    else
      let again : RingFrame := { f with sends := f.sends + 1, sentAt := s.ticks }
      bump (modRing s fun r => { r with outbox := r.outbox.map fun x => if x = f then again else x }) gRINGRETRY 1

def execLinkFrameResend (portB : Bool) (s : State) : Host.Outcome State Fault Refusal := done s (linkFrameResendEffect portB s)

/-- At a tick the oldest frame of a port may be acknowledged: whether it is, is free (log entry 2), since no row brings an
acknowledgement. -/
def ackTick (s : State) (portB : Bool) : State :=
  match oldestFrame s portB with
  | some f => if Config.linkAck portB s.ticks then modRing s fun r => { r with outbox := r.outbox.erase f } else s
  | none => s

/-- The frame is the next one of its lanes: frames come in order and once (R292). -/
def nextFrame (s : State) (v : Via) : Bool :=
  !s.boot.por && v.seq == (if v.reverse then s.ring.rxRev else s.ring.rxFwd)

/-- The frame is received. -/
def received (s : State) (v : Via) : State :=
  modRing s fun r => if v.reverse then { r with rxRev := r.rxRev + 1 } else { r with rxFwd := r.rxFwd + 1 }

/-- Traffic for another device passes on: downstream on the forward lanes; on a broken ring it turns onto the reverse lanes upstream
of the break, travels upstream, and turns back downstream of it (R291, R293, R300). -/
def passOn (s : State) (v : Via) (m : RingMsg) : State :=
  if v.reverse && s.ring.aUp then frameOut s false m else sendRing s none m

/-- What waited for a path goes out where it has one again (R301). -/
def sendHeld (s : State) : State :=
  each s.ring.held (fun s x => sendRing s x.1 x.2) (modRing s fun r => { r with held := [] })

/-- Position upstream of a link. -/
def linkUpstream (s : State) : RingLink → Nat
  | .b => s.ring.position.toNat
  | .a => let n := s.ring.members.length; (s.ring.position.toNat + n - 1) % n
  | .far p => p.toNat

/-- The link exists and is up: a far link is one of an enumerated ring, and none of the device's own. -/
def linkUp (s : State) : RingLink → Bool
  | .a => s.ring.aUp
  | .b => s.ring.bUp
  | .far p => s.ring.enumerated && decide (p.toNat < s.ring.members.length) && !decide (p.toNat ∈ s.ring.far) &&
      p != s.ring.position && p.toNat != linkUpstream s .a

/-- STATE follows the number of links that are down. -/
def setRingState (s : State) : State :=
  modRing s fun r => { r with state :=
    if !r.enumerated then 3 else match (downLinks s).length with | 0 => 0 | 1 => 1 | _ => 2 }

/-- A member cut off by a split has acknowledged a packet as taken. Within the forwarding bound it may or may not have taken it
(R293): which, is free (log entry 2). -/
def cutTaken (s : State) (bound sentAt : Nat) : Bool := decide (cdiv (bound * 3) 2 ≤ s.ticks - sentAt) || Config.acknowledged s.free

/-- The reply to a packet that a split cuts off. -/
def cutReply (s : State) (t : Taken) : Reply := ⟨t.opcode, BitVec.ofNat 8 BAD_TARGET, t.tag, 0, s.now⟩

/-- A packet whose target a split cuts off (R301): refused where its target has not acknowledged it, and held where it was taken. Of
a MULTICAST the members cut off are such targets. -/
def splitPacket (bound : Nat) (q : Fin 64) (s : State) (t : Taken) : State :=
  if t.reply.isSome then s
  else match t.forwarded, t.mc with
  | some (pos, at_), _ =>
    if reachable s pos.toNat then s
    else if cutTaken s bound at_ then tickFree s else tickFree (setReply s q t.era t.seq (cutReply s t))
  | none, some m =>
    each (m.waiting.filter fun k => k != s.ring.position.toNat && !reachable s k) (fun s k =>
      if cutTaken s bound m.sentAt then tickFree s else tickFree (memberReply s q t.era t.seq k (cutReply s t))) s
  | none, none => s

def splitPackets (bound : Nat) (s : State) : State :=
  each (List.finRange 64) (fun s q => each s.sq[q].taken (splitPacket bound q) s) s

/-- Frames in flight on an own link that has gone down go out by the other one (R300). -/
def rerouteFrames (portB : Bool) (s : State) : State :=
  let lost := s.ring.outbox.filter fun f => f.portB == portB
  let s := modRing s fun r => { r with outbox := r.outbox.filter fun f => f.portB != portB }
  each lost (fun s f => sendRing s none f.msg) s

/-- An own link is down: it has lost lane lock for 10 µs, or one frame has been sent 8 times without acknowledgement (R292). Of a
link further round the ring the device learns from others. -/
def linkFailed (s : State) (l : RingLink) (unlocked : Nat) : Bool :=
  let spent := fun (portB : Bool) => match oldestFrame s portB with
    | some f => decide (8 ≤ f.sends) && unanswered s f
    | none => false
  match l with
  | .a => decide (usTicks 10 ≤ unlocked) || spent false
  | .b => decide (usTicks 10 ≤ unlocked) || spent true
  | .far _ => true

/-- LINK_DOWN (R292, R300, R301), with the ticks for which the link has had no lane lock. -/
def linkDownEffect (l : RingLink) (unlocked : Nat) (s : State) : State :=
  if s.boot.por || !linkUp s l || !linkFailed s l unlocked then s
  else
    let up := linkUpstream s l
    let bound := ringBound s
    let s := modRing s fun r =>
      let r := match l with
        | .a => { r with aUp := false }
        | .b => { r with bUp := false }
        | .far p => { r with far := r.far ++ [p.toNat] }
      { r with breakPos := if r.breakPos = 0xFF then BitVec.ofNat 8 up else r.breakPos }
    let s := raise (setBits s gRINGSTATUS 32) 0xD3 up
    let s := setRingState (match l with
      | .a => rerouteFrames false (corrected s 34 0 false)
      | .b => rerouteFrames true (corrected s 34 0 false)
      | .far _ => s)
    if s.ring.state = 2 then splitPackets bound s else s

def execLinkDown (l : LinkTime) (s : State) : Host.Outcome State Fault Refusal := done s (linkDownEffect l.link l.ticks s)

/-- LINK_RESTORED (R300, R301): an own link has stayed up for 1 ms; what waited for a path goes on. -/
def linkRestoredEffect (l : RingLink) (up : Nat) (s : State) : State :=
  let steady := match l with | .far _ => true | _ => decide (msTicks 1 ≤ up)
  if s.boot.por || !steady then s
  else
    let s := modRing s fun r => match l with
      | .a => { r with aUp := true }
      | .b => { r with bUp := true }
      | .far p => { r with far := r.far.filter (· ≠ p.toNat) }
    let s := setRingState s
    let left := downLinks s
    serveWaits (sendHeld (modRing s fun r => { r with breakPos := if r.breakPos.toNat ∈ left then r.breakPos else match left with
      | [] => 0xFF
      | p :: _ => BitVec.ofNat 8 p }))

def execLinkRestored (l : LinkTime) (s : State) : Host.Outcome State Fault Refusal := done s (linkRestoredEffect l.link l.ticks s)

/-! ### Enumeration (R296 to R299, R302) -/

/-- The interface levels of this device. -/
def myFw (s : State) : BitVec 16 := BitVec.ofNat 16 (field s gFWLEVELS 15 0)
def myPatch (s : State) : BitVec 16 := BitVec.ofNat 16 (field s gFWLEVELS 31 16)

/-- What the device adds to a token: its interface levels, silicon revision and mode (R296). -/
def myEntry (s : State) : Member where
  quarantined := false; pcieUp := s.boot.pcieUp; reachable := true; extParent := false; unfed := false
  loader := s.boot.mode == .loader; baseline := s.boot.mode == .baseline; fwLevel := myFw s; patchLevel := myPatch s
  revision := revisionLetter; depth := 0; parent := 0xFF; output := 0

/-- The Summit sends a token: it has position 0, and its own entry is the first (R296). -/
def sendToken (s : State) : State :=
  sendRing (modRing s fun r => { r with tokenSent := true, enumTick := s.ticks }) none (.token 1 [myEntry s])

/-- ENUM_START (R296). -/
def enumStartEffect (s : State) : State :=
  let r := s.ring
  if s.boot.straps.mstr && booted s && r.aUp && r.bUp && !r.twoSummit && !r.enumerated && !r.tokenSent then sendToken s else s

def execEnumStart (s : State) : Host.Outcome State Fault Refusal := done s (enumStartEffect s)

/-- The 16 bytes of a member (Table 12-3). -/
def memberBytes (k : Nat) (reach : Bool) (hop : Word) (m : Member) : List Byte :=
  leBytes 1 k ++
    leBytes 1 (flag m.quarantined 0 + flag m.pcieUp 1 + flag reach 2 + flag m.extParent 3 + flag m.unfed 4 + flag m.loader 5 +
      flag m.baseline 6) ++
    leBytes 2 m.fwLevel.toNat ++ leBytes 2 m.patchLevel.toNat ++ leBytes 1 m.revision.toNat ++ leBytes 1 m.depth.toNat ++
    leBytes 1 m.parent.toNat ++ leBytes 1 m.output.toNat ++ leBytes 2 0 ++ leBytes 4 hop.toNat

/-- The record of RING_ENUM (Tables 12-2 and 12-3). -/
def ringRecord (s : State) (code : Nat) : List Byte :=
  leBytes 1 code ++ leBytes 1 (s.ring.members.length - 1) ++ leBytes 1 s.boot.straps.ringId.toNat ++ leBytes 1 s.ring.breakPos.toNat ++
    leBytes 4 (ringBound s) ++ leBytes 8 s.ring.enumTime.toNat ++
    s.ring.members.zipIdx.flatMap fun x => memberBytes x.2 (reachable s x.2) (s.cairn.hops.getD x.2 0) x.1

/-- Write the record and answer a RING_ENUM. -/
def ringAnswer (s : State) (h : Hdr) (addr : BitVec 64) (code : Nat) : State :=
  dataReply s h 0x58 addr.toNat (ringRecord s code)

/-- Answer the RING_ENUM that waits for an enumeration. -/
def ringEnumEnds (s : State) (code : Nat) : State :=
  match findLong s fun j => match j with | .ringEnum _ => true | _ => false with
  | none => s
  | some l => match l.job with
    | .ringEnum addr => ringAnswer (dropLong s l) l.hdr addr code
    | _ => s

/-- ENUM_RETRY (R296): the token has not returned within 10 ms; a waiting RING_ENUM reports that the ring is not closed. -/
def enumRetryEffect (s : State) : State :=
  if s.ring.tokenSent && !s.ring.twoSummit && !s.boot.por && decide (msTicks 10 ≤ s.ticks - s.ring.enumTick) then
    sendToken (ringEnumEnds s 4)
  else s

def execEnumRetry (s : State) : Host.Outcome State Fault Refusal := done s (enumRetryEffect s)

/-- A member differs from the Summit, or is in loader mode (R302). -/
def differs (fw patch : BitVec 16) (m : Member) : Bool := m.fwLevel != fw || m.patchLevel != patch || m.loader

/-- A member as an enumeration finds it; what SYNC_CAL told of it stays. -/
def Member.renew (old new : Member) : Member :=
  { new with depth := old.depth, parent := old.parent, output := old.output, extParent := old.extParent, unfed := old.unfed }

/-- The membership after a closed enumeration (R297, R302). -/
def closedMembers (s : State) (fw patch : BitVec 16) (es : List Member) : List Member :=
  let mark := fun (m : Member) => { m with quarantined := differs fw patch m, reachable := true }
  if s.ring.fixed then
    s.ring.members.zipIdx.map fun x => match es[x.2]? with
      | some e => if e.reachable then mark (Member.renew x.1 e) else { x.1 with reachable := false }
      | none => { x.1 with reachable := false }
  else es.map mark

/-- The Summit's own token returns: the ring is closed, and every member learns N and B (R296, R297, R302). -/
def tokenReturns (es : List Member) (s : State) : State :=
  let ms := closedMembers s (myFw s) (myPatch s) (es.set 0 (myEntry s))
  let s := modRing s fun r => { r with enumerated := true, fixed := true, position := 0, members := ms, tokenSent := false,
                                       enumTime := s.now, quarantined := false }
  let s := setRingState s
  ringEnumEnds (sendRing s none (.membership ms)) s.ring.state.toNat

/-- A Summit sees a token it did not send: it stops enumerating (R298). -/
def foreignToken (s : State) : State :=
  ringEnumEnds (modRing s fun r => { r with twoSummit := true, tokenSent := false }) 3

/-- A follower takes the token's count as its position, adds its entry and forwards the token (R296). -/
def tokenPasses (count : BitVec 8) (es : List Member) (s : State) : State :=
  sendRing (modRing s fun r => { r with position := BitVec.ofNat 7 count.toNat }) none (.token (count + 1) (es ++ [myEntry s]))

/-- A follower learns the members of the closed ring, and whether it is quarantined (R296, R302). -/
def learnMembers (ms : List Member) (s : State) : State :=
  let q := match ms[s.ring.position.toNat]? with | some m => m.quarantined | none => false
  sendRing (setRingState (modRing s fun r => { r with enumerated := true, members := ms, quarantined := q, enumTime := s.now })) none
    (.membership ms)

/-- ENUM_TOKEN (R296 to R298, R302): the token, or after it the membership of the closed ring. -/
def enumTokenEffect (v : Via) (count : BitVec 8) (own closed : Bool) (es : List Member) (s : State) : State :=
  if !nextFrame s v then s
  else
    let s := received s v
    if v.reverse then passOn s v (if closed then .membership es else .token count es)
    else if s.boot.straps.mstr then
      (if !own then foreignToken s else if s.ring.tokenSent && !closed then tokenReturns es s else s)
    else if closed then learnMembers es s
    else tokenPasses count es s

def execEnumToken (v : Via) (count : BitVec 8) (own closed : Bool) (es : List Member) (s : State) :
    Host.Outcome State Fault Refusal := done s (enumTokenEffect v count own closed es s)

/-- RING_ENUM (R297 to R299). -/
def ringEnumEffect (h : Hdr) (addr : BitVec 64) (s : State) : State :=
  command s h (row 0x58 2 .none) [.dectik] fun s =>
    if !s.boot.straps.mstr then refuse s h 0x58 BAD_TARGET 0
    else if addr.toNat % 8 ≠ 0 then refuse s h 0x58 BAD_PARAM 0
    else if s.ring.twoSummit then ringAnswer s h addr 3
    else if s.ring.state = 2 then ringAnswer s h addr 2
    else sendToken (startLong s h 0x58 (.ringEnum addr))

def execRingEnum (h : Hdr) (addr : BitVec 64) (s : State) : Host.Outcome State Fault Refusal := done s (ringEnumEffect h addr s)

/-! ### Forwarded packets and replies (R280, R289, R293, R302) -/

/-- A packet at this device (R280, R289, R293, R302): one for it is taken, and one for another passes on. A MULTICAST is taken and
passes on, past a quarantined member, until it is back at its entry device. -/
def packetArrives (v : Via) (entry : BitVec 7) (q : Fin 64) (era : Nat) (p : Packet) (s : State) : State :=
  let h := packetHdr p q era (some entry)
  let on := fun s => passOn (received s v) v (.load (.packet entry q era p))
  let mine := bits p.target.toNat 9 7 == s.boot.straps.ringId.toNat &&
    (if h.multicast then !s.ring.quarantined else bits p.target.toNat 6 0 == s.ring.position.toNat)
  if v.reverse then on s
  else if entry = s.ring.position then received s v
  else if !mine then on s
  else if !canTake s h then s
  else if h.multicast then takeLocal (on s) p h else takeLocal (received s v) p h

/-- RING_PACKET_ARRIVAL (R280, R289, R293, R294, R302): a packet, or DMA traffic, which the Summit issues on its own link. The table
has no row of its own for DMA traffic. DESIGN CHOICE, log entry 68. -/
def ringPacketArrivalEffect (v : Via) (l : RingLoad) (s : State) : State :=
  if !s.ring.enumerated || !nextFrame s v then s
  else match l with
  | .packet entry q era p => packetArrives v entry q era p s
  | .dma addr data =>
    if v.reverse || s.ring.position != 0 then passOn (received s v) v (.load l)
    else if !dmaOk s then s
    else let s := received s v; { s with host := hostPut s.host addr.toNat data }

def execRingPacketArrival (reverse : Bool) (seq : Nat) (l : RingLoad) (s : State) : Host.Outcome State Fault Refusal :=
  done s (ringPacketArrivalEffect ⟨reverse, seq⟩ l s)

/-- The packet waits for this member's reply. -/
def awaitsMember (s : State) (q : Fin 64) (era : Nat) (seq : Word) (sender : BitVec 7) : Bool :=
  s.sq[q].taken.any fun t => t.waits era seq && (t.mc.isSome || (match t.forwarded with
    | some (pos, _) => pos == sender
    | none => false))

/-- RING_REPLY_ARRIVAL (R281, R289, R293): at its entry device the reply is written; elsewhere it passes on. -/
def ringReplyArrivalEffect (v : Via) (entry : BitVec 7) (q : Fin 64) (era : Nat) (seq : Word) (sender : BitVec 7) (r : Reply)
    (s : State) : State :=
  if !s.ring.enumerated || !nextFrame s v then s
  else
    let s := received s v
    if v.reverse || entry != s.ring.position then passOn s v (.reply entry q era seq sender r)
    else if awaitsMember s q era seq sender then memberReply s q era seq sender.toNat r
    else s

def execRingReplyArrival (v : Via) (d : ReplyTo) (sender : BitVec 7) (r : Reply) (s : State) :
    Host.Outcome State Fault Refusal := done s (ringReplyArrivalEffect v d.entry d.ring d.era d.seq sender r s)

/-- RING_EVENT_RECEIVE (R364): the event is raised, and passes on until it is back at its sender. -/
def ringEventReceiveEffect (v : Via) (k : Fin 8) (position : BitVec 7) (s : State) : State :=
  if !s.ring.enumerated || !nextFrame s v then s
  else
    let s := received s v
    if v.reverse then passOn s v (.event k position)
    else if position = s.ring.position then s
    else raise (passOn s v (.event k position)) (0xE8 + k.val) position.toNat

def execRingEventReceive (v : Via) (e : RingEvent) (s : State) : Host.Outcome State Fault Refusal :=
  done s (ringEventReceiveEffect v e.k e.position s)

end Sys2Proof.Machine
end

