-- ==== Sys2Proof/Machine/Cairn.lean ====
section
/-! DEFINITION. Cairn timing (chapter 12): frames, loads of the T64, relaunches, missed frames, hop measurement, SYNC_CAL and
background tracking. -/

namespace Sys2Proof.Machine

/-- P_C in ticks (R304). -/
def cairnTicks (period : BitVec 14) : Nat := 150000 * (period.toNat + 1)

/-- L_e (R304). -/
def epochTime (e : BitVec 48) (period : BitVec 14) : T64 := BitVec.ofNat 64 (e.toNat * cairnTicks period % 2 ^ 54 * 1024)

/-- DLY in force (R305): the external offset, or what SYNC_CAL and tracking gave. -/
def dlyNow (s : State) : Int := signed 32 (word s (if s.cairn.extParent then gEXTDLY else gCAIRNDLY))

/-- A DLY that SYNC_CAL or tracking sent applies at a frame; GLB_CAIRN_DLY shows the DLY in force, which is that of the root on a root
(R305, R312, R313). -/
def adoptDly (s : State) : State :=
  let s := match s.cairn.dlyNext with
    | some d => putWord (modCairn s fun c => { c with dlyNext := none }) gCAIRNDLY (unsign 32 d)
    | none => s
  if s.cairn.root then putWord s gCAIRNDLY (unsign 32 (-524288))
  else if s.cairn.extParent then putWord s gCAIRNDLY (word s gEXTDLY)
  else s

/-- The reply of a SYNC_CAL follows the frame at which its DLY values apply (R312). -/
def syncReply (s : State) : State :=
  match findLong s fun j => match j with | .syncCal _ sent => sent | _ => false with
  | some l => replyDone (dropLong s l) l.hdr 0x59 0
  | none => s

/-! ### Frames (R304 to R309) -/

/-- An output is driven: it has a child, or no discovery has found it without one (R306). -/
def drives (s : State) (k : Bool) : Bool := !s.cairn.discovered || (if k then s.cairn.child1 else s.cairn.child0)

/-- A frame with its CRC (Table 12-4). -/
def makeFrame (e : BitVec 48) (period : BitVec 14) : CairnFrame := ⟨e, period, crc8 (e.toNat + period.toNat * 2 ^ 48)⟩

/-- A frame leaves on every output that is driven; the others stay low (R304, R306). -/
def putFrame (s : State) (f : CairnFrame) : State :=
  let o := fun (k : Bool) (x : Option CairnFrame) => if drives s k then some f else x
  modCairn s fun c => { c with sent := f.epoch, out0 := o false c.out0, out1 := o true c.out1 }

/-- CAIRN_FRAME_SEND (R304): at an epoch of the root; ROOT and PERIOD as last written take effect at this frame. -/
def cairnFrameSendEffect (s : State) : State :=
  let w := word s gCAIRNCFG
  let p := if s.cairn.root then s.cairn.period else BitVec.ofNat 14 (bits w 29 16)
  let n := coarse s.now
  if s.boot.por || !(s.cairn.root || bit w 0) || n % cairnTicks p != 0 then s
  else if !bit w 0 then modCairn s fun c => { c with root := false, period := BitVec.ofNat 14 (bits w 29 16) }
  else
    let s := modCairn s fun c => { c with root := true, period := BitVec.ofNat 14 (bits w 29 16) }
    syncReply (adoptDly (putFrame s (makeFrame (BitVec.ofNat 48 (n / cairnTicks p)) s.cairn.period)))

def execCairnFrameSend (s : State) : Host.Outcome State Fault Refusal := done s (cairnFrameSendEffect s)

/-- A stamp lies in an echo window: less than 1 µs after a parent's echo pulse (R307, R311). -/
def inEcho (s : State) (stamp : T64) : Bool :=
  match s.cairn.echoAt with
  | some u => decide (0 ≤ timeDiff stamp u ∧ timeDiff stamp u < usFu 1)
  | none => false

/-- The frame is valid (R307); its CRC covers the reserved bits as they arrive (Table 12-4). -/
def frameValid (s : State) (f : CairnFrame) (reserved : BitVec 2) (stamp : T64) : Bool :=
  f.crc == crc8 (f.epoch.toNat + f.period.toNat * 2 ^ 48 + reserved.toNat * 2 ^ 62) && !inEcho s stamp

/-- Every armed capture stream receives a CAIRN pair (R309). -/
def cairnPairs (s : State) (stamp : T64) (e : BitVec 48) : State :=
  each allRidges (fun s r => if s.ridges[r].stream.isSome then writeSpecial s r stamp (cairnPair stamp e.toNat) false else s) s

/-- GLB_CAIRN_LAST_CORR holds Δ (R307). -/
def corrWord (d : Int) : Nat := if -2 ^ 31 ≤ d ∧ d < 2 ^ 31 then unsign 32 d else (Config.bigCorr d).toNat

/-- CAIRN_FRAME_RECEIVE (R305 to R309): Δ is computed, and the load is due 256 ticks after the stamp (R399). -/
def cairnFrameReceiveEffect (f : CairnFrame) (reserved : BitVec 2) (stamp : T64) (s : State) : State :=
  if s.boot.por || s.cairn.root then s
  else if !frameValid s f reserved stamp then setBits s gCAIRNSTATUS 8
  else
    let s := adoptDly s
    let target := epochTime f.epoch f.period + BitVec.ofInt 64 (dlyNow s)
    let d := timeDiff target stamp
    let s := modCairn s fun c => { c with fed := true, epoch := f.epoch, period := f.period, lastFrame := s.ticks,
                                          load := some (stamp + ticksFu 256, d),
                                          relaunch := if drives s false || drives s true then some (target + 524288#64) else none }
    let s := raise (putWord s gLASTCORR (corrWord d)) 0xDD (f.epoch.toNat % 2 ^ 24)
    syncReply (cairnPairs s stamp f.epoch)

def execCairnFrameReceive (f : CairnFrame) (reserved : BitVec 2) (stamp : T64) (s : State) : Host.Outcome State Fault Refusal :=
  done s (cairnFrameReceiveEffect f reserved stamp s)

/-- The device is idle in the sense of R307. -/
def timeIdle (s : State) : Bool :=
  s.tickets == [] && (allRidges.all fun r => match s.ridges[r].st with | .unbound | .bound => true | _ => false) &&
    s.ports.toList.all (fun p => !portBusy p)

/-- CAIRN_LOAD (R22, R307, R399): the counters load, or the load is held; a replica that disagrees with the master after a load
is a fault of its ridge. -/
def cairnLoadEffect (bad : Option RidgeId) (s : State) : State :=
  match s.cairn.load with
  | none => s
  | some (t, d) =>
    if !reached s.now t then s
    else
      let s := modCairn s fun c => { c with load := none }
      let small := decide (d.natAbs ≤ 64)
      if !small && !timeIdle s then modCairn s fun c => { c with stepHeld := true, locked := false }
      else
        let s := modCairn { s with now := s.now + BitVec.ofInt 64 d } fun c => { c with stepHeld := false, locked := true }
        let s := if small then s else raise (setBits s gCAIRNSTATUS 16) 0xD4 0
        match bad with
        | some r => ridgeFault s r 8 none false
        | none => s

def execCairnLoad (bad : Option RidgeId) (s : State) : Host.Outcome State Fault Refusal := done s (cairnLoadEffect bad s)

/-- CAIRN_RELAUNCH (R306). -/
def cairnRelaunchEffect (s : State) : State :=
  match s.cairn.relaunch with
  | none => s
  | some t =>
    if reached s.now t then putFrame (modCairn s fun c => { c with relaunch := none }) (makeFrame s.cairn.epoch s.cairn.period) else s

def execCairnRelaunch (s : State) : Host.Outcome State Fault Refusal := done s (cairnRelaunchEffect s)

/-- CAIRN_MISSED (R308): P_C + 1 µs have passed since the last valid frame, or since the frame last missed was due. -/
def cairnMissedEffect (s : State) : State :=
  let c := s.cairn
  if s.boot.por || c.root || !c.fed || decide (s.ticks - c.lastFrame ≤ cairnTicks c.period + usTicks 1) then s
  else
    let s := modCairn s fun c => { c with lastFrame := c.lastFrame + cairnTicks c.period }
    raise (setBits (bump s gCAIRNMISSED 1) gCAIRNSTATUS 4) 0xD5 0

def execCairnMissed (s : State) : Host.Outcome State Fault Refusal := done s (cairnMissedEffect s)

/-! ### The middle half of an epoch (R311) -/

/-- Ticks from this device's last frame to a time; a device that no frame has reached knows none. -/
def sinceFrame (s : State) (t : T64) : Option Nat :=
  let c := s.cairn
  if c.root then some (coarse t % cairnTicks c.period)
  else if c.fed then some ((s.ticks - c.lastFrame - (coarse s.now - coarse t)) % cairnTicks c.period)
  else none

/-- Discovery pulses and echoes fall only from 0.25 P_C to 0.75 P_C after the frame. -/
def midHalf (s : State) (t : T64) : Bool :=
  match sinceFrame s t with
  | some p => decide (cairnTicks s.cairn.period ≤ 4 * p ∧ 4 * p ≤ 3 * cairnTicks s.cairn.period)
  | none => true

/-- The window of a time, of so many ticks each, counted from the start of the middle half. DEDUCED, log entry 69. -/
def windowIx (s : State) (len : Nat) (t : T64) : Nat :=
  match sinceFrame s t with
  | some p => (4 * p - cairnTicks s.cairn.period) / (4 * len)
  | none => coarse t / len

/-- Two times of this epoch lie in one window. -/
def oneWindow (s : State) (len : Nat) (t u : T64) : Bool :=
  decide (timeDiff t u < (len * 1024 : Nat)) && decide (windowIx s len t = windowIx s len u)

/-! ### Discovery and hops (R310 to R313) -/

/-- Change this device's member record. -/
def modMember (s : State) (k : Nat) (f : Member → Member) : State := modRing s fun r => { r with members := r.members.modify k f }

/-- A pulse on an output. -/
def drivePulse (s : State) (k : Bool) (t : T64) : State :=
  modCairn s fun c => if k then { c with pulse1 := some t } else { c with pulse0 := some t }

/-- The member that sees the pulse records its parent and output; the root ignores CAIRN_IN. -/
def seePulse (parent output : Byte) (s : State) : State :=
  if s.cairn.root then s
  else
    let s := modCairn s fun c => { c with extParent := false, seen := some (parent, output) }
    modMember s s.ring.position.toNat fun m => { m with parent := parent, output := output, extParent := false, unfed := false }

/-- DISCOVERY_PULSE (R311, R312): the device named as parent pulses its output, each output in a window of its own of 2 µs; any other
sees the pulse at CAIRN_IN. -/
def discoveryPulseEffect (parent output : Byte) (s : State) : State :=
  let k := output.getLsbD 0
  let other := if k then s.cairn.pulse0 else s.cairn.pulse1
  let taken := match other with | some t => oneWindow s (usTicks 2) s.now t | none => false
  if s.boot.por || !midHalf s s.now then s
  else if s.ring.enumerated && parent.toNat == s.ring.position.toNat then (if taken then s else drivePulse s k s.now)
  else seePulse parent output s

def execDiscoveryPulse (parent output : Byte) (s : State) : Host.Outcome State Fault Refusal :=
  done s (discoveryPulseEffect parent output s)

/-- ECHO_PULSE (R310, R311). -/
def echoPulseEffect (stamp : T64) (s : State) : State :=
  if s.boot.por || !reached s.now stamp || !midHalf s stamp then s
  else modCairn s fun c => { c with echo := some stamp, echoAt := some stamp }

def execEchoPulse (stamp : T64) (s : State) : Host.Outcome State Fault Refusal := done s (echoPulseEffect stamp s)

/-- ECHO_TURNAROUND (R310): the return pulse is driven 64 ticks after the stamp. -/
def echoTurnaroundEffect (s : State) : State :=
  match s.cairn.echo with
  | none => s
  | some u =>
    let t := u + 65536#64
    if reached s.now t then modCairn s fun c => { c with echo := none, echoOut := some t } else s

def execEchoTurnaround (s : State) : Host.Outcome State Fault Refusal := done s (echoTurnaroundEffect s)

/-- One echo joins the sum; the sixteenth gives the hop value, the mean of (y − x − 65,536) ÷ 2. -/
def hopStep (acc : Nat × Int) (val d : Int) : (Nat × Int) × Int :=
  if acc.1 = 15 then ((0, 0), nearest (acc.2 + d) 32) else ((acc.1 + 1, acc.2 + d), val)

/-- ECHO_RETURN (R310, R311): the pulse driven at x came back at y, within one window of 1 µs; the internal delay of the path is taken
off. -/
def echoReturnEffect (output : Bool) (driven returned : T64) (s : State) : State :=
  if s.boot.por || !reached s.now returned || !midHalf s driven || !midHalf s returned || !oneWindow s (usTicks 1) returned driven then s
  else
    let d := timeDiff returned driven - 65536 - Config.echoPath output
    modCairn (drivePulse s output driven) fun c =>
      if output then { c with hop1 := (hopStep c.hop1 c.hopVal1 d).1, hopVal1 := (hopStep c.hop1 c.hopVal1 d).2 }
      else { c with hop0 := (hopStep c.hop0 c.hopVal0 d).1, hopVal0 := (hopStep c.hop0 c.hopVal0 d).2 }

def execEchoReturn (output : Bool) (driven returned : T64) (s : State) : Host.Outcome State Fault Refusal :=
  done s (echoReturnEffect output driven returned s)

/-! ### The tree as a device knows it (R306, R312) -/

/-- The output of this device that feeds member k. -/
def outputTo (s : State) (k : Nat) : Option Bool :=
  match s.ring.members[k]? with
  | some m => if !m.extParent && m.parent.toNat == s.ring.position.toNat then some (m.output.getLsbD 0) else none
  | none => none

/-- A member hangs on an output of this device. -/
def hasChild (s : State) (k : Bool) : Bool := (List.range s.ring.members.length).any fun j => outputTo s j == some k

/-- Hop values by position: those of this device's own outputs as its echoes gave them, the others as they were sent to it. -/
def gatherHops (s : State) (hops : List Word) : State :=
  modCairn s fun c => { c with hops := (List.range s.ring.members.length).map fun k => match outputTo s k with
    | some true => BitVec.ofInt 32 c.hopVal1
    | some false => BitVec.ofInt 32 c.hopVal0
    | none => hops.getD k (c.hops.getD k 0) }

/-- What DISCOVER found: every member's place, this device's children, and its own kind of parent. -/
def learnTree (is : List SyncInfo) (s : State) : State :=
  let s := modRing s fun r => { r with members := placeMembers r.members is }
  let ext := match s.ring.members[s.ring.position.toNat]? with | some m => m.extParent | none => false
  modCairn s fun c => { c with discovered := true, child0 := hasChild s false, child1 := hasChild s true, extParent := ext
                               exts := is.map fun i => i.ext }

/-- A DLY from SYNC_CAL waits for the next frame; tracking is bounded by it. -/
def newDly (d : Int) (s : State) : State := modCairn s fun c => { c with dlyBase := d, dlyNext := some d }

/-- Epoch of the device's last frame. -/
def lastEpoch (s : State) : Nat := (if s.cairn.root then s.cairn.sent else s.cairn.epoch).toNat

/-- BG_TRACK_ECHO (R313): every 64 epochs the hops are echoed again. The Summit takes the hop values that its members send, and sends
every member its DLY; a member takes its own. It applies at the next frame, within ±9 of what SYNC_CAL left. -/
def bgTrackEchoEffect (hops dly : List Word) (s : State) : State :=
  if s.boot.por || !isSet s gCAIRNCFG 1 || !s.cairn.discovered || decide (lastEpoch s < s.cairn.trackAt.toNat + 64) then s
  else
    let summit := s.boot.straps.mstr && s.ring.enumerated
    let s := modCairn s fun c => { c with trackAt := BitVec.ofNat 48 (lastEpoch s) }
    let s := if summit then gatherHops s hops else s
    let vals := if summit then treeDlys s else dly
    let s := if summit then sendRing s none (.dly [] vals) else s
    match vals[s.ring.position.toNat]? with
    | none => s
    | some v =>
      let b := s.cairn.dlyBase
      let d := clampI (b - 9) (b + 9) v.toInt
      let s := modCairn s fun c => { c with dlyNext := some d }
      if d = v.toInt then s else raise (setBits s gCAIRNSTATUS 32) 0xD6 0

def execBgTrackEcho (e : HopEcho) (s : State) : Host.Outcome State Fault Refusal := done s (bgTrackEchoEffect e.hops e.dly s)

/-! ### SYNC_CAL (R312) -/

def syncCalEffect (h : Hdr) (options : Byte) (s : State) : State :=
  command s h { row 0x59 2 .none with baseline := false } [.dectik] fun s =>
    let o := options.toNat
    if !s.boot.straps.mstr then refuse s h 0x59 BAD_TARGET 0
    else if o % 4 = 0 ∨ (o % 4 = 2 ∧ !s.cairn.discovered) then refuse s h 0x59 BAD_PARAM 0
    else if !s.ring.enumerated ∨ s.ring.twoSummit ∨ s.ring.state = 2 then refuse s h 0x59 BUSY 0
    else
      let seen := if bit o 0 then none else s.cairn.seen
      startLong (modCairn s fun c => { c with hop0 := (0, 0), hop1 := (0, 0), seen := seen }) h 0x59 (.syncCal options false)

def execSyncCal (h : Hdr) (options : Byte) (s : State) : Host.Outcome State Fault Refusal := done s (syncCalEffect h options s)

/-- What this device found of itself stands in its place of the list. -/
def withOwn (s : State) (is : List SyncInfo) : List SyncInfo :=
  is.modify s.ring.position.toNat fun i => { i with seen := s.cairn.seen, fed := s.cairn.fed }

/-- The Summit's part of SYNC_CAL_DONE: the tree and the hops are collected, every DLY is computed and sent. -/
def syncCollect (is : List SyncInfo) (o : Byte) (s : State) : State :=
  let is := withOwn s is
  let s := if o.getLsbD 0 then learnTree is s else s
  let s := if o.getLsbD 1 then gatherHops s (is.map fun i => i.hop) else s
  let vals := treeDlys s
  newDly ((vals[s.ring.position.toNat]?.getD 0).toInt) (sendRing s none (.dly is vals))

/-- SYNC_CAL_DONE (R312): on the Summit the values are collected and sent; a member receives its own DLY, and with the findings of a
SYNC_CAL its place in the tree. -/
def syncCalDoneEffect (is : List SyncInfo) (vals : List Word) (s : State) : State :=
  match findLong s fun j => match j with | .syncCal _ _ => true | _ => false with
  | some l =>
    match l.job with
    | .syncCal o sent =>
      if sent || bearSafe s || s.owl.shutdown then s
      else
        let longs := s.link.longs.map fun x => if x = l then { l with job := .syncCal o true } else x
        syncCollect is o { s with link := { s.link with longs := longs } }
    | _ => s
  | none =>
    if s.boot.por || s.boot.straps.mstr || !s.ring.enumerated then s
    else
      let s := if is = [] then s else gatherHops (learnTree (withOwn s is) s) (is.map fun i => i.hop)
      match vals[s.ring.position.toNat]? with
      | some v => newDly v.toInt s
      | none => s

def execSyncCalDone (is : List SyncInfo) (vals : List Word) (s : State) : Host.Outcome State Fault Refusal :=
  done s (syncCalDoneEffect is vals s)

end Sys2Proof.Machine
end

