-- ==== Sys2Proof/Machine/Regs.lean ====
section
/-! DEFINITION. The rows that are a write or a read of one register: each is the write of its word on the path that carries it
(R7, R290, R327, Table 11-2). -/

namespace Sys2Proof.Machine

/-- A write of index i by a packet, by the window, or by the WRITE of a slave port. -/
def regWrite (p : Path) (i : Nat) (v : Word) (s : State) : State :=
  match p with
  | .packet h => paramWriteEffect h (BitVec.ofNat 16 i) v s
  | .window => windowWrite s i v.toNat
  | .slave n => slaveApply s n i [v.toNat]
  | .bar0 _ | .config _ => s

/-! ### Pins (Tables 5-1, 5-8) -/

/-- PIN_CFG (R129). -/
def pinCfgEffect (path : Path) (p : PinId) (v : Word) (s : State) : State := regWrite path (pinW p 0) v s
def execPinCfg (path : Path) (p : PinId) (v : Word) (s : State) : Host.Outcome State Fault Refusal := done s (pinCfgEffect path p v s)

/-- PIN_PMU_CFG (R148). -/
def pinPmuCfgEffect (path : Path) (p : PinId) (v : Word) (s : State) : State := regWrite path (pinW p 11) v s
def execPinPmuCfg (path : Path) (p : PinId) (v : Word) (s : State) : Host.Outcome State Fault Refusal := done s (pinPmuCfgEffect path p v s)

/-! ### Supplies (Table 6-6) -/

/-- DPS_CFG (R151, R155). -/
def dpsCfgEffect (path : Path) (n : RidgeId) (v : Word) (s : State) : State := regWrite path (dpsW n 0) v s
def execDpsCfg (path : Path) (n : RidgeId) (v : Word) (s : State) : Host.Outcome State Fault Refusal := done s (dpsCfgEffect path n v s)

/-- DPS_LEVEL (R153, R157). -/
def dpsLevelEffect (path : Path) (n : RidgeId) (v : Word) (s : State) : State := regWrite path (dpsW n 1) v s
def execDpsLevel (path : Path) (n : RidgeId) (v : Word) (s : State) : Host.Outcome State Fault Refusal := done s (dpsLevelEffect path n v s)

/-- DPS_NCO_FREQ (R170). -/
def dpsNcoFreqEffect (path : Path) (n : RidgeId) (v : Word) (s : State) : State := regWrite path (dpsW n 9) v s
def execDpsNcoFreq (path : Path) (n : RidgeId) (v : Word) (s : State) : Host.Outcome State Fault Refusal :=
  done s (dpsNcoFreqEffect path n v s)

/-- DPS_NCO_PHASE (R170). -/
def dpsNcoPhaseEffect (path : Path) (n : RidgeId) (v : Word) (s : State) : State := regWrite path (dpsW n 10) v s
def execDpsNcoPhase (path : Path) (n : RidgeId) (v : Word) (s : State) : Host.Outcome State Fault Refusal :=
  done s (dpsNcoPhaseEffect path n v s)

/-- DPS_STATUS (R164). -/
def dpsStatusEffect (path : Path) (n : RidgeId) (v : Word) (s : State) : State := regWrite path (dpsW n 13) v s
def execDpsStatus (path : Path) (n : RidgeId) (v : Word) (s : State) : Host.Outcome State Fault Refusal :=
  done s (dpsStatusEffect path n v s)

/-! ### Analog ports (Table 7-6) -/

/-- STOP_AWG: APT_CTRL bit 0 (R188). -/
def stopAwgWriteEffect (path : Path) (n : RidgeId) (s : State) : State := regWrite path (aptW n 13) 1 s
def execStopAwg (path : Path) (n : RidgeId) (s : State) : Host.Outcome State Fault Refusal := done s (stopAwgWriteEffect path n s)

/-- STOP_ACQ: APT_CTRL bit 1 (R189). -/
def stopAcqWriteEffect (path : Path) (n : RidgeId) (s : State) : State := regWrite path (aptW n 13) 2 s
def execStopAcq (path : Path) (n : RidgeId) (s : State) : Host.Outcome State Fault Refusal := done s (stopAcqWriteEffect path n s)

/-- APT_NCO_FREQ (R186). -/
def aptNcoFreqEffect (path : Path) (n : RidgeId) (v : Word) (s : State) : State := regWrite path (aptW n 4) v s
def execAptNcoFreq (path : Path) (n : RidgeId) (v : Word) (s : State) : Host.Outcome State Fault Refusal :=
  done s (aptNcoFreqEffect path n v s)

/-- APT_NCO_PHASE (R186). -/
def aptNcoPhaseEffect (path : Path) (n : RidgeId) (v : Word) (s : State) : State := regWrite path (aptW n 5) v s
def execAptNcoPhase (path : Path) (n : RidgeId) (v : Word) (s : State) : Host.Outcome State Fault Refusal :=
  done s (aptNcoPhaseEffect path n v s)

/-- APT_HOST_RD (R200). -/
def aptHostRdEffect (path : Path) (n : RidgeId) (v : Word) (s : State) : State := regWrite path (aptW n 16) v s
def execAptHostRd (path : Path) (n : RidgeId) (v : Word) (s : State) : Host.Outcome State Fault Refusal := done s (aptHostRdEffect path n v s)

/-- RDG_CAP_HOST_RD (R210). -/
def rdgCapHostRdEffect (path : Path) (r : RidgeId) (v : Word) (s : State) : State := regWrite path (rdgW r 0x20) v s
def execRdgCapHostRd (path : Path) (r : RidgeId) (v : Word) (s : State) : Host.Outcome State Fault Refusal :=
  done s (rdgCapHostRdEffect path r v s)

/-! ### Marten, events, resets -/

/-- REPLAY: GLB_MARTEN_CFG (R246). -/
def replayEffect (path : Path) (v : Word) (s : State) : State := regWrite path gMARTENCFG v s
def execReplay (path : Path) (v : Word) (s : State) : Host.Outcome State Fault Refusal := done s (replayEffect path v s)

/-- RECLAIM (R248). -/
def reclaimEffect (path : Path) (v : Word) (s : State) : State := regWrite path 0x18C2 v s
def execReclaim (path : Path) (v : Word) (s : State) : Host.Outcome State Fault Refusal := done s (reclaimEffect path v s)

/-- GLB_EVT_FIRE (R365). -/
def glbEvtFireEffect (path : Path) (v : Word) (s : State) : State := regWrite path 0x1915 v s
def execGlbEvtFire (path : Path) (v : Word) (s : State) : Host.Outcome State Fault Refusal := done s (glbEvtFireEffect path v s)

/-- RESET: RDG_ISLAND_CTRL (R404). -/
def resetEffect (path : Path) (r : RidgeId) (s : State) : State := regWrite path (rdgW r 0x30) 1 s
def execReset (path : Path) (r : RidgeId) (s : State) : Host.Outcome State Fault Refusal := done s (resetEffect path r s)

/-- HOST_RESET (R389, R270, R423): by GLB_FAULT_CTRL, or a fundamental or function level reset, which samples the straps. -/
def hostResetEffect (path : Option Path) (z : Straps) (s : State) : State :=
  match path with
  | some p => regWrite p 0x1948 1 s
  | none => if s.boot.por then s else hostReset s z

def execHostReset (path : Option Path) (z : Straps) (s : State) : Host.Outcome State Fault Refusal := done s (hostResetEffect path z s)

/-! ### REGISTER_WRITE and PARAM_READ (R7, R290, R408) -/

/-- A register with no row of its own; a BAR0 offset and the configuration space are reached by the PCIe link alone. -/
def registerWriteEffect (path : Path) (loc : RegLoc) (v : Word) (s : State) : State :=
  match loc with
  | .param i => regWrite path i.toNat v s
  | .bar0 off => match path with
    | .window => bar0Write s off.toNat v
    | _ => s
  | .config off => match path with
    | .window => configWrite s off.toNat v
    | _ => s

def execRegisterWrite (path : Path) (loc : RegLoc) (v : Word) (s : State) : Host.Outcome State Fault Refusal :=
  done s (registerWriteEffect path loc v s)

/-- A read of parameter words on a path, of BAR0 outside the window, or of the configuration space. -/
def paramReadEffect (path : Path) (first count : BitVec 16) (addr : BitVec 64) (s : State) : State :=
  if s.boot.por then s
  else match path with
  | .packet h => packetRead h first count addr s
  | .window => windowReadEffect first.toNat s
  | .slave n => slaveReadEffect n count.toNat first.toNat s
  | .bar0 off => bar0ReadEffect off.toNat s
  | .config off => configReadEffect off.toNat s

def execParamRead (path : Path) (first count : BitVec 16) (addr : BitVec 64) (s : State) : Host.Outcome State Fault Refusal :=
  done s (paramReadEffect path first count addr s)

/-! ### The base clock (log entry 1) -/

/-- What a tick brings to one port: its samples are put out and taken (R177, R178, R180). -/
def tickPort (s : State) (n : RidgeId) : State := adcTick (awgRun s n) n

/-- What a tick brings to one ridge: its vector may be over, and its formatter takes what has become known (R59, R60, R63, R209). -/
def tickRidge (s : State) (r : RidgeId) : State := settleStream (vecEnd s r) r

/-- One tick of the base clock: T64 counts (R12, R22), and ports, ridges and ring links go on with it. The clock stands while POR_N is
low. -/
def clockTick (s : State) : State :=
  if s.boot.por then { s with ticks := s.ticks + 1 }
  else each [false, true] ackTick (each allRidges tickRidge (each allRidges tickPort { s with now := s.now + 1024, ticks := s.ticks + 1 }))

end Sys2Proof.Machine
end

