-- ==== Sys2Proof/Machine/Dispatch.lean ====
section
/-! DEFINITION. The meaning of each command: one arm per constructor of `Instr`, in the order of the table. -/

namespace Sys2Proof.Machine

def exec (i : Instr) (s : State) : Host.Outcome State Fault Refusal :=
  match i with
  | .identify h addr => Sys2Proof.Machine.execIdentify h addr s
  | .paramWrite h index value => Sys2Proof.Machine.execParamWrite h index value s
  | .paramRead p first count addr => Sys2Proof.Machine.execParamRead p first count addr s
  | .paramWriteMulti h count pairs => Sys2Proof.Machine.execParamWriteMulti h count pairs s
  | .saveState h => Sys2Proof.Machine.execSaveState h s
  | .saveStateDone readBackOk => Sys2Proof.Machine.execSaveStateDone readBackOk s
  | .restoreState h source crcOk => Sys2Proof.Machine.execRestoreState h source crcOk s
  | .segLoad h handle addr => Sys2Proof.Machine.execSegLoad h handle addr s
  | .segLoadDone handle img => Sys2Proof.Machine.execSegLoadDone handle img s
  | .segRelease h handle => Sys2Proof.Machine.execSegRelease h handle s
  | .segPin h handle => Sys2Proof.Machine.execSegPin h handle s
  | .segUnpin h handle => Sys2Proof.Machine.execSegUnpin h handle s
  | .progBind h handle unbind maxBody d targets => Sys2Proof.Machine.execProgBind h handle unbind maxBody d targets s
  | .timingWrite h bank first count records => Sys2Proof.Machine.execTimingWrite h bank first count records s
  | .timingSwap h => Sys2Proof.Machine.execTimingSwap h s
  | .timingSwapApply r => Sys2Proof.Machine.execTimingSwapApply r s
  | .timingCopyDone r => Sys2Proof.Machine.execTimingCopyDone r s
  | .launch h resume bySite site mask => Sys2Proof.Machine.execLaunch h resume bySite site mask s
  | .launchTick r => Sys2Proof.Machine.execLaunchTick r s
  | .halt h park bySite site mask => Sys2Proof.Machine.execHalt h park bySite site mask s
  | .haltAtBoundary r => Sys2Proof.Machine.execHaltAtBoundary r s
  | .eventJumpArm h source disarm target => Sys2Proof.Machine.execEventJumpArm h source disarm target s
  | .eventJumpLatch r => Sys2Proof.Machine.execEventJumpLatch r s
  | .eventJump r => Sys2Proof.Machine.execEventJump r s
  | .measure h selector nMinus1 conv pinned queue => Sys2Proof.Machine.execMeasure h selector nMinus1 conv pinned queue s
  | .measureStart ticket => Sys2Proof.Machine.execMeasureStart ticket s
  | .measureEnd ticket samples atLimit => Sys2Proof.Machine.execMeasureEnd ticket samples atLimit s
  | .timeMeasure h pinA edges pinB timu count queue limit => Sys2Proof.Machine.execTimeMeasure h pinA edges pinB timu count queue limit s
  | .timuJobStart ticket => Sys2Proof.Machine.execTimuJobStart ticket s
  | .timuJobEnd ticket => Sys2Proof.Machine.execTimuJobEnd ticket s
  | .captureArm h bySite siteLanes site laneMask frames queue buf nb => Sys2Proof.Machine.execCaptureArm h bySite siteLanes site laneMask frames queue buf nb s
  | .acqArm h dig awg stream k pre post frames queue buf nb => Sys2Proof.Machine.execAcqArm h dig awg stream k pre post frames queue buf nb s
  | .queueConfig h queue enable ringSize reservation ringBase wbAddr cring drainThr stale => Sys2Proof.Machine.execQueueConfig h queue enable ringSize reservation ringBase wbAddr cring drainThr stale s
  | .queueFlush h queue mode => Sys2Proof.Machine.execQueueFlush h queue mode s
  | .queueFlushBoundary queue => Sys2Proof.Machine.execQueueFlushBoundary queue s
  | .eventRoute h source action enable => Sys2Proof.Machine.execEventRoute h source action enable s
  | .siteMap h site clear mask => Sys2Proof.Machine.execSiteMap h site clear mask s
  | .calRun h scope => Sys2Proof.Machine.execCalRun h scope s
  | .calRunDone results => Sys2Proof.Machine.execCalRunDone results s
  | .faultRead h addr => Sys2Proof.Machine.execFaultRead h addr s
  | .faultClear h mask => Sys2Proof.Machine.execFaultClear h mask s
  | .faultInject h bit count => Sys2Proof.Machine.execFaultInject h bit count s
  | .ringEnum h addr => Sys2Proof.Machine.execRingEnum h addr s
  | .syncCal h options => Sys2Proof.Machine.execSyncCal h options s
  | .syncCalDone members dly => Sys2Proof.Machine.execSyncCalDone members dly s
  | .fwUpdate h target len addr img => Sys2Proof.Machine.execFwUpdate h target len addr img s
  | .fwUpdateDone => Sys2Proof.Machine.execFwUpdateDone s
  | .echo h addr data => Sys2Proof.Machine.execEcho h addr data s
  | .nop r parityError => Sys2Proof.Machine.execNop r parityError s
  | .repeatVector r => Sys2Proof.Machine.execRepeatVector r s
  | .loopBegin r => Sys2Proof.Machine.execLoopBegin r s
  | .loopEnd r => Sys2Proof.Machine.execLoopEnd r s
  | .loopExit r => Sys2Proof.Machine.execLoopExit r s
  | .jump r => Sys2Proof.Machine.execJump r s
  | .call r => Sys2Proof.Machine.execCall r s
  | .ret r => Sys2Proof.Machine.execRet r s
  | .jumpFail r => Sys2Proof.Machine.execJumpFail r s
  | .jumpPass r => Sys2Proof.Machine.execJumpPass r s
  | .jumpTimeout r => Sys2Proof.Machine.execJumpTimeout r s
  | .clrFail r => Sys2Proof.Machine.execClrFail r s
  | .matchVector r => Sys2Proof.Machine.execMatchVector r s
  | .matchEnd r => Sys2Proof.Machine.execMatchEnd r s
  | .apgLoad r => Sys2Proof.Machine.execApgLoad r s
  | .apgOp r => Sys2Proof.Machine.execApgOp r s
  | .signal r => Sys2Proof.Machine.execSignal r s
  | .checkpoint r => Sys2Proof.Machine.execCheckpoint r s
  | .haltOpcode r => Sys2Proof.Machine.execHaltOpcode r s
  | .illegalOpcode r => Sys2Proof.Machine.execIllegalOpcode r s
  | .stagingFetchDone r handle read => Sys2Proof.Machine.execStagingFetchDone r handle read s
  | .holdResume r => Sys2Proof.Machine.execHoldResume r s
  | .holdTimeout r => Sys2Proof.Machine.execHoldTimeout r s
  | .owlFactorApply r => Sys2Proof.Machine.execOwlFactorApply r s
  | .refclkLoss => Sys2Proof.Machine.execRefclkLoss s
  | .refclkPresent => Sys2Proof.Machine.execRefclkPresent s
  | .clockRevert => Sys2Proof.Machine.execClockRevert s
  | .tcompUpdate => Sys2Proof.Machine.execTcompUpdate s
  | .ageUpdate residual => Sys2Proof.Machine.execAgeUpdate residual s
  | .pinCfg path p value => Sys2Proof.Machine.execPinCfg path p value s
  | .pinModeDone p state => Sys2Proof.Machine.execPinModeDone p state s
  | .pinPmuCfg path p value => Sys2Proof.Machine.execPinPmuCfg path p value s
  | .driverOvercurrent p => Sys2Proof.Machine.execDriverOvercurrent p s
  | .pmuCompliance p => Sys2Proof.Machine.execPmuCompliance p s
  | .pmuComplianceEnd p => Sys2Proof.Machine.execPmuComplianceEnd p s
  | .comparatorTransition p state stamp => Sys2Proof.Machine.execComparatorTransition p state stamp s
  | .dpsCfg path n value => Sys2Proof.Machine.execDpsCfg path n value s
  | .dpsLevel path n value => Sys2Proof.Machine.execDpsLevel path n value s
  | .dpsSlewUpdate n => Sys2Proof.Machine.execDpsSlewUpdate n s
  | .dpsCurrentLimit n => Sys2Proof.Machine.execDpsCurrentLimit n s
  | .dpsCompliance n => Sys2Proof.Machine.execDpsCompliance n s
  | .dpsLimitClear n => Sys2Proof.Machine.execDpsLimitClear n s
  | .dpsOpenLoad n => Sys2Proof.Machine.execDpsOpenLoad n s
  | .dpsSenseOpen n => Sys2Proof.Machine.execDpsSenseOpen n s
  | .dpsSenseRestore n => Sys2Proof.Machine.execDpsSenseRestore n s
  | .boosterFault n => Sys2Proof.Machine.execBoosterFault n s
  | .dpsNcoUpdate n => Sys2Proof.Machine.execDpsNcoUpdate n s
  | .dpsNcoFreq path n value => Sys2Proof.Machine.execDpsNcoFreq path n value s
  | .dpsNcoPhase path n value => Sys2Proof.Machine.execDpsNcoPhase path n value s
  | .dpsPowerWindow power current => Sys2Proof.Machine.execDpsPowerWindow power current s
  | .dpsCapRelease n => Sys2Proof.Machine.execDpsCapRelease n s
  | .dpsStatus path n value => Sys2Proof.Machine.execDpsStatus path n value s
  | .awgStart n => Sys2Proof.Machine.execAwgStart n s
  | .awgSegmentEnd e => Sys2Proof.Machine.execAwgSegmentEnd e s
  | .stopAwg path n => Sys2Proof.Machine.execStopAwg path n s
  | .stopAcq path n => Sys2Proof.Machine.execStopAcq path n s
  | .aptNcoFreq path n value => Sys2Proof.Machine.execAptNcoFreq path n value s
  | .aptNcoPhase path n value => Sys2Proof.Machine.execAptNcoPhase path n value s
  | .acqStart n => Sys2Proof.Machine.execAcqStart n s
  | .analogTrigger n s0 s1 place => Sys2Proof.Machine.execAnalogTrigger n s0 s1 place s
  | .triggerHoldoffEnd n => Sys2Proof.Machine.execTriggerHoldoffEnd n s
  | .recordComplete n samples => Sys2Proof.Machine.execRecordComplete n samples s
  | .acqPostEnd n samples => Sys2Proof.Machine.execAcqPostEnd n samples s
  | .analogBlockComplete n samples => Sys2Proof.Machine.execAnalogBlockComplete n samples s
  | .analogBlockCopy n read => Sys2Proof.Machine.execAnalogBlockCopy n read s
  | .aptHostRd path n value => Sys2Proof.Machine.execAptHostRd path n value s
  | .captureWindowEnd r => Sys2Proof.Machine.execCaptureWindowEnd r s
  | .captureBlockTimeout r => Sys2Proof.Machine.execCaptureBlockTimeout r s
  | .captureBlockCopy r read => Sys2Proof.Machine.execCaptureBlockCopy r read s
  | .rdgCapHostRd path r value => Sys2Proof.Machine.execRdgCapHostRd path r value s
  | .anchor r => Sys2Proof.Machine.execAnchor r s
  | .packetAdmission queue => Sys2Proof.Machine.execPacketAdmission queue s
  | .staleTimer queue => Sys2Proof.Machine.execStaleTimer queue s
  | .drainStart queue uncorrectable => Sys2Proof.Machine.execDrainStart queue uncorrectable s
  | .drainDone queue => Sys2Proof.Machine.execDrainDone queue s
  | .queueHeadWrite queue value => Sys2Proof.Machine.execQueueHeadWrite queue value s
  | .doorbell ring value => Sys2Proof.Machine.execDoorbell ring value s
  | .packetFetch ring pkt completionError => Sys2Proof.Machine.execPacketFetch ring pkt completionError s
  | .sqEnable ring value => Sys2Proof.Machine.execSqEnable ring value s
  | .sqResume ring value => Sys2Proof.Machine.execSqResume ring value s
  | .cqEnable ring value => Sys2Proof.Machine.execCqEnable ring value s
  | .cqHeadWrite ring value => Sys2Proof.Machine.execCqHeadWrite ring value s
  | .pendingNoticeWrite ring => Sys2Proof.Machine.execPendingNoticeWrite ring s
  | .cqIrqTimer ring => Sys2Proof.Machine.execCqIrqTimer ring s
  | .dmaWriteError target again => Sys2Proof.Machine.execDmaWriteError target again s
  | .timedWriteApply => Sys2Proof.Machine.execTimedWriteApply s
  | .registerWrite path loc value => Sys2Proof.Machine.execRegisterWrite path loc value s
  | .replay path value => Sys2Proof.Machine.execReplay path value s
  | .reclaim path value => Sys2Proof.Machine.execReclaim path value s
  | .linkFrameResend portB => Sys2Proof.Machine.execLinkFrameResend portB s
  | .linkDown l => Sys2Proof.Machine.execLinkDown l s
  | .linkRestored l => Sys2Proof.Machine.execLinkRestored l s
  | .ringPacketArrival reverse seq load => Sys2Proof.Machine.execRingPacketArrival reverse seq load s
  | .ringReplyArrival via to_ sender reply => Sys2Proof.Machine.execRingReplyArrival via to_ sender reply s
  | .enumStart => Sys2Proof.Machine.execEnumStart s
  | .enumRetry => Sys2Proof.Machine.execEnumRetry s
  | .enumToken via count own closed entries => Sys2Proof.Machine.execEnumToken via count own closed entries s
  | .cairnFrameSend => Sys2Proof.Machine.execCairnFrameSend s
  | .cairnFrameReceive f reserved stamp => Sys2Proof.Machine.execCairnFrameReceive f reserved stamp s
  | .cairnLoad replicaDisagrees => Sys2Proof.Machine.execCairnLoad replicaDisagrees s
  | .cairnRelaunch => Sys2Proof.Machine.execCairnRelaunch s
  | .cairnMissed => Sys2Proof.Machine.execCairnMissed s
  | .discoveryPulse parent output => Sys2Proof.Machine.execDiscoveryPulse parent output s
  | .echoPulse stamp => Sys2Proof.Machine.execEchoPulse stamp s
  | .echoTurnaround => Sys2Proof.Machine.execEchoTurnaround s
  | .echoReturn output driven returned => Sys2Proof.Machine.execEchoReturn output driven returned s
  | .bgTrackEcho e => Sys2Proof.Machine.execBgTrackEcho e s
  | .ringEventReceive via e => Sys2Proof.Machine.execRingEventReceive via e s
  | .cspWrite n f => Sys2Proof.Machine.execCspWrite n f s
  | .cspWriteApply n => Sys2Proof.Machine.execCspWriteApply n s
  | .cspRead n f => Sys2Proof.Machine.execCspRead n f s
  | .cspStatus n f => Sys2Proof.Machine.execCspStatus n f s
  | .xipMiss addr => Sys2Proof.Machine.execXipMiss addr s
  | .xipLineFill addr => Sys2Proof.Machine.execXipLineFill addr s
  | .porRelease straps fuses => Sys2Proof.Machine.execPorRelease straps fuses s
  | .foxRelease => Sys2Proof.Machine.execFoxRelease s
  | .sfdpRead valid xspiProfile sizeOk continuous => Sys2Proof.Machine.execSfdpRead valid xspiProfile sizeOk continuous s
  | .firmwareVerify img => Sys2Proof.Machine.execFirmwareVerify img s
  | .patchLoad img => Sys2Proof.Machine.execPatchLoad img s
  | .pcieLinkUp => Sys2Proof.Machine.execPcieLinkUp s
  | .powerupCalDone => Sys2Proof.Machine.execPowerupCalDone s
  | .hbmTrainingDone slotsOk => Sys2Proof.Machine.execHbmTrainingDone slotsOk s
  | .rsiApply newerReadsOk otherReadsOk => Sys2Proof.Machine.execRsiApply newerReadsOk otherReadsOk s
  | .foxWatchdog => Sys2Proof.Machine.execFoxWatchdog s
  | .tempConversion sensor value => Sys2Proof.Machine.execTempConversion sensor value s
  | .sensorRecover sensor => Sys2Proof.Machine.execSensorRecover sensor s
  | .owlGraceExpiry => Sys2Proof.Machine.execOwlGraceExpiry s
  | .owlRelease => Sys2Proof.Machine.execOwlRelease s
  | .thermalShutdown sensor => Sys2Proof.Machine.execThermalShutdown sensor s
  | .supplyResetFault m => Sys2Proof.Machine.execSupplyResetFault m s
  | .supplyDip m => Sys2Proof.Machine.execSupplyDip m s
  | .suspectWindowEnd m => Sys2Proof.Machine.execSuspectWindowEnd m s
  | .monitorRelease m => Sys2Proof.Machine.execMonitorRelease m s
  | .monitorTimeout m => Sys2Proof.Machine.execMonitorTimeout m s
  | .pmonGate counts => Sys2Proof.Machine.execPmonGate counts s
  | .eventDelivery col => Sys2Proof.Machine.execEventDelivery col s
  | .glbEvtFire path value => Sys2Proof.Machine.execGlbEvtFire path value s
  | .bgCal conv gain offset => Sys2Proof.Machine.execBgCal conv gain offset s
  | .parkWaitExpiry => Sys2Proof.Machine.execParkWaitExpiry s
  | .quietPeriodEnd => Sys2Proof.Machine.execQuietPeriodEnd s
  | .recoveryComplete => Sys2Proof.Machine.execRecoveryComplete s
  | .hostReset path straps => Sys2Proof.Machine.execHostReset path straps s
  | .reset path r => Sys2Proof.Machine.execReset path r s
  | .ridgeResetRelease r => Sys2Proof.Machine.execRidgeResetRelease r s
  | .hbmTrainingLoss => Sys2Proof.Machine.execHbmTrainingLoss s
  | .multiplierLockLoss => Sys2Proof.Machine.execMultiplierLockLoss s
  | .fatalSourceDeasserts bit => Sys2Proof.Machine.execFatalSourceDeasserts bit s
  | .porNAssert => Sys2Proof.Machine.execPorNAssert s
  | .badCmdFrame n f => Sys2Proof.Machine.execBadCmdFrame n f s

end Sys2Proof.Machine
end

