-- ==== Sys2Proof/WellFormed.lean ====
section
/-! DEFINITION. Which terms of `Instr` are commands of the table: lists of the length that a count gives them, paths that carry
the register, operands in their range. -/

namespace Sys2Proof

/-- A path that carries a write of a parameter word. -/
def Path.writes : Path → Bool
  | .packet _ | .window | .slave _ => true
  | .bar0 _ | .config _ => false

/-- Words that one read on the path returns (R8, R328, R408); a packet's COUNT is checked by its own rule. -/
def Path.reads (p : Path) (count : Nat) : Bool :=
  match p with
  | .packet _ => true
  | .window | .bar0 _ | .config _ => count == 1
  | .slave _ => decide (1 ≤ count) && decide (count ≤ 16)

/-- The bytes after the header lie within LENGTH units (R277). -/
def Packet.sized (p : Packet) : Bool := decide (p.rest.length ≤ 16 * (p.length.toNat - 1))

/-- A set record of sixteen lanes with six edge words each (Table 4-3). -/
def SetRecord.shaped (r : SetRecord) : Bool := r.lanes.length == 16 && r.lanes.all fun l => l.1.length == 6

/-- An image with the fields of Table 3-1 at their lengths. -/
def SegImage.shaped (i : SegImage) : Bool := i.label.length == 16 && i.reserved.length == 31 && i.payload.length == 1024

/-- The term is a command. -/
def Instr.wellFormed : Instr → Bool
  | .identify _ _ | .paramWrite _ _ _ => true
  | .paramRead p _ count _ => p.reads count.toNat
  | .paramWriteMulti _ count pairs => pairs.length == count.toNat
  | .saveState _ | .saveStateDone _ | .restoreState _ _ _ | .segLoad _ _ _ => true
  | .segLoadDone _ img => img.shaped
  | .segRelease _ _ | .segPin _ _ | .segUnpin _ _ => true
  | .progBind _ _ _ _ d targets => targets.length == d.toNat
  | .timingWrite _ _ _ count records => records.length == count.toNat && records.all SetRecord.shaped
  | .timingSwap _ | .timingSwapApply _ | .timingCopyDone _ | .launch _ _ _ _ _ | .launchTick _ | .halt _ _ _ _ _
  | .haltAtBoundary _ | .eventJumpArm _ _ _ _ | .eventJumpLatch _ | .eventJump _ | .measure _ _ _ _ _ _
  | .measureStart _ => true
  | .measureEnd _ samples _ => decide (1 ≤ samples.length) && decide (samples.length ≤ 65536)
  | .timeMeasure _ _ _ _ _ _ _ _ | .timuJobStart _ | .timuJobEnd _ | .captureArm _ _ _ _ _ _ _ _ _
  | .acqArm _ _ _ _ _ _ _ _ _ _ _ | .queueConfig _ _ _ _ _ _ _ _ _ _ | .queueFlush _ _ _ | .queueFlushBoundary _
  | .eventRoute _ _ _ _ | .siteMap _ _ _ _ | .calRun _ _ | .calRunDone _ | .faultRead _ _ | .faultClear _ _
  | .faultInject _ _ _ | .ringEnum _ _ | .syncCal _ _ => true
  | .syncCalDone members dly => decide (members.length ≤ 128) && decide (dly.length ≤ 128)
  | .fwUpdate _ _ _ _ _ | .fwUpdateDone => true
  | .echo h _ data => decide (data.length ≤ 16 * h.length.toNat)
  | .nop _ _ | .repeatVector _ | .loopBegin _ | .loopEnd _ | .loopExit _ | .jump _ | .call _ | .ret _ | .jumpFail _
  | .jumpPass _ | .jumpTimeout _ | .clrFail _ | .matchVector _ | .matchEnd _ | .apgLoad _ | .apgOp _ | .signal _
  | .checkpoint _ | .haltOpcode _ | .illegalOpcode _ | .stagingFetchDone _ _ _ | .holdResume _ | .holdTimeout _
  | .owlFactorApply _ | .refclkLoss | .refclkPresent | .clockRevert | .tcompUpdate | .ageUpdate _ => true
  | .pinCfg path _ _ => path.writes
  | .pinModeDone _ _ => true
  | .pinPmuCfg path _ _ => path.writes
  | .driverOvercurrent _ | .pmuCompliance _ | .pmuComplianceEnd _ | .comparatorTransition _ _ _ => true
  | .dpsCfg path _ _ => path.writes
  | .dpsLevel path _ _ => path.writes
  | .dpsSlewUpdate _ | .dpsCurrentLimit _ | .dpsCompliance _ | .dpsLimitClear _ | .dpsOpenLoad _ | .dpsSenseOpen _
  | .dpsSenseRestore _ | .boosterFault _ | .dpsNcoUpdate _ => true
  | .dpsNcoFreq path _ _ => path.writes
  | .dpsNcoPhase path _ _ => path.writes
  | .dpsPowerWindow power current => power.length == 16 && current.length == 16
  | .dpsCapRelease _ => true
  | .dpsStatus path _ _ => path.writes
  | .awgStart _ | .awgSegmentEnd _ => true
  | .stopAwg path _ => path.writes
  | .stopAcq path _ => path.writes
  | .aptNcoFreq path _ _ => path.writes
  | .aptNcoPhase path _ _ => path.writes
  | .acqStart _ | .analogTrigger _ _ _ _ | .triggerHoldoffEnd _ | .recordComplete _ _ | .acqPostEnd _ _
  | .analogBlockComplete _ _ | .analogBlockCopy _ _ => true
  | .aptHostRd path _ _ => path.writes
  | .captureWindowEnd _ | .captureBlockTimeout _ | .captureBlockCopy _ _ => true
  | .rdgCapHostRd path _ _ => path.writes
  | .anchor _ | .packetAdmission _ | .staleTimer _ | .drainStart _ _ | .drainDone _ | .queueHeadWrite _ _
  | .doorbell _ _ => true
  | .packetFetch _ pkt _ => pkt.sized
  | .sqEnable _ _ | .sqResume _ _ | .cqEnable _ _ | .cqHeadWrite _ _ | .pendingNoticeWrite _ | .cqIrqTimer _
  | .dmaWriteError _ _ | .timedWriteApply => true
  | .registerWrite path loc _ => (match loc with | .param _ => path.writes | .bar0 _ | .config _ => path == .window)
  | .replay path _ => path.writes
  | .reclaim path _ => path.writes
  | .linkFrameResend _ | .linkDown _ | .linkRestored _ => true
  | .ringPacketArrival _ _ load => (match load with | .packet _ _ _ pkt => pkt.sized | .dma _ _ => true)
  | .ringReplyArrival _ _ _ _ | .enumStart | .enumRetry => true
  | .enumToken _ count _ _ entries => decide (1 ≤ count.toNat) && decide (count.toNat ≤ 128) && entries.length == count.toNat
  | .cairnFrameSend | .cairnFrameReceive _ _ _ | .cairnLoad _ | .cairnRelaunch | .cairnMissed => true
  | .discoveryPulse _ output => decide (output.toNat ≤ 1)
  | .echoPulse _ | .echoTurnaround | .echoReturn _ _ _ | .ringEventReceive _ _ => true
  | .bgTrackEcho e => decide (e.hops.length ≤ 128) && decide (e.dly.length ≤ 128)
  | .cspWrite _ f => f.data.length == f.cm1.toNat + 1
  | .cspWriteApply _ => true
  | .cspRead _ f => f.data == []
  | .cspStatus _ f => f.data == []
  | .xipMiss _ | .xipLineFill _ => true
  | .porRelease _ fuses => fuses.xoTcomp.length == 12
  | .foxRelease | .sfdpRead _ _ _ _ | .firmwareVerify _ | .patchLoad _ | .pcieLinkUp | .powerupCalDone => true
  | .hbmTrainingDone slotsOk => slotsOk.length == 3
  | .rsiApply _ _ | .foxWatchdog | .tempConversion _ _ | .sensorRecover _ | .owlGraceExpiry | .owlRelease
  | .thermalShutdown _ | .supplyResetFault _ | .supplyDip _ | .suspectWindowEnd _ | .monitorRelease _
  | .monitorTimeout _ => true
  | .pmonGate counts => counts.length == 20
  | .eventDelivery _ => true
  | .glbEvtFire path _ => path.writes
  | .bgCal _ _ _ | .parkWaitExpiry | .quietPeriodEnd | .recoveryComplete => true
  | .hostReset path _ => (match path with | some p => p.writes | none => true)
  | .reset path _ => path.writes
  | .ridgeResetRelease _ | .hbmTrainingLoss | .multiplierLockLoss | .fatalSourceDeasserts _ | .porNAssert
  | .badCmdFrame _ _ => true

end Sys2Proof
end

