-- ==== Sys2Proof/Machine/Step.lean ====
section
/-! DEFINITION. One step of the block: the command at the front of the queue, else a command that Badger has taken, else one
tick of the base clock (log entry 1). -/

namespace Sys2Proof.Machine

/-- Take the command at the front of the queue and run it with the queue's rest; a term that is no command faults. On an empty
queue Badger runs the oldest command it has taken, and else a tick passes. -/
def step (s : State) : Host.Outcome State Fault Refusal :=
  match s.pending with
  | c :: rest => if c.wellFormed then exec c { s with pending := rest } else .fault .illFormed
  | [] =>
    match s.link.inbox with
    | c :: cs => exec c { s with link := { s.link with inbox := cs } }
    | [] => done s (clockTick s)

/-- The state with the command that a word spells at the front of its queue. -/
def State.withFetchWord (s : State) (nbits w : Nat) : State :=
  match decodeTableWord nbits w with
  | some c => { s with pending := c :: s.pending }
  | none => s

end Sys2Proof.Machine
end

