-- ==== Sys2Proof/Safety.lean ====
section
/-! DEFINITION. What counts as a safe state and a safe run: the standing conditions that the spec holds over every command. -/

namespace Sys2Proof.Machine

/-- The comparator is evaluated: its newest entry is a state (R36, R137). -/
def Pin.evaluated (x : Pin) : Bool := match x.hist with | (_, some _) :: _ => true | _ => false

/-- R131: while a cause of the SAFE condition holds on a ridge, the driver of each of its pins is at high-Z, its mode is 0, its
pull is connected, and its comparator is not evaluated. -/
def PinsSafe (s : State) : Prop :=
  ∀ p : PinId, pinSafe s (pinRidge p) = true → s.pins[p].drv = .hiz ∧ s.pins[p].mode = 0 ∧ s.pins[p].pull = true ∧ s.pins[p].evaluated = false

/-- R162, R332, R346, R371: while a cause holds, the supply is in OFF with the discharge path connected. -/
def SuppliesOff (s : State) : Prop := ∀ n : RidgeId, dpsForcedOff s n = true → s.dps[n].out = .off ∧ s.dps[n].disch = true

/-- A safe state. -/
def SafeState (s : State) : Prop := PinsSafe s ∧ SuppliesOff s

/-- The state that a command leaves, by its effect: the standing conditions in force, and the waiting commands as they were. -/
def after (s u : State) : State := { settle u with pending := s.pending }

/-- Neither the safe state nor a thermal shutdown holds. -/
abbrev Live (s : State) : Prop := bearSafe s = false ∧ s.owl.shutdown = false

/-- Badger takes the packet, no injection on Badger waits for it, the checks on its header pass, and no long command holds what
it names (R274, R280, R286, R390). -/
abbrev Admitted (s : State) (h : Hdr) (w : Row) (need : List Need) : Prop :=
  canTake s h = true ∧ injectOn s 28 = none ∧ admission s h w = none ∧ heldByLong s need = false

/-- A step is safe when it answers a safe next state. -/
def SafeStep (s : State) : Prop := ∃ t, step s = .next t ∧ SafeState t

/-- The sparse stores of the state are in canonical form: host memory, the parameter map, the queues and the images. -/
def Canonical (s : State) : Prop :=
  Memory.wf s.host ∧ swf resetWord s.params = true ∧ swf qDflt s.queues = true ∧ swf imgDflt s.store.images = true

/-- R10: a pin belongs to at most one site. -/
def SitesDisjoint (s : State) : Prop := ∀ j k : Fin 64, j ≠ k → s.sites[j] &&& s.sites[k] = 0#256

/-- The standing invariant of the block. -/
def Inv (s : State) : Prop := SafeState s ∧ Canonical s ∧ SitesDisjoint s

/-! ### The command packets and the register rows -/

/-- The row of Table 11-9 of a command packet, with its header: opcode, length without launch word, ridge column, the T and MC
marks, and whether the ROM baseline and the loader serve it. -/
def packetRow : Instr → Option (Hdr × Row)
  | .identify h _ => some (h, ⟨0x01, 2, .none, false, false, true, true⟩)
  | .paramWrite h _ _ => some (h, ⟨0x02, 2, .none, true, true, true, false⟩)
  | .paramRead (.packet h) _ _ _ => some (h, ⟨0x03, 2, .none, false, false, true, false⟩)
  | .paramWriteMulti h n _ => some (h, ⟨0x04, 2 + cdiv n.toNat 2, .none, true, true, true, false⟩)
  | .saveState h => some (h, ⟨0x08, 1, .none, false, false, true, false⟩)
  | .restoreState h _ _ => some (h, ⟨0x09, 2, .none, false, false, true, false⟩)
  | .segLoad h _ _ => some (h, ⟨0x10, 2, .none, false, false, true, false⟩)
  | .segRelease h _ => some (h, ⟨0x11, 2, .none, false, false, true, false⟩)
  | .segPin h _ => some (h, ⟨0x12, 2, .named, false, false, true, false⟩)
  | .segUnpin h _ => some (h, ⟨0x13, 2, .named, false, false, true, false⟩)
  | .progBind h _ _ _ d _ => some (h, ⟨0x14, 2 + cdiv d.toNat 4, .named, false, false, true, false⟩)
  | .timingWrite h _ _ n _ => some (h, ⟨0x18, 2 + 33 * n.toNat, .named, false, false, true, false⟩)
  | .timingSwap h => some (h, ⟨0x19, 1, .either, false, true, true, false⟩)
  | .launch h _ _ _ _ => some (h, ⟨0x20, 2, .none, true, true, true, false⟩)
  | .halt h _ _ _ _ => some (h, ⟨0x21, 2, .none, true, true, true, false⟩)
  | .eventJumpArm h _ _ _ => some (h, ⟨0x22, 2, .named, false, false, true, false⟩)
  | .measure h _ _ _ _ _ => some (h, ⟨0x28, 2, .none, true, false, true, false⟩)
  | .timeMeasure h _ _ _ _ _ _ _ => some (h, ⟨0x29, 2, .none, true, false, true, false⟩)
  | .captureArm h _ _ _ _ _ _ _ _ => some (h, ⟨0x2A, 3, .either, false, false, true, false⟩)
  | .acqArm h _ _ _ _ _ _ _ _ _ _ => some (h, ⟨0x2B, 3, .named, true, false, true, false⟩)
  | .queueConfig h _ _ _ _ _ _ _ _ _ => some (h, ⟨0x30, 3, .none, false, false, true, false⟩)
  | .queueFlush h _ _ => some (h, ⟨0x31, 2, .none, false, false, true, false⟩)
  | .eventRoute h _ _ _ => some (h, ⟨0x38, 2, .none, false, true, true, false⟩)
  | .siteMap h _ _ _ => some (h, ⟨0x40, 4, .none, false, true, true, false⟩)
  | .calRun h _ => some (h, ⟨0x48, 2, .either, false, false, true, false⟩)
  | .faultRead h _ => some (h, ⟨0x50, 2, .none, false, false, true, false⟩)
  | .faultClear h _ => some (h, ⟨0x51, 2, .none, false, false, true, false⟩)
  | .faultInject h _ _ => some (h, ⟨0x52, 2, .none, false, false, false, false⟩)
  | .ringEnum h _ => some (h, ⟨0x58, 2, .none, false, false, true, false⟩)
  | .syncCal h _ => some (h, ⟨0x59, 2, .none, false, false, false, false⟩)
  | .fwUpdate h _ _ _ _ => some (h, ⟨0x60, 2, .none, false, false, true, true⟩)
  | .echo h _ _ => some (h, ⟨0x7F, echoUnits h, .none, false, false, true, true⟩)
  | _ => none

/-- The rows that write one parameter word: the path, the index and the value written. -/
def regRow : Instr → Option (Path × Nat × Word)
  | .paramWrite h i v => some (.packet h, i.toNat % 8192, v)
  | .registerWrite p (.param i) v => some (p, i.toNat, v)
  | .pinCfg p x v => some (p, pinW x 0, v)
  | .pinPmuCfg p x v => some (p, pinW x 11, v)
  | .dpsCfg p n v => some (p, dpsW n 0, v)
  | .dpsLevel p n v => some (p, dpsW n 1, v)
  | .dpsNcoFreq p n v => some (p, dpsW n 9, v)
  | .dpsNcoPhase p n v => some (p, dpsW n 10, v)
  | .dpsStatus p n v => some (p, dpsW n 13, v)
  | .stopAwg p n => some (p, aptW n 13, 1)
  | .stopAcq p n => some (p, aptW n 13, 2)
  | .aptNcoFreq p n v => some (p, aptW n 4, v)
  | .aptNcoPhase p n v => some (p, aptW n 5, v)
  | .aptHostRd p n v => some (p, aptW n 16, v)
  | .rdgCapHostRd p r v => some (p, rdgW r 0x20, v)
  | .replay p v => some (p, gMARTENCFG, v)
  | .reclaim p v => some (p, 0x18C2, v)
  | .glbEvtFire p v => some (p, 0x1915, v)
  | .reset p r => some (p, rdgW r 0x30, 1)
  | .hostReset (some p) _ => some (p, 0x1948, 1)
  | _ => none

/-! ### Vectors -/

/-- The state as a vector sees it: the windows of the gang that have closed are judged, the records that are due are written, and
the FAIL flag is noted (R49, R204). -/
def seen (s : State) (r : RidgeId) : State :=
  let s := dueAnchor (each (running s r) judge s) r s.ridges[r].start
  modR s r fun x => { x with failSeen := failFlag s r }

/-- The sequencer of ridge r executes vector v now, and no injection on the ridge meets it (R33, R57, R59, R100). -/
abbrev Executes (s : State) (r : RidgeId) (v : Vec) : Prop :=
  vecReady s r = true ∧ vecAt s r = some v ∧ injectOn s (Fin.castLE (by decide) r) = none

/-- The FAIL flag as the vector sees it (R49). -/
def flagSeen (s : State) (r : RidgeId) : Bool := (seen s r).ridges[r].failSeen

/-- A vector of one period: the state after its drivers, compares and record (R31, R100). -/
def onePeriod (s : State) (r : RidgeId) (v : Vec) : State := vectorPeriod (seen s r) r v false

/-! ### What commands write -/

/-- The components that few commands write. -/
inductive Comp where
  | now | ticks | boot | flash | working | sites | routes | cal | sensors | smons | pmons | owl | cairn | csps | xip
  deriving DecidableEq, Repr

/-- A component is the same in two states. -/
def Comp.same (k : Comp) (s t : State) : Prop :=
  match k with
  | .now => t.now = s.now
  | .ticks => t.ticks = s.ticks
  | .boot => t.boot = s.boot
  | .flash => t.flash = s.flash
  | .working => t.working = s.working
  | .sites => t.sites = s.sites
  | .routes => t.events.routes = s.events.routes
  | .cal => t.cal = s.cal
  | .sensors => t.sensors = s.sensors
  | .smons => t.smons = s.smons
  | .pmons => t.pmons = s.pmons
  | .owl => t.owl = s.owl
  | .cairn => t.cairn = s.cairn
  | .csps => t.csps = s.csps
  | .xip => t.xip = s.xip

/-- What a write of any parameter word may reach: it may be HOST_RESET (R389), which leaves the AON island and the flash. -/
def anyWord : List Comp := [.now, .boot, .working, .sites, .cal, .cairn, .csps, .xip]

/-- The quiet components that a command of the table may write; every other command writes none of them. -/
def footprint : Instr → List Comp
  | .paramWrite _ _ _ | .paramWriteMulti _ _ _ | .registerWrite _ _ _ | .hostReset _ _ | .timedWriteApply | .cspWriteApply _
  | .quietPeriodEnd => anyWord
  | .pinCfg _ _ _ | .pinPmuCfg _ _ _ | .dpsCfg _ _ _ | .dpsLevel _ _ _ | .dpsNcoFreq _ _ _ | .dpsNcoPhase _ _ _ | .dpsStatus _ _ _
  | .stopAwg _ _ | .stopAcq _ _ | .aptNcoFreq _ _ _ | .aptNcoPhase _ _ _ | .aptHostRd _ _ _ | .rdgCapHostRd _ _ _ | .replay _ _
  | .reclaim _ _ | .glbEvtFire _ _ | .reset _ _ | .cspWrite _ _ | .cspRead _ _ | .cspStatus _ _ | .badCmdFrame _ _ => [.csps]
  | .saveState _ => [.flash, .working, .xip, .csps]
  | .saveStateDone _ => [.flash]
  | .restoreState _ _ _ | .rsiApply _ _ => [.boot, .working, .sites, .routes, .cal, .cairn, .csps]
  | .siteMap _ _ _ _ => [.sites]
  | .eventRoute _ _ _ _ => [.routes]
  | .calRun _ _ | .bgCal _ _ _ => [.cal]
  | .calRunDone _ => [.cal, .working]
  | .fwUpdate _ _ _ _ _ => [.flash, .xip, .csps]
  | .fwUpdateDone | .firmwareVerify _ | .patchLoad _ => [.flash, .boot]
  | .xipMiss _ | .xipLineFill _ => [.xip, .csps]
  | .paramRead _ _ _ _ => [.csps]
  | .porRelease _ _ => [.boot, .cairn]
  | .foxRelease | .pcieLinkUp | .powerupCalDone | .refclkLoss | .refclkPresent | .clockRevert | .tcompUpdate => [.boot]
  | .sfdpRead _ _ _ _ => [.boot, .xip, .csps]
  | .foxWatchdog => [.boot, .xip]
  | .hbmTrainingDone _ => [.boot, .flash, .working]
  | .tempConversion _ _ | .sensorRecover _ => [.sensors, .owl]
  | .owlGraceExpiry | .owlRelease | .thermalShutdown _ => [.owl]
  | .supplyResetFault _ | .supplyDip _ | .suspectWindowEnd _ | .monitorTimeout _ => [.smons]
  | .monitorRelease _ => [.smons, .sensors]
  | .pmonGate _ => [.pmons]
  | .syncCal _ _ | .syncCalDone _ _ | .cairnFrameSend | .cairnFrameReceive _ _ _ | .cairnRelaunch | .cairnMissed | .discoveryPulse _ _
  | .echoPulse _ | .echoTurnaround | .echoReturn _ _ _ | .bgTrackEcho _ => [.cairn]
  | .cairnLoad _ => [.now, .cairn]
  | .porNAssert => [.now, .boot, .working, .sites, .routes, .cal, .sensors, .smons, .pmons, .owl, .cairn, .csps, .xip]
  | _ => []

end Sys2Proof.Machine
end

