-- ==== Sys2Proof/Certificates/Slice0/Obligations.lean ====
section
/-! DEFINITION. The statements about the 7264 for the provers. -/

open Sys2Proof Sys2Proof.Machine

/-- A step runs the command at the front of the queue (Ordering inside Badger, log entry 1). For every well-formed command c
and every state, a step with c at the front of the queue is exec of c on the state with the queue's rest; a term that is no
command of the table faults by name (the model's choice). -/
def Obligations.StepRunsFrontCommand : Prop :=
  (∀ (c : Instr) (rest : List Instr) (s : State), s.pending = c :: rest → c.wellFormed = true →
    step s = exec c { s with pending := rest }) ∧
  (∀ (c : Instr) (rest : List Instr) (s : State), s.pending = c :: rest → c.wellFormed = false →
    step s = .fault .illFormed)

/-- On an empty queue Badger runs the oldest command it has taken, and else a tick passes (R12, R22, Ordering inside Badger,
log entry 1). With nothing pending, the step runs the oldest command that Badger has fetched; with none fetched, one tick of
the base clock passes: T64 advances by 1,024 fine units and the timers' tick count by one, and where no ridge runs, no
stream is armed, no port plays or acquires and no ring frame waits for its acknowledgement, nothing else moves; while POR_N
is low the T64 counter stands. That the tick is the step of an empty queue is the model's choice, log entry 1. -/
def Obligations.StepOnEmptyQueue : Prop :=
  (∀ (s : State) (c : Instr) (cs : List Instr), s.pending = [] → s.link.inbox = c :: cs →
    step s = exec c { s with link := { s.link with inbox := cs } }) ∧
  (∀ s : State, s.pending = [] → s.link.inbox = [] → s.boot.por = false →
    ∃ t, step s = .next t ∧ t.now = s.now + 1024 ∧ t.ticks = s.ticks + 1 ∧ t.sites = s.sites ∧ t.flash = s.flash ∧
      t.owl = s.owl ∧ t.pending = []) ∧
  (∀ s : State, s.pending = [] → s.link.inbox = [] → s.boot.por = false →
    (∀ r : RidgeId, s.ridges[r].st ≠ .running ∧ s.ridges[r].stream = none ∧ s.ports[r].awg = none ∧ s.ports[r].acq = none) →
    s.ring.outbox = [] → step s = .next (after s { s with now := s.now + 1024, ticks := s.ticks + 1 })) ∧
  (∀ s : State, s.pending = [] → s.link.inbox = [] → s.boot.por = true →
    step s = .next (after s { s with ticks := s.ticks + 1 }))

/-- Every command ends in a safe next state and leaves the queue of waiting commands alone (R131, R162, R346, R371, Table
15-2). For every command and every state, exec answers a next state, with the queue of waiting commands as it was, in which
every pin of a ridge with a cause of the SAFE condition is at high-Z, in mode 0, with its pull connected and not evaluated,
and every supply with a cause to be off is in OFF with its discharge path connected. No command stops the block. -/
def Obligations.EveryCommandAnswers : Prop :=
  ∀ (c : Instr) (s : State), ∃ t, exec c s = .next t ∧ t.pending = s.pending ∧ SafeState t

/-- Every step keeps the standing invariant (R10, R131, R162, R288, R346, R353, R371). From every state in which pins and
supplies with a cause are safe, the sparse stores are in canonical form and every pin belongs to at most one site, each step
that answers a next state gives a state in which all of this holds again. -/
def Obligations.InvariantKept : Prop :=
  ∀ s t : State, Inv s → step s = .next t → Inv t

/-- The state after reset meets the standing invariant (R10, R131, R162). In the state after reset every pin is safe, every
supply off, the sparse stores are canonical and no pin belongs to a site. -/
def Obligations.ResetInvariant : Prop :=
  Inv State.reset

/-- What reset leaves (R42, R82, R131, R162, R252, R360, R364, R424, Table 2-4, Table 14-1). After reset the boot is at
STAGE 0 with POR_N low, every sequencer is UNBOUND with a quota of 192 slots, every pin is at high-Z in mode 0 with its pull
connected, every DPS is OFF with its discharge path connected, no site, route, ticket, image or enabled queue exists, every
submission and completion ring is disabled, every supply monitor and sensor is asserted, and no fault is latched or logged.
-/
def Obligations.ResetLeaves : Prop :=
  State.reset.boot.stage = 0 ∧ State.reset.boot.por = true ∧
  (∀ r : RidgeId, State.reset.ridges[r].st = .unbound ∧ word State.reset (rdgW r 0x10) = 192) ∧
  (∀ p : PinId, State.reset.pins[p].drv = .hiz ∧ State.reset.pins[p].mode = 0 ∧ State.reset.pins[p].pull = true) ∧
  (∀ n : RidgeId, State.reset.dps[n].out = .off ∧ State.reset.dps[n].disch = true) ∧ (∀ k : Fin 64, State.reset.sites[k] = 0#256) ∧
  (∀ k : Fin 256, State.reset.events.routes[k] = 0#64) ∧ State.reset.tickets = [] ∧ State.reset.store.images = [] ∧
  (∀ q : Nat, (getQ State.reset q).enabled = false) ∧
  (∀ k : Fin 64, State.reset.sq[k].enabled = false ∧ State.reset.cq[k].enabled = false) ∧
  (∀ m : Fin 12, State.reset.smons[m].released = false) ∧ (∀ k : Fin 24, State.reset.sensors[k].released = false) ∧
  State.reset.bear.latch = 0 ∧ State.reset.bear.log = [] ∧ State.reset.bear.state = .normal ∧ State.reset.pending = []

/-- Each command writes only the quiet components of its footprint (R23, R288, R364, Table 17-5). The T64 counter, the
timers, the boot state, the flash, the retained working copy, the site map, the event routes, the calibration, the sensors,
the supply and process monitors, Owl, Cairn, the slave ports and the execute-in-place window are each written only by the
commands whose footprint names them; every other command leaves them as they were. -/
def Obligations.Footprints : Prop :=
  ∀ (c : Instr) (k : Comp) (s t : State), k ∉ footprint c → exec c s = .next t → k.same s t

/-- A packet that Badger does not take has no effect (R19, R286, R339, R371, R385). For every command packet: before STAGE 6
(outside loader mode, or in it on a ring other than 0), in the safe state, after a thermal shutdown, and while a long
command of the packet's own ring is unanswered, Badger takes no packet, and the packet changes nothing beyond the standing
conditions. -/
def Obligations.PacketsNotTaken : Prop :=
  ∀ (c : Instr) (h : Hdr) (w : Row) (s : State), packetRow c = some (h, w) → canTake s h = false →
    exec c s = .next (after s s)

/-- Each command packet is refused by the first failing check of its row (R280, R282, R283, R286, Table 11-6, Table 11-9,
R338, R339). For every command packet with its row of Table 11-9: when Badger takes it, no injection waits on Badger, and a
header check fails (MULTICAST, loader mode, ROM baseline, ridge column, LENGTH, launch word, LATE), the packet is refused
with that check's status and bytes 4-7, and nothing else happens. A MULTICAST packet of an unmarked opcode is refused
BAD_TARGET; in loader mode an opcode that the loader does not serve NOT_IN_BASELINE with 1, under the ROM baseline
FAULT_INJECT and SYNC_CAL NOT_IN_BASELINE with 0; an opcode without a ridge that names one BAD_TARGET; a wrong LENGTH
BAD_LENGTH with the right one in bytes 4-7; a launch word on an untimed opcode BAD_PARAM; a named time nearer than the
horizon, without ASAP, LATE. -/
def Obligations.AdmissionRefusals : Prop :=
  (∀ (c : Instr) (h : Hdr) (w : Row) (s : State) (st info : Nat), packetRow c = some (h, w) → s.boot.por = false →
    canTake s h = true → injectOn s 28 = none → admission s h w = some (st, info) →
    exec c s = .next (after s (refuse (ensureTaken s h w.op) h w.op st info))) ∧
  (∀ (s : State) (h : Hdr) (w : Row), h.multicast = true → w.mc = false → admission s h w = some (BAD_TARGET, 0)) ∧
  (∀ (s : State) (h : Hdr) (w : Row), h.multicast = false → s.boot.stage = 7 → w.loader = false →
    admission s h w = some (NOT_IN_BASELINE, 1)) ∧
  (∀ (s : State) (h : Hdr) (w : Row), h.multicast = false → s.boot.stage = 6 → s.boot.mode = .baseline → w.baseline = false →
    admission s h w = some (NOT_IN_BASELINE, 0)) ∧
  (∀ (s : State) (h : Hdr) (w : Row), h.multicast = false → s.boot.stage = 6 → s.boot.mode = .normal → w.ridge = .none →
    h.ridge ≠ 0xF#4 → admission s h w = some (BAD_TARGET, 0)) ∧
  (∀ (s : State) (h : Hdr) (w : Row), h.multicast = false → s.boot.stage = 6 → s.boot.mode = .normal →
    (w.ridge = .none → h.ridge = 0xF#4) → h.launchAt = none → h.length.toNat ≠ w.units →
    admission s h w = some (BAD_LENGTH, w.units)) ∧
  (∀ (s : State) (h : Hdr) (w : Row) (t : T64), h.multicast = false → s.boot.stage = 6 → s.boot.mode = .normal →
    (w.ridge = .none → h.ridge = 0xF#4) → h.launchAt = some t → h.length.toNat = w.units + 1 → w.timed = false →
    admission s h w = some (BAD_PARAM, 0)) ∧
  (∀ (s : State) (h : Hdr) (w : Row) (t : T64), h.multicast = false → h.asap = false → s.boot.stage = 6 → s.boot.mode = .normal →
    (w.ridge = .none → h.ridge = 0xF#4) → h.launchAt = some t → h.length.toNat = w.units + 1 → w.timed = true →
    timeDiff t s.now < 30000 * 1024 → admission s h w = some (LATE, 0))

/-- An injection on Badger ends the next packet with INTERNAL (R390, Table 16-3). For every command packet that Badger takes
while an injection on BADGER waits: one access of the injection is used, the contained fault is logged as injected, and the
packet is refused with INTERNAL, whose bytes 4-7 are a free value; the packet has no effect of its own. -/
def Obligations.InjectedPackets : Prop :=
  ∀ (c : Instr) (h : Hdr) (w : Row) (s : State) (d : Bool), packetRow c = some (h, w) → s.boot.por = false →
    canTake s h = true → injectOn s 28 = some d →
    let u := logFault (useInject (ensureTaken s h w.op) 28) ⟨28, 0, .contained, 0, 0, none, true, false⟩ 0 0
    exec c s = .next (after s (refuse (tickFree u) h w.op INTERNAL (Config.microAddress u.free).toNat))

/-- A packet that names what a long command holds is refused with BUSY (R286, Table 11-9). While a long command in progress
holds the handle, the queue, the ridges, the flash or the Dectik link that a packet names, and the header checks pass,
SEG_LOAD, SEG_RELEASE, SEG_PIN, SEG_UNPIN, QUEUE_CONFIG, QUEUE_FLUSH, MEASURE, SAVE_STATE, RESTORE_STATE, FW_UPDATE,
RING_ENUM, SYNC_CAL and CAL_RUN are refused with BUSY and change nothing else. -/
def Obligations.LongCommandsHold : Prop :=
  ∀ (c : Instr) (h : Hdr) (w : Row) (need : List Need) (s : State), packetRow c = some (h, w) →
    (match c with
      | .segLoad _ k _ | .segRelease _ k => need = [.handle (h20 k).toNat]
      | .segPin h k | .segUnpin h k => need = [.handle (h20 k).toNat, .ridge (hdrRidge h)]
      | .queueConfig _ q _ _ _ _ _ _ _ _ | .queueFlush _ q _ => need = [.queue (q.toNat % 16384)]
      | .measure _ _ _ _ _ q => need = [.queue (q.toNat % 16384)]
      | .saveState _ | .restoreState _ _ _ | .fwUpdate _ _ _ _ _ => need = [.flash]
      | .ringEnum _ _ | .syncCal _ _ => need = [.dectik]
      | .calRun h _ => need = (hdrRidges h).map .ridge
      | _ => False) →
    canTake s h = true → injectOn s 28 = none → admission s h w = none → heldByLong s need = true →
    exec c s = .next (after s (refuse (ensureTaken s h w.op) h w.op BUSY 0))

/-- A register write acts on its word on every path that carries it (R7, R285, R287, R290, R327, R385, R407, Table 0-4). For
every row that writes one parameter word (paramWrite, registerWrite of a word, pinCfg, pinPmuCfg, dpsCfg, dpsLevel,
dpsNcoFreq, dpsNcoPhase, dpsStatus, stopAwg, stopAcq, aptNcoFreq, aptNcoPhase, aptHostRd, rdgCapHostRd, replay, reclaim,
glbEvtFire, reset, hostReset by register), with its path, index and value. By the window: a word that the window does not
take now changes nothing; a write of what a long command holds changes only GLB_WIN_ERR, with BUSY; an accepted write has
the word's effect, and waiting replies that it completes are given; a refused one changes only GLB_WIN_ERR. By an admitted
packet without launch word: an accepted write has the word's effect and the reply follows when its effects are complete;
HOST_RESET leaves nothing to answer; a refused one gets its status. By a slave port: the effect, or REFUSED and nothing
else, as for a word that a long command holds. It says when these rows complete: PARAM_WRITE, REGISTER_WRITE, PIN_CFG,
PIN_PMU_CFG, DPS_CFG, DPS_LEVEL, DPS_NCO_FREQ, DPS_NCO_PHASE, DPS_STATUS, STOP_AWG, STOP_ACQ, APT_NCO_FREQ, APT_NCO_PHASE,
APT_HOST_RD, RDG_CAP_HOST_RD, REPLAY, RECLAIM, GLB_EVT_FIRE, RESET, HOST_RESET. -/
def Obligations.RegisterRows : Prop :=
  (∀ (c : Instr) (i : Nat) (v : Word) (s : State), regRow c = some (.window, i, v) →
    (windowTakes s i = false → exec c s = .next (after s s)) ∧
    (windowTakes s i = true → heldByLong s (wordNeed i) = true →
      exec c s = .next (after s (putWord s gWINERR (i % 8192 + BUSY * 2 ^ 16 + 2 ^ 31)))) ∧
    (windowTakes s i = true → heldByLong s (wordNeed i) = false → writeRefusal s i v.toNat = none →
      exec c s = .next (after s (serveWaits (writeEffect s i v.toNat)))) ∧
    (∀ st, windowTakes s i = true → heldByLong s (wordNeed i) = false → writeRefusal s i v.toNat = some st →
      exec c s = .next (after s (putWord s gWINERR (i % 8192 + st * 2 ^ 16 + 2 ^ 31))))) ∧
  (∀ (c : Instr) (h : Hdr) (i : Nat) (v : Word) (s : State), regRow c = some (.packet h, i, v) → h.launchAt = none →
    Admitted s h ⟨0x02, 2, .none, true, true, true, false⟩ (wordNeed i) →
    let u := ensureTaken s h 0x02
    (writeRefusal u i v.toNat = none → isHostReset u (i, v.toNat) = false →
      exec c s = .next (after s (doneWhen (writeEffect u i v.toNat) h 0x02 (waitsFor i)
        (changedWords u (writeEffect u i v.toNat))))) ∧
    (writeRefusal u i v.toNat = none → isHostReset u (i, v.toNat) = true →
      exec c s = .next (after s (writeEffect u i v.toNat))) ∧
    (∀ st, writeRefusal u i v.toNat = some st → exec c s = .next (after s (refuse u h 0x02 st 0)))) ∧
  (∀ (c : Instr) (n : Fin 2) (i : Nat) (v : Word) (s : State), regRow c = some (.slave n, i, v) →
    (windowTakes s i = false → exec c s = .next (after s s)) ∧
    (windowTakes s i = true → heldByLong s (wordNeed i) = false → writeRefusal s i v.toNat = none →
      exec c s = .next (after s (serveWaits (writeEffect s i v.toNat)))) ∧
    (windowTakes s i = true → (heldByLong s (wordNeed i) = true ∨ ∃ st, writeRefusal s i v.toNat = some st) →
      exec c s = .next (after s (slaveRefused s n))))

/-- Why a register write is refused (R7, R82, R285, R406, R407, Table 0-4). A reserved index is refused with BAD_PARAM; an
RW or RWL value outside its range with BAD_PARAM; an RWL word of a pin, ridge or DPS whose ridge is ARMED, RUNNING, HOLD or
PARKED with BUSY; an RO, RC or W1C word is never refused, and a write to an RO or RC word has no effect; a slot quota that
makes the sum of the sixteen exceed 3,072, or that lies below the ridge's binding requirement and pins, with BAD_PARAM. -/
def Obligations.WriteRefusals : Prop :=
  (∀ (s : State) (i v : Nat), wordInfo i = none → writeRefusal s i v = some BAD_PARAM) ∧
  (∀ (s : State) (i v : Nat) (w : WordInfo), wordInfo i = some w → (w.access = .rw ∨ w.access = .rwl) →
    staticOk i (v &&& w.mask) = false → writeRefusal s i v = some BAD_PARAM) ∧
  (∀ (s : State) (p : PinId) (k v : Nat) (w : WordInfo), k < 16 → wordInfo (pinW p k) = some w → w.access = .rwl →
    staticOk (pinW p k) (v &&& w.mask) = true → runs s (pinRidge p) = true → writeRefusal s (pinW p k) v = some BUSY) ∧
  (∀ (s : State) (r : RidgeId) (k v : Nat) (w : WordInfo), k < 64 → wordInfo (rdgW r k) = some w → w.access = .rwl →
    staticOk (rdgW r k) (v &&& w.mask) = true → runs s r = true → writeRefusal s (rdgW r k) v = some BUSY) ∧
  (∀ (s : State) (n : RidgeId) (k v : Nat) (w : WordInfo), k < 32 → wordInfo (dpsW n k) = some w → w.access = .rwl →
    staticOk (dpsW n k) (v &&& w.mask) = true → runs s n = true → writeRefusal s (dpsW n k) v = some BUSY) ∧
  (∀ (s : State) (i v : Nat) (w : WordInfo), wordInfo i = some w → (w.access = .ro ∨ w.access = .rc) →
    writeRefusal s i v = none ∧ writeEffect s i v = s) ∧
  (∀ (s : State) (i v : Nat) (w : WordInfo), wordInfo i = some w → w.access = .w1c → writeRefusal s i v = none) ∧
  (∀ (s : State) (r : RidgeId) (v : Nat), v ≤ 3072 → runs s r = false →
    3072 < (allRidges.map fun q => if q = r then v else quota s q).sum → writeRefusal s (rdgW r 0x10) v = some BAD_PARAM) ∧
  (∀ (s : State) (r : RidgeId) (v : Nat), v ≤ 3072 → runs s r = false → v < requirement s r + s.ridges[r].pins.length →
    writeRefusal s (rdgW r 0x10) v = some BAD_PARAM)

/-- A written pin level replaces the word, reads back, and changes nothing else but its pin's status (R6, R7, R139, R142,
R143, Table 0-4, Table 5-13). For every pin, every level word 1 to 10 and every value that is not refused, in a state in
canonical form with no injection on PARAM waiting: after the write the word reads as the value's low 16 bits, every other
word but the same pin's PIN_STATUS reads as before, and nothing in the state but the parameter map has changed. -/
def Obligations.PinLevelsReadBack : Prop :=
  ∀ (s : State) (p : PinId) (w : Nat) (v : Word), 1 ≤ w → w ≤ 10 → writeRefusal s (pinW p w) v.toNat = none →
    Canonical s → injectOn s 26 = none →
    let t := writeEffect s (pinW p w) v.toNat
    readValue t (pinW p w) = v.toNat % 65536 ∧ (∀ i, i ≠ pinW p w → i ≠ pinW p 15 → word t i = word s i) ∧
      t = { s with params := t.params }

/-- What an accepted PIN_CFG and PIN_PMU_CFG write does (R129, R130, R148, R226, Table 5-8, Table 5-13). With the parameter
map in canonical form and no injection on PARAM: a PIN_CFG write that keeps the mode stores the word and, unless a change is
in progress or a cause of SAFE holds, connects the pull in mode 0 and else as PULL says; one that changes it disconnects the
driver at once, ends the comparator's evaluation, sets the pull as PULL says when it leaves SAFE, and starts the change
sequence. A PIN_PMU_CFG write that turns FORCE on resets the level to 0 and the clamps to 0xF0001000, one that turns it off
resets them to 0x4000 and 0x7FFF8001, and one that keeps FORCE and the range keeps both words. -/
def Obligations.PinRegisterWrites : Prop :=
  (∀ (s : State) (p : PinId) (v : Nat), injectOn s 26 = none → v % 4 = field s (pinW p 0) 1 0 →
    writeEffect s (pinW p 0) v = pullAsSet (putWord s (pinW p 0) (v &&& 0xFF)) p) ∧
  (∀ (s : State) (p : PinId) (v : Nat), Canonical s → injectOn s 26 = none → v % 4 = field s (pinW p 0) 1 0 →
    s.pins[p].changing = false → pinSafe s (pinRidge p) = false →
    (writeEffect s (pinW p 0) v).pins[p] = { s.pins[p] with pull := s.pins[p].mode = 0 || bit v 7 }) ∧
  (∀ (s : State) (p : PinId) (v : Nat), Canonical s → injectOn s 26 = none → v % 4 ≠ field s (pinW p 0) 1 0 →
    let t := writeEffect s (pinW p 0) v
    word t (pinW p 0) = (v &&& 0xFF) ∧ t.pins[p].drv = .hiz ∧ t.pins[p].mode = 0 ∧ t.pins[p].changing = true ∧
      t.pins[p].evaluated = false ∧ t.pins[p].hist.tail ⊆ s.pins[p].hist ∧
      t.pins[p].pull = (if field s (pinW p 0) 1 0 = 0 then bit v 7 else s.pins[p].pull) ∧
      ∀ q : PinId, q ≠ p → t.pins[q] = s.pins[q]) ∧
  (∀ (s : State) (p : PinId) (v : Nat), Canonical s → injectOn s 26 = none → isSet s (pinW p 11) 0 = false → v % 2 = 1 →
    let t := writeEffect s (pinW p 11) v
    word t (pinW p 11) = (v &&& 0xF) ∧ word t (pinW p 12) = 0 ∧ word t (pinW p 13) = 0xF0001000 ∧ t.pins = s.pins) ∧
  (∀ (s : State) (p : PinId) (v : Nat), Canonical s → injectOn s 26 = none → isSet s (pinW p 11) 0 = true → v % 2 = 0 →
    let t := writeEffect s (pinW p 11) v
    word t (pinW p 11) = (v &&& 0xF) ∧ word t (pinW p 12) = 0x4000 ∧ word t (pinW p 13) = 0x7FFF8001 ∧ t.pins = s.pins) ∧
  (∀ (s : State) (p : PinId) (v : Nat), Canonical s → injectOn s 26 = none → v % 16 = field s (pinW p 11) 3 0 →
    let t := writeEffect s (pinW p 11) v
    word t (pinW p 12) = word s (pinW p 12) ∧ word t (pinW p 13) = word s (pinW p 13) ∧ t.pins = s.pins)

/-- What an accepted write of a DPS register does (R151, R155, R156, R157, R164, R170, Table 6-6, Table 15-2). With the
parameter map in canonical form, no injection on PARAM, no FAULT_HELD and no cause that keeps the supply off: DPS_CFG in FV
from OFF connects at 0 V once monitor 9 has released, with the discharge path off, then goes to DPS_LEVEL in one step, or
towards it when slewed; in OFF without slew it disconnects, with the discharge path as DISCH says, with slew it first slews
to 0; DPS_LEVEL moves a connected output in one step, or sets the target of the slew; DPS_NCO_FREQ and DPS_NCO_PHASE store
the word and reset the phase at the next update instant; clearing FAULT_HELD brings the output to DPS_CFG and DPS_LEVEL. -/
def Obligations.SupplyRegisterWrites : Prop :=
  (∀ (s : State) (n : RidgeId) (v : Nat), Canonical s → injectOn s 26 = none → dpsHeld s n = false → dpsForcedOff s n = false →
    s.dps[n].out = .off → v % 4 = 1 → bits v 4 2 = dpsRange s n → bit v 6 = dpsNcoEn s n → s.smons[9].released = true →
    let t := writeEffect s (dpsW n 0) v
    word t (dpsW n 0) = (v &&& 0x3FF) ∧ t.dps[n].out = .fv ∧ t.dps[n].target = (field s (dpsW n 1) 15 0 : Nat) ∧
      t.dps[n].level = (if bit v 5 then 0 else (field s (dpsW n 1) 15 0 : Nat)) ∧ t.dps[n].disch = false ∧
      ∀ m : RidgeId, m ≠ n → t.dps[m] = s.dps[m]) ∧
  (∀ (s : State) (n : RidgeId) (v : Nat), Canonical s → injectOn s 26 = none → dpsHeld s n = false → dpsForcedOff s n = false →
    v % 4 = 0 → bits v 4 2 = dpsRange s n → bit v 6 = dpsNcoEn s n → bit v 5 = false →
    let t := writeEffect s (dpsW n 0) v
    word t (dpsW n 0) = (v &&& 0x3FF) ∧ t.dps[n].out = .off ∧ t.dps[n].level = 0 ∧ t.dps[n].closing = false ∧
      t.dps[n].disch = bit v 9) ∧
  (∀ (s : State) (n : RidgeId) (v : Nat), Canonical s → injectOn s 26 = none → dpsHeld s n = false → dpsForcedOff s n = false →
    s.dps[n].out = .fv → s.dps[n].level ≠ 0 → v % 4 = 0 → bits v 4 2 = dpsRange s n → bit v 6 = dpsNcoEn s n →
    bit v 5 = true →
    let t := writeEffect s (dpsW n 0) v
    t.dps[n].out = .fv ∧ t.dps[n].closing = true ∧ t.dps[n].target = 0 ∧ t.dps[n].level = s.dps[n].level) ∧
  (∀ (s : State) (n : RidgeId) (v : Nat), Canonical s → injectOn s 26 = none → dpsHeld s n = false → dpsForcedOff s n = false →
    s.dps[n].out = .fv → s.dps[n].closing = false → dpsMode s n = 1 → v < 65536 →
    let t := writeEffect s (dpsW n 1) v
    word t (dpsW n 1) = v ∧ t.dps[n].target = (v : Int) ∧
      t.dps[n].level = (if dpsSlewEn s n then s.dps[n].level else (v : Int)) ∧ t.dps[n].out = .fv) ∧
  (∀ (s : State) (n : RidgeId) (k : Nat) (v : Word), injectOn s 26 = none → (k = 9 ∨ k = 10) →
    writeEffect s (dpsW n k) v.toNat = modDps (putWord s (dpsW n k) v.toNat) n fun x => { x with phaseReset := true }) ∧
  (∀ (s : State) (n : RidgeId) (v : Nat), bit v 9 = true →
    writeEffect s (dpsW n 13) v = dpsApply (clrBits s (dpsW n 13) (v &&& 0x3B5)) n) ∧
  (∀ (s : State) (n : RidgeId) (v : Nat), bit v 9 = false →
    writeEffect s (dpsW n 13) v = clrBits s (dpsW n 13) (v &&& 0x3B5))

/-- What an accepted write of the port, capture, Marten, event and reset registers does (R186, R188, R189, R200, R240, R243,
R248, R365, R389, R404, Table 7-6, Table 9-7). STOP_AWG ends playback and its references; STOP_ACQ stops the acquisition;
APT_NCO_FREQ and APT_NCO_PHASE store the word and load the phase at the next sample instant; APT_HOST_RD and RDG_CAP_HOST_RD
store the host's read count; GLB_MARTEN_CFG is stored; leaving replay mode returns the frames that await RECLAIM, as RECLAIM
does, entering it sets the allocation pointer to 0, and in replay mode or without LEND_EN no slot stays lent; GLB_EVT_FIRE
raises event 0xF0 plus its low four bits; RDG_ISLAND_CTRL.RESET resets the ridge island; GLB_FAULT_CTRL.HOST_RESET is a host
reset with the straps as sampled. -/
def Obligations.PortAndGlobalWrites : Prop :=
  (∀ (s : State) (n : RidgeId), let t := writeEffect s (aptW n 13) 1
    t.ports[n].awg = none ∧ t.ports[n].awgAt = none ∧ t.ports[n].acq = s.ports[n].acq ∧ t = stopAwg s n) ∧
  (∀ (s : State) (n : RidgeId), writeEffect s (aptW n 13) 2 = stopAcq s n) ∧
  (∀ (s : State) (n : RidgeId) (k : Nat) (v : Word), Canonical s → injectOn s 26 = none → (k = 4 ∨ k = 5) →
    let t := writeEffect s (aptW n k) v.toNat
    word t (aptW n k) = v.toNat ∧ t.ports[n].phase = BitVec.ofNat 32 (word t (aptW n 5)) ∧
      t.ports[n].phaseAt = sampleAfter s n false s.now ∧ t.ports[n].awg = s.ports[n].awg) ∧
  (∀ (s : State) (n : RidgeId) (v : Word), injectOn s 26 = none →
    writeEffect s (aptW n 16) v.toNat = putWord s (aptW n 16) v.toNat) ∧
  (∀ (s : State) (r : RidgeId) (v : Word), injectOn s 26 = none →
    writeEffect s (rdgW r 0x20) v.toNat = putWord s (rdgW r 0x20) v.toNat) ∧
  (∀ (s : State) (v : Nat), Canonical s → injectOn s 26 = none → let t := writeEffect s gMARTENCFG v
    word t gMARTENCFG = (v &&& 3) ∧ t.store.awaiting = (if replayMode s ∧ v % 2 = 0 then [] else s.store.awaiting) ∧
      t.store.ptr = (if replayMode s = false ∧ v % 2 = 1 then 0 else s.store.ptr) ∧
      (v % 2 = 1 ∨ v / 2 % 2 = 0 → ∀ r : RidgeId, t.ridges[r].lent = [] ∧ t.ridges[r].lentDue = [])) ∧
  (∀ (s : State) (v : Nat), v % 2 = 1 → writeEffect s 0x18C2 v = reclaimFrames s) ∧
  (∀ (s : State) (v : Nat), writeEffect s 0x1915 v = raise s (0xF0 + v % 16) 0) ∧
  (∀ (s : State) (r : RidgeId), writeEffect s (rdgW r 0x30) 1 = resetRidge s r) ∧
  (∀ s : State, writeEffect s 0x1948 1 = hostReset s s.boot.straps)

/-- PARAM_READ on each of its paths (R7, R8, R290, R328, R329, R408, Table 11-10). An admitted PARAM_READ packet whose COUNT
is 0 or above 256, whose address is not 4-aligned, or whose last word lies above 0x19FF is refused with BAD_PARAM; any other
reads COUNT consecutive words in order, sends them to host memory and is DONE with the byte count. A window read returns the
word as the window serves it; a read of BAR0 or of the configuration space returns what stands there; a slave read on a port
in slave role its words in order, but before STAGE 6, for other words than GLB_ID and GLB_STATUS, and less than 2 µs after a
WRITE, no data, with NOT_READY; while POR_N is low no path reads anything. It says when this row completes: PARAM_READ. -/
def Obligations.ParamReads : Prop :=
  (∀ (s : State) (h : Hdr) (first count : BitVec 16) (addr : BitVec 64), s.boot.por = false →
    Admitted s h ⟨0x03, 2, .none, false, false, true, false⟩ [] →
    (count.toNat = 0 ∨ 256 < count.toNat ∨ addr.toNat % 4 ≠ 0 ∨ 0x1A00 < first.toNat % 8192 + count.toNat →
      exec (.paramRead (.packet h) first count addr) s =
        .next (after s (refuse (ensureTaken s h 0x03) h 0x03 BAD_PARAM 0))) ∧
    (1 ≤ count.toNat → count.toNat ≤ 256 → addr.toNat % 4 = 0 → first.toNat % 8192 + count.toNat ≤ 0x1A00 →
      let r := readWords (1 + h.ring.val) count.toNat (first.toNat % 8192) (ensureTaken s h 0x03)
      exec (.paramRead (.packet h) first count addr) s =
        .next (after s (dataReply r.2 h 0x03 addr.toNat (r.1.flatMap fun w => leBytes 4 w.toNat))))) ∧
  (∀ (s : State) (h : Hdr) (op addr : Nat) (data : List Byte), viaSummit s = false →
    dataReply s h op addr data = replyDone { s with host := hostPut s.host addr data } h op data.length) ∧
  (∀ (n : Nat) (k i : Nat) (s : State), (readWords k n i s).1.length = n) ∧
  (∀ (s : State) (first count : BitVec 16) (addr : BitVec 64), s.boot.por = false →
    let r := windowRead s 0 first.toNat
    exec (.paramRead .window first count addr) s =
      .next (after s { r.2 with link := { r.2.link with winRead := r.1 } })) ∧
  (∀ (s : State) (n : Fin 2) (first count : BitVec 16) (addr : BitVec 64), s.boot.por = false → isSet s (gCSPCFG n) 0 = true →
    tooSoon s n 0 = false → (booted s = true ∨ (gID ≤ first.toNat ∧ first.toNat + count.toNat ≤ gSTATUS + 1)) →
    let r := slaveWords n count.toNat first.toNat s
    exec (.paramRead (.slave n) first count addr) s =
      .next (after s { r.2 with link := { r.2.link with cspRead := r.1 } })) ∧
  (∀ (s : State) (n : Fin 2) (first count : BitVec 16) (addr : BitVec 64), s.boot.por = false → isSet s (gCSPCFG n) 0 = true →
    (tooSoon s n 0 = true ∨ (booted s = false ∧ ¬(gID ≤ first.toNat ∧ first.toNat + count.toNat ≤ gSTATUS + 1))) →
    ∃ t, exec (.paramRead (.slave n) first count addr) s = .next t ∧ t.csps[n].prev = 0x80 ∧ t.link.cspRead = []) ∧
  (∀ (s : State) (off : BitVec 21) (first count : BitVec 16) (addr : BitVec 64), s.boot.por = false →
    exec (.paramRead (.bar0 off) first count addr) s = .next (after s (bar0ReadEffect off.toNat s))) ∧
  (∀ (s : State) (off : BitVec 12) (first count : BitVec 16) (addr : BitVec 64), s.boot.por = false →
    exec (.paramRead (.config off) first count addr) s =
      .next (after s { s with link := { s.link with winRead := BitVec.ofNat 32 (configRead s off.toNat) } })) ∧
  (∀ (s : State) (p : Sys2Proof.Path) (first count : BitVec 16) (addr : BitVec 64), s.boot.por = true →
    exec (.paramRead p first count addr) s = .next (after s s))

/-- A read returns the old value, clears an RC word, and pairs the halves of a 64-bit counter (R7, R8, R401, R407, Table
0-4). With no snapshot held for it, a word reads as its value before the read; a reserved index and a WO word read as zero;
a read of a stored RC word leaves it at its reset value, with the map in canonical form; a read of a word that is neither RC
nor the low half of a counter changes nothing; a read of the low half holds the high half for the same path, whose next read
returns that held value whatever happened between, and uses it up. -/
def Obligations.ReadSemantics : Prop :=
  (∀ (s : State) (k i : Nat), (s.link.snaps.find? fun x => decide (x.1 = k ∧ x.2.1 = i)) = none →
    (readWord s k i).1 = BitVec.ofNat 32 (readValue s i)) ∧
  (∀ (s : State) (i : Nat), wordInfo i = none → readValue s i = 0) ∧
  (∀ (s : State) (i : Nat) (w : WordInfo), wordInfo i = some w → w.access = .wo → readValue s i = 0) ∧
  (∀ (s : State) (k i : Nat) (w : WordInfo), Canonical s → wordInfo i = some w → w.access = .rc → i ≠ 0x1917 → i ≠ 0x1951 →
    (s.link.snaps.find? fun x => decide (x.1 = k ∧ x.2.1 = i)) = none → word (readWord s k i).2 i = w.reset) ∧
  (∀ (s : State) (k i : Nat) (w : WordInfo), wordInfo i = some w → w.access ≠ .rc → isLow i = false →
    (s.link.snaps.find? fun x => decide (x.1 = k ∧ x.2.1 = i)) = none → (readWord s k i).2 = s) ∧
  (∀ (s t : State) (k i : Nat), isLow i = true → (s.link.snaps.find? fun x => decide (x.1 = k ∧ x.2.1 = i)) = none →
    t.link.snaps = (readWord s k i).2.link.snaps →
    (readWord t k (i + 1)).1 = BitVec.ofNat 32 (readValue s (i + 1)) ∧
      ((readWord t k (i + 1)).2.link.snaps.find? fun x => decide (x.1 = k ∧ x.2.1 = i + 1)) = none)

/-- PARAM_WRITE_MULTI applies every pair or none (R25, R287, R407, Table 11-8, Table 11-10). An admitted PARAM_WRITE_MULTI
without launch word whose COUNT is 0 or above 8,192 is refused with BAD_PARAM; when a pair is refused in the state that the
packet finds, the first such pair's status is the packet's, with its position in bytes 4-7 for BAD_PARAM and else 0, and
nothing takes effect; the same where every pair passes but one is refused after those before it (the model's reading, log
entry 20); otherwise every pair has taken effect in order before the reply. It says when this row completes:
PARAM_WRITE_MULTI. -/
def Obligations.MultiIsAtomic : Prop :=
  (∀ (s : State) (h : Hdr) (count : BitVec 16) (pairs : List (BitVec 16 × Word)), (count.toNat = 0 ∨ 8192 < count.toNat) →
    Admitted s h ⟨0x04, 2 + cdiv count.toNat 2, .none, true, true, true, false⟩
      (((pairs.take count.toNat).map fun p => (p.1.toNat % 8192, p.2.toNat)).flatMap fun x => wordNeed x.1) →
    exec (.paramWriteMulti h count pairs) s = .next (after s (refuse (ensureTaken s h 0x04) h 0x04 BAD_PARAM 0))) ∧
  (∀ (s : State) (h : Hdr) (count : BitVec 16) (pairs : List (BitVec 16 × Word)), 1 ≤ count.toNat → count.toNat ≤ 8192 →
    h.launchAt = none →
    let l := (pairs.take count.toNat).map fun p => (p.1.toNat % 8192, p.2.toNat)
    let u := ensureTaken s h 0x04
    Admitted s h ⟨0x04, 2 + cdiv count.toNat 2, .none, true, true, true, false⟩ (l.flatMap fun x => wordNeed x.1) →
    (∀ k st, firstRefused u 0 l = some (k, st) → exec (.paramWriteMulti h count pairs) s =
      .next (after s (refuse u h 0x04 st (if st = BAD_PARAM then k else 0)))) ∧
    (∀ k st, firstRefused u 0 l = none → (writeAll 0 l u).2 = some (k, st) → exec (.paramWriteMulti h count pairs) s =
      .next (after s (refuse u h 0x04 st (if st = BAD_PARAM then k else 0)))) ∧
    (firstRefused u 0 l = none → (writeAll 0 l u).2 = none → l.any (isHostReset u) = false →
      exec (.paramWriteMulti h count pairs) s = .next (after s (doneWhen (writeAll 0 l u).1 h 0x04
        (l.flatMap fun x => waitsFor x.1) (changedWords u (writeAll 0 l u).1))))) ∧
  (∀ (s : State) (l : List (Nat × Nat)) (k st : Nat), firstRefused s 0 l = some (k, st) →
    (∃ x, l[k]? = some x ∧ writeRefusal s x.1 x.2 = some st) ∧ ∀ j x, j < k → l[j]? = some x → writeRefusal s x.1 x.2 = none) ∧
  (∀ (i v : Nat) (l : List (Nat × Nat)) (k : Nat) (s : State) (st : Nat), writeRefusal s i v = some st →
    writeAll k ((i, v) :: l) s = (s, some (k, st))) ∧
  (∀ (i v : Nat) (l : List (Nat × Nat)) (k : Nat) (s : State), writeRefusal s i v = none →
    writeAll k ((i, v) :: l) s = writeAll (k + 1) l (writeEffect s i v))

/-- Timed writes: checked at taking, kept, applied at their instant or dropped (R282, R284, R285, Table 11-11). An admitted
timed PARAM_WRITE or PARAM_WRITE_MULTI with an index or value that its word does not admit is refused with BAD_PARAM at that
pair's position; one that would make more than 256 timed writes wait with BUSY; any other is ACCEPTED with its time and
kept, in order, with its apply instants. TIMED_WRITE_APPLY does nothing before the earliest instant, in the safe state and
after a thermal shutdown; at it, the earliest write leaves the queue and takes effect (an NCO word of an analog port from
its own instant on), or is dropped with its record in GLB_TIMED_ERR and event 0xDE. The earliest is one that no other
precedes, where all lie within 2^62 fine units of now. It says when these rows complete: PARAM_WRITE, PARAM_WRITE_MULTI,
TIMED_WRITE_APPLY. -/
def Obligations.TimedWrites : Prop :=
  (∀ (s : State) (h : Hdr) (i : BitVec 16) (v : Word) (t : T64), startTime s h s.now = some t →
    Admitted s h ⟨0x02, 2, .none, true, true, true, false⟩ (wordNeed (i.toNat % 8192)) →
    let u := ensureTaken s h 0x02
    let k := i.toNat % 8192
    (timedBad (k, v.toNat) = true → exec (.paramWrite h i v) s = .next (after s (refuse u h 0x02 BAD_PARAM 0))) ∧
    (timedBad (k, v.toNat) = false → 256 ≤ s.link.timed.length →
      exec (.paramWrite h i v) s = .next (after s (refuse u h 0x02 BUSY 0))) ∧
    (timedBad (k, v.toNat) = false → s.link.timed.length < 256 →
      exec (.paramWrite h i v) s = .next (after s (replyAccepted
        { u with link := { u.link with timed := u.link.timed ++ [⟨k, v, applyInstant u k v.toNat t⟩] } } h 0x02 0 t)))) ∧
  (∀ (s : State) (h : Hdr) (count : BitVec 16) (pairs : List (BitVec 16 × Word)) (t : T64), startTime s h s.now = some t →
    1 ≤ count.toNat → count.toNat ≤ 8192 →
    let l := (pairs.take count.toNat).map fun p => (p.1.toNat % 8192, p.2.toNat)
    let u := ensureTaken s h 0x04
    Admitted s h ⟨0x04, 2 + cdiv count.toNat 2, .none, true, true, true, false⟩ (l.flatMap fun x => wordNeed x.1) →
    (∀ k, l.findIdx? timedBad = some k →
      exec (.paramWriteMulti h count pairs) s = .next (after s (refuse u h 0x04 BAD_PARAM k))) ∧
    (l.findIdx? timedBad = none → 256 < s.link.timed.length + l.length →
      exec (.paramWriteMulti h count pairs) s = .next (after s (refuse u h 0x04 BUSY 0))) ∧
    (l.findIdx? timedBad = none → s.link.timed.length + l.length ≤ 256 →
      exec (.paramWriteMulti h count pairs) s = .next (after s (replyAccepted (l.foldl (addTimed t) u) h 0x04 0 t)))) ∧
  (∀ (s : State) (x : Nat × Nat) (t : T64), (addTimed t s x) = { s with link := { s.link with
    timed := s.link.timed ++ [⟨x.1, BitVec.ofNat 32 x.2, applyInstant s x.1 x.2 t⟩] } }) ∧
  (∀ s : State, s.link.timed = [] → exec .timedWriteApply s = .next (after s s)) ∧
  (∀ (s : State) (x : Timed), firstTimed s = some x → (reached s.now x.at_ = false ∨ bearSafe s = true ∨ s.owl.shutdown = true) →
    exec .timedWriteApply s = .next (after s s)) ∧
  (∀ (s : State) (x : Timed), firstTimed s = some x → reached s.now x.at_ = true → Live s →
    let u := { s with link := { s.link with timed := s.link.timed.erase x } }
    (writeRefusal u x.index x.value.toNat = none →
      exec .timedWriteApply s = .next (after s (timedPhase (writeEffect u x.index x.value.toNat) x))) ∧
    (∀ st, writeRefusal u x.index x.value.toNat = some st →
      exec .timedWriteApply s = .next (after s (dropTimed u x.index st)))) ∧
  (∀ (s : State) (x : Timed), firstTimed s = some x → (∀ y ∈ s.link.timed, (timeDiff y.at_ s.now).natAbs < 2 ^ 62) →
    x ∈ s.link.timed ∧ ∀ y ∈ s.link.timed, later x.at_ y.at_ = false)

/-- What the events of a pin do: modes, overcurrents, compliance and comparator transitions (R129, R130, R133, R137, R149,
R380, Table 5-13, R37, R136, R203, R208, R216). On a pin that is not safe: PIN_MODE_DONE while a change is in progress puts
the mode of PIN_CFG in force, connects the pull as the mode and PULL say, starts the comparator at its state at the pin's
voltage (in mode 0 it is not evaluated), and completes waiting replies. DRIVER_OVERCURRENT on a driving pin latches the
driver at high-Z and sets the status bit; a pin of a site costs that site its run as a contained fault, another raises event
0x40 plus its ridge; at high-Z nothing happens. PMU_COMPLIANCE in mode 2, not yet noted, sets the status bit, raises 0x50
plus the ridge and marks the running jobs of the pin; PMU_COMPLIANCE_END ends the condition. COMPARATOR_TRANSITION, at a
stamp of the present tick not before the last one: each threshold comparator switches outside half its hysteresis and keeps
its state inside, H is reported before L before M; another state is prepended to the pin's history, recorded by the ridge's
stream where it records the pin then, and seen by the TIMUs; the same state moves only the comparators. A stamp before the
last one, still to come or of another tick, and a comparator that is not evaluated: nothing. It says when these rows
complete: PIN_MODE_DONE, DRIVER_OVERCURRENT, PMU_COMPLIANCE, PMU_COMPLIANCE_END, COMPARATOR_TRANSITION. -/
def Obligations.PinEvents : Prop :=
  (∀ (s : State) (p : PinId) (v : Int), s.pins[p].changing = true → pinSafe s (pinRidge p) = false →
    let m := field s (pinW p 0) 1 0
    let x := compareAt s p v
    (m = 0 → exec (.pinModeDone p v) s = .next (after s (serveWaits (modPin s p fun y =>
      { y with mode := 0, changing := false, pull := true })))) ∧
    (m ≠ 0 → exec (.pinModeDone p v) s = .next (after s (serveWaits (modPin x.2 p fun y =>
      { y with mode := BitVec.ofNat 2 m, changing := false, pull := isSet s (pinW p 0) 7, hist := (s.now, some x.1) :: y.hist }))))) ∧
  (∀ (s : State) (p : PinId) (v : Int), (s.pins[p].changing = false ∨ pinSafe s (pinRidge p) = true) →
    exec (.pinModeDone p v) s = .next (after s s)) ∧
  (∀ (s : State) (p : PinId) (k : Fin 64), s.pins[p].drv ≠ .hiz → siteOf s p = some k →
    let u := setBits (modPin s p fun x => { x with drv := .hiz }) (pinW p 15) 16
    exec (.driverOvercurrent p) s = .next (after s
      (contained u ⟨Fin.castLE (by decide) (pinRidge p), 9, .contained, 3, k.val, some p.val, false, false⟩ (abortSite k)))) ∧
  (∀ (s : State) (p : PinId), s.pins[p].drv ≠ .hiz → siteOf s p = none →
    let u := setBits (modPin s p fun x => { x with drv := .hiz }) (pinW p 15) 16
    exec (.driverOvercurrent p) s = .next (after s (raise u (0x40 + (pinRidge p).val) p.val))) ∧
  (∀ (s : State) (p : PinId), s.pins[p].drv = .hiz → exec (.driverOvercurrent p) s = .next (after s s)) ∧
  (∀ (s : State) (p : PinId), s.pins[p].mode = 2#2 → s.pins[p].complyNow = false →
    let u := setBits (modPin s p fun x => { x with complyNow := true }) (pinW p 15) 1
    exec (.pmuCompliance p) s = .next (after s (markMeasures (raise u (0x50 + (pinRidge p).val) p.val) (selIsPin p)
      fun j => { j with comply := true }))) ∧
  (∀ (s : State) (p : PinId), (s.pins[p].mode ≠ 2#2 ∨ s.pins[p].complyNow = true) →
    exec (.pmuCompliance p) s = .next (after s s)) ∧
  (∀ (s : State) (p : PinId), exec (.pmuComplianceEnd p) s = .next (after s (modPin s p fun x => { x with complyNow := false }))) ∧
  (∀ (s : State) (p : PinId) (v : Int),
    let voh := levelOf (field s (pinW p 4) 15 0)
    let vol := levelOf (field s (pinW p 5) 15 0)
    let x := compareAt s p v
    (voh + halfHyst s p < v → x.1 = .high) ∧
    (v < voh - halfHyst s p → v < vol - halfHyst s p → x.1 = .low) ∧
    (v < voh - halfHyst s p → vol + halfHyst s p < v → x.1 = .mid) ∧
    (voh - halfHyst s p ≤ v → v ≤ voh + halfHyst s p → (x.1 = .high ↔ s.pins[p].aboveVoh = true)) ∧
    (v < voh - halfHyst s p → vol - halfHyst s p ≤ v → v ≤ vol + halfHyst s p → (x.1 = .low ↔ s.pins[p].belowVol = true)) ∧
    x.2 = modPin s p fun y => { y with aboveVoh := x.2.pins[p].aboveVoh, belowVol := x.2.pins[p].belowVol }) ∧
  (∀ (s : State) (p : PinId) (v : Int) (c0 : Cmp) (t t0 : T64) (l : List (T64 × Option Cmp)), s.pins[p].hist = (t0, some c0) :: l →
    later t0 t = false → reached s.now t = true → later t (s.now - 1024) = true →
    let x := compareAt s p v
    let u := modPin x.2 p fun y => { y with hist := (t, some x.1) :: y.hist }
    (x.1 = c0 → exec (.comparatorTransition p v t) s = .next (after s x.2)) ∧
    (x.1 ≠ c0 → records s p t = true → exec (.comparatorTransition p v t) s =
      .next (after s (timuSee (offer u (pinRidge p) t (pinLane p) x.1) p c0 x.1 t))) ∧
    (x.1 ≠ c0 → records s p t = false → exec (.comparatorTransition p v t) s = .next (after s (timuSee u p c0 x.1 t)))) ∧
  (∀ (s : State) (p : PinId) (v : Int) (t : T64), s.pins[p].evaluated = false →
    exec (.comparatorTransition p v t) s = .next (after s s)) ∧
  (∀ (s : State) (p : PinId) (v : Int) (c0 : Cmp) (t t0 : T64) (l : List (T64 × Option Cmp)), s.pins[p].hist = (t0, some c0) :: l →
    (later t0 t = true ∨ reached s.now t = false ∨ later t (s.now - 1024) = false) →
    exec (.comparatorTransition p v t) s = .next (after s s))

/-- What the events of a DPS channel do (R155, R156, R159, R160, R161, R163, R167, R173, Table 6-6). DPS_CURRENT_LIMIT in FV
and DPS_COMPLIANCE in FI, when not already noted, set their status bit, raise 0x60 or 0x70 plus the channel and mark the
running jobs of the channel; DPS_LIMIT_CLEAR ends both; DPS_OPEN_LOAD in FV with OPEN_EN sets the bit and raises 0x80 plus
the channel; DPS_SENSE_OPEN on a connected output regulates on FORCE, sets the bit and raises 0x90 plus the channel,
DPS_SENSE_RESTORE returns; BOOSTER_FAULT with the booster enabled disables it, applies the fault value and ends the ridge's
work; DPS_CAP_RELEASE below 90 % of the effective limit ends the cap. It says when these rows complete: DPS_CURRENT_LIMIT,
DPS_COMPLIANCE, DPS_LIMIT_CLEAR, DPS_OPEN_LOAD, DPS_SENSE_OPEN, DPS_SENSE_RESTORE, BOOSTER_FAULT, DPS_CAP_RELEASE. -/
def Obligations.SupplyEvents : Prop :=
  (∀ (s : State) (n : RidgeId), s.dps[n].out = .fv → s.dps[n].limitNow = false →
    let u := setBits (modDps s n fun x => { x with limitNow := true }) (dpsW n 13) 1
    exec (.dpsCurrentLimit n) s = .next (after s (markMeasures (raise u (0x60 + n.val) n.val) (selIsDps n)
      fun j => { j with comply := true }))) ∧
  (∀ (s : State) (n : RidgeId), (s.dps[n].out ≠ .fv ∨ s.dps[n].limitNow = true) →
    exec (.dpsCurrentLimit n) s = .next (after s s)) ∧
  (∀ (s : State) (n : RidgeId), s.dps[n].out = .fi → s.dps[n].complyNow = false →
    let u := setBits (modDps s n fun x => { x with complyNow := true }) (dpsW n 13) 4
    exec (.dpsCompliance n) s = .next (after s (markMeasures (raise u (0x70 + n.val) n.val) (selIsDps n)
      fun j => { j with comply := true }))) ∧
  (∀ (s : State) (n : RidgeId), (s.dps[n].out ≠ .fi ∨ s.dps[n].complyNow = true) →
    exec (.dpsCompliance n) s = .next (after s s)) ∧
  (∀ (s : State) (n : RidgeId),
    exec (.dpsLimitClear n) s = .next (after s (modDps s n fun x => { x with limitNow := false, complyNow := false }))) ∧
  (∀ (s : State) (n : RidgeId), s.dps[n].out = .fv → dpsOpt s n 7 = true →
    exec (.dpsOpenLoad n) s = .next (after s (raise (setBits s (dpsW n 13) 16) (0x80 + n.val) n.val))) ∧
  (∀ (s : State) (n : RidgeId), (s.dps[n].out ≠ .fv ∨ dpsOpt s n 7 = false) →
    exec (.dpsOpenLoad n) s = .next (after s s)) ∧
  (∀ (s : State) (n : RidgeId), s.dps[n].out ≠ .off → s.dps[n].internalSense = false →
    exec (.dpsSenseOpen n) s = .next (after s (raise
      (setBits (modDps s n fun x => { x with internalSense := true }) (dpsW n 13) 32) (0x90 + n.val) n.val))) ∧
  (∀ (s : State) (n : RidgeId), (s.dps[n].out = .off ∨ s.dps[n].internalSense = true) →
    exec (.dpsSenseOpen n) s = .next (after s s)) ∧
  (∀ (s : State) (n : RidgeId),
    exec (.dpsSenseRestore n) s = .next (after s (modDps s n fun x => { x with internalSense := false }))) ∧
  (∀ (s : State) (n : RidgeId), s.dps[n].boostEn = true → exec (.boosterFault n) s =
    .next (after s (parkCheck (ridgeFault (dpsFault (modDps s n fun x => { x with boostEn := false }) n) n 7 none false)))) ∧
  (∀ (s : State) (n : RidgeId), s.dps[n].boostEn = false → exec (.boosterFault n) s = .next (after s s)) ∧
  (∀ (s : State) (n : RidgeId) (e : Nat), s.dps[n].effLimit = some e → 10 * s.dps[n].current.natAbs < 9 * e →
    exec (.dpsCapRelease n) s = .next (after s (modDps s n fun x => { x with effLimit := none }))) ∧
  (∀ (s : State) (n : RidgeId), (∀ e, s.dps[n].effLimit = some e → 9 * e ≤ 10 * s.dps[n].current.natAbs) →
    exec (.dpsCapRelease n) s = .next (after s s))

/-- The slew limiter's steps and the sine's update instants (R155, R156, R168, R170, Table 6-6). DPS_SLEW_UPDATE on a
connected output off its target, once DPS_SLEW_RATE microseconds have passed since the last step, moves the forced value by
DPS_SLEW_STEP towards the target and not past it; at the target the event 0xA0 plus the channel is raised, and a slew that
ends a connection then puts the output in OFF, with the discharge path as DISCH says or FAULT_HELD asks; before that time,
at the target or in OFF nothing happens. DPS_NCO_UPDATE, once per update instant, a COARSE that is a multiple of 150, in FV
with the sine enabled and no FAULT_HELD, advances the phase by DPS_NCO_FREQ or loads DPS_NCO_PHASE, and the output is the
forced value plus amplitude times the table, held within 0 to 60,000 with the status bit set where it is cut. It says when
these rows complete: DPS_SLEW_UPDATE, DPS_NCO_UPDATE. -/
def Obligations.SupplySlewAndSine : Prop :=
  (∀ (s : State) (n : RidgeId), Canonical s → s.dps[n].out ≠ .off → s.dps[n].level ≠ s.dps[n].target → dpsForcedOff s n = false →
    usTicks (field s (dpsW n 5) 9 0) ≤ s.ticks - s.dps[n].slewAt →
    let x := s.dps[n]
    let d : Int := (field s (dpsW n 4) 12 0 : Nat)
    let v := if x.level < x.target then min x.target (x.level + d) else max x.target (x.level - d)
    ∃ t, exec (.dpsSlewUpdate n) s = .next t ∧
      (v ≠ x.target → t.dps[n].level = v ∧ t.dps[n].out = x.out ∧ t.dps[n].slewAt = x.slewAt + usTicks (field s (dpsW n 5) 9 0)) ∧
      (v = x.target → x.closing = false → t.dps[n].level = v ∧ t.dps[n].out = x.out) ∧
      (v = x.target → x.closing = true → t.dps[n].out = .off ∧ t.dps[n].level = 0 ∧ t.dps[n].disch = dpsDisch s n) ∧
      (∀ m : RidgeId, m ≠ n → dpsForcedOff s m = false → t.dps[m] = s.dps[m])) ∧
  (∀ (s : State) (n : RidgeId), (s.dps[n].out = .off ∨ s.dps[n].level = s.dps[n].target ∨
      s.ticks - s.dps[n].slewAt < usTicks (field s (dpsW n 5) 9 0)) →
    exec (.dpsSlewUpdate n) s = .next (after s s)) ∧
  (∀ (s : State) (n : RidgeId) (i : T64), coarse s.now % 150 = 0 → i = BitVec.ofNat 64 (coarse s.now * 1024) → s.dps[n].out = .fv →
    dpsNcoEn s n = true → dpsHeld s n = false → s.dps[n].ncoAt ≠ some i →
    let x := s.dps[n]
    let φ : Word := if x.phaseReset then BitVec.ofNat 32 (word s (dpsW n 10)) else x.phase + BitVec.ofNat 32 (word s (dpsW n 9))
    let a := field s (dpsW n 11) 12 0
    let v : Int := x.level * 32767 + a * sineTable (φ.toNat / 2 ^ 22)
    let w := clampI 0 (60000 * 32767) v
    let u := modDps s n fun x => { x with phase := φ, phaseReset := false, amp := a, volt := w, ncoAt := some i }
    exec (.dpsNcoUpdate n) s = .next (after s (if w = v then u else setBits u (dpsW n 13) 128))) ∧
  (∀ (s : State) (n : RidgeId) (i : T64), i = BitVec.ofNat 64 (coarse s.now * 1024) →
    (coarse s.now % 150 ≠ 0 ∨ s.dps[n].out ≠ .fv ∨ dpsNcoEn s n = false ∨ dpsHeld s n = true ∨ s.dps[n].ncoAt = some i) →
    exec (.dpsNcoUpdate n) s = .next (after s s))

/-- The window of dissipation and the cap at 12 W (R166, R171, R172). DPS_POWER_WINDOW records the measured dissipation and
current of each channel; a channel that is on in BOOST range counts 12 mW. Up to 12 W in all nothing else happens. Above it,
every channel whose output is on gets an effective limit of its share of the excess over 12 mW a channel, which rounding
leaves open to one code, its status bit is set, and event 0xD0 is raised. It says when this row completes: DPS_POWER_WINDOW.
-/
def Obligations.DissipationCap : Prop :=
  (∀ (s : State) (power current : List (BitVec 16)), ∃ t, exec (.dpsPowerWindow power current) s = .next t ∧
    ∀ n : RidgeId, t.dps[n].power = (if dpsBoosted s n then 12 else (power.getD n.val 0).toNat) ∧ t.dps[n].current = (current.getD n.val 0).toInt) ∧
  (∀ (s : State) (power current : List (BitVec 16)),
    (allRidges.map fun n => if dpsBoosted s n then 12 else (power.getD n.val 0).toNat).sum ≤ 12000 →
    ∃ t, exec (.dpsPowerWindow power current) s = .next t ∧ t.params = s.params ∧ t.events = s.events ∧
      ∀ n : RidgeId, dpsForcedOff s n = false → t.dps[n].effLimit = s.dps[n].effLimit) ∧
  (∀ (s : State) (power current : List (BitVec 16)) (n : RidgeId), Canonical s → dpsForcedOff s n = false →
    12000 < (allRidges.map fun m => if dpsBoosted s m then 12 else (power.getD m.val 0).toNat).sum → s.dps[n].out ≠ .off →
    let p := (allRidges.map fun m => if dpsBoosted s m then 12 else (power.getD m.val 0).toNat).sum
    let q := 12 * (allRidges.filter fun m => s.dps[m].out != .off).length
    let x := (12000 - q) * (current.getD n.val 0).toInt.natAbs
    ∃ t e, exec (.dpsPowerWindow power current) s = .next t ∧ t.dps[n].effLimit = some e ∧
      x / (p - q) ≤ e ∧ e ≤ x / (p - q) + 1 ∧ isSet t (dpsW n 13) 8 = true) ∧
  (∀ (s : State) (power current : List (BitVec 16)) (n : RidgeId), dpsForcedOff s n = false → s.dps[n].out = .off →
    ∃ t, exec (.dpsPowerWindow power current) s = .next t ∧ t.dps[n].effLimit = s.dps[n].effLimit)

/-- Playback starts at its sample instant and goes from image to image (R177, R180, R181, R182, R183, R184, R185, R187,
R381, Table 7-6). AWG_START at the armed instant begins the playback: the image of APT_AWG_SEG with its references, or the
sine for SOURCE 2, with the NCO's phase loaded; the samples due are put out; before that instant, unarmed, in the safe state
or after a thermal shutdown nothing happens. AWG_SEGMENT_END, once the pass's 8,192 samples are out, plays the image again
while BODY_SPAN asks, ends on a missing image or without NEXT, and else reads the successor, whose SECDED failure removes
it: playback goes on to an analog image that takes references or whose reference the port holds, with the port's references
renewed, and otherwise stops with the break bit of APT_STATUS and event 0xC0 plus the port. It says when these rows
complete: AWG_START, AWG_SEGMENT_END. -/
def Obligations.AwgPlayback : Prop :=
  (∀ (s : State) (n : RidgeId) (t : T64), s.ports[n].awgAt = some t → reached s.now t = true → Live s →
    let k : Handle := BitVec.ofNat 20 (word s (aptW n 1))
    let sine := field s (aptW n 0) 1 0 == 2
    let u := modPort s n fun p =>
      { p with awg := some ⟨sine, k, k, 0, t, p.awgRidge, if sine then [] else [k], t⟩, awgAt := none,
               phase := BitVec.ofNat 32 (word s (aptW n 5)), phaseAt := t }
    exec (.awgStart n) s = .next (after s (awgRun (renewRefs u n) n))) ∧
  (∀ (s : State) (n : RidgeId), (∀ t, s.ports[n].awgAt = some t → reached s.now t = false ∨ ¬Live s) →
    exec (.awgStart n) s = .next (after s s)) ∧
  (∀ (s : State) (n : RidgeId) (read : Secded) (a : Awg), s.ports[n].awg = some a → a.sine = false → Live s →
    reached s.now (a.segAt + samplesFu 8192) = true →
    let u := awgRun s n
    let next := a.segAt + samplesFu 8192
    (∀ i, getImg s a.cur = some i → a.played + 1 < i.span → exec (.awgSegmentEnd ⟨n, read⟩) s =
      .next (after s (awgRun (modPort u n fun p =>
        { p with awg := p.awg.map fun a => { a with played := a.played + 1, segAt := next } }) n))) ∧
    (getImg s a.cur = none → exec (.awgSegmentEnd ⟨n, read⟩) s = .next (after s (stopAwg u n))) ∧
    (∀ i, getImg s a.cur = some i → i.span ≤ a.played + 1 → i.next = noHandle →
      exec (.awgSegmentEnd ⟨n, read⟩) s = .next (after s (stopAwg u n))) ∧
    (∀ i, getImg s a.cur = some i → i.span ≤ a.played + 1 → i.next ≠ noHandle →
      exec (.awgSegmentEnd ⟨n, read⟩) s = .next (after s (awgRun (awgMove (awgRead u i.next read) n i.next next) n)))) ∧
  (∀ (s : State) (n : RidgeId) (a : Awg) (h : Handle) (t : T64), s.ports[n].awg = some a →
    (∀ j, getImg s h = some j → j.analog = true → (takesRef s h = true ∨ h ∈ a.refs) → awgMove s n h t = sweep (renewRefs
      (modPort s n fun p => { p with awg := some { a with cur := h, played := 0, segAt := t } }) n)) ∧
    ((∀ j, getImg s h = some j → j.analog = false ∨ (takesRef s h = false ∧ h ∉ a.refs)) →
      awgMove s n h t = raise (setBits (stopAwg s n) (aptW n 14) 16) (0xC0 + n.val) n.val)) ∧
  (∀ (s : State) (h : Handle) (j : Image), getImg s h = some j → awgRead s h .clean = s ∧
    awgRead s h .corrected = corrected s 20 0 false ∧ awgRead s h .failed = frameFault s j.frame id) ∧
  (∀ (s : State) (n : RidgeId) (read : Secded), (∀ a, s.ports[n].awg = some a →
      a.sine = true ∨ reached s.now (a.segAt + samplesFu 8192) = false ∨ ¬Live s) →
    exec (.awgSegmentEnd ⟨n, read⟩) s = .next (after s s))

/-- ACQ_ARM arms the digitizer, the AWG or both, and answers ACCEPTED with its ticket (R189, R190, R224, R282, Table 7-2,
Table 11-9). An admitted ACQ_ARM that a check of Table 7-2 refuses gets that status and bytes 4-7 and changes nothing else.
With none, and no injection on the ticket table or Marten's tables, DIG arms the acquisition at its start instant under the
next ticket, AWG arms playback at the same time, and the reply is ACCEPTED with the ticket, or 0xFFFFFFFF without DIG, and
the start time: the named one, else 20 µs after the packet is taken. It says when this row completes: ACQ_ARM. -/
def Obligations.AcquisitionArmed : Prop :=
  ∀ (s : State) (h : Hdr) (dig awg stream : Bool) (k : BitVec 16) (pre post : Word) (frames queue : BitVec 16) (buf : BitVec 64)
    (nb : Word),
    let a : AcqArgs := ⟨dig, awg, stream, k.toNat, pre.toNat, post.toNat, frames.toNat, queue.toNat % 16384, buf, nb.toNat⟩
    let n := hdrRidge h
    let u := ensureTaken s h 0x2B
    Admitted s h ⟨0x2B, 3, .named, true, false, true, false⟩ [.ridge n, .queue a.queue] →
    injectOn s 25 = none → injectOn s 29 = none →
    (∀ st info, acqRefusal u n a = some (st, info) →
      exec (.acqArm h dig awg stream k pre post frames queue buf nb) s = .next (after s (refuse u h 0x2B st info))) ∧
    (acqRefusal u n a = none →
      let t := (startTime s h s.now).getD (s.now + ticksFu 30000)
      let v := if dig then armAcq u h n a t else u
      let w := if awg then armAwg v n t false else v
      exec (.acqArm h dig awg stream k pre post frames queue buf nb) s =
        .next (after s (replyAccepted w h 0x2B (if dig then (nextTicket s).toNat else 0xFFFFFFFF) t)))

/-- An acquisition starts at its instant, and a qualifying sample is a trigger or is passed over (R178, R190, R191, R192,
R193, R194, R201, Table 7-3). ACQ_START at the start instant starts sampling. ANALOG_TRIGGER at a sample that has come, and
in STREAM mode lies in no complete block, marks an input out of range. With SOURCE 0 sample 0 is the trigger. With SOURCE 1
the first sample that reaches LEVEL in SLOPE's direction after one that armed the engine beyond the hysteresis, both past
the hold-off and before a stop, is a trigger at the interpolated instant, at most one sample period, 3,072 fine units, after
the sample before it; a crossing that is no trigger counts in APT_TRIG_MISSED; any other sample does nothing. With an event
source the first sample at or after the event's arrival is the trigger. TRIGGER_HOLDOFF_END arms the engine again when the
hold-off is over. It says when these rows complete: ACQ_START, ANALOG_TRIGGER, TRIGGER_HOLDOFF_END. -/
def Obligations.TriggerEngine : Prop :=
  (∀ (s : State) (n : RidgeId) (a : Acq), s.ports[n].acq = some a → a.started = false → a.ended = false →
    reached s.now a.startAt = true → Live s → exec (.acqStart n) s =
      .next (after s (modPort s n fun p => { p with acq := some { a with started := true } }))) ∧
  (∀ (s : State) (n : RidgeId), (∀ a, s.ports[n].acq = some a → a.started = true ∨ a.ended = true ∨
      reached s.now a.startAt = false ∨ ¬Live s) → exec (.acqStart n) s = .next (after s s)) ∧
  (∀ (s : State) (n : RidgeId) (a : Acq) (s0 s1 x : BitVec 16) (i arm : Nat), s.ports[n].acq = some a → a.started = true →
    (a.ended = false ∨ a.stream = false) → (a.stream = true → a.nextIndex ≤ i) → reached s.now (a.instant i) = true → Live s →
    let level := signed 16 (field s (aptW n 11) 15 0)
    let hyst : Int := field s (aptW n 11) 30 16
    let falling := isSet s (aptW n 10) 2
    let y0 := (adcCode s0).toInt
    let y1 := (adcCode s1).toInt
    let open_ := a.armed = true ∧ a.ended = false ∧ ∀ z, a.stopAt = some z → i < z
    let hit := triggers falling level hyst y0 y1 (adcCode x).toInt a.firstOk arm i
    let u := markRange s n [adcCode s0, adcCode s1]
    let c : Instr := .analogTrigger n s0 s1 ⟨i, arm, x⟩
    (trigSource s n = 0 → a.triggers = 0 → i = 0 → open_ → exec c s = .next (after s (acceptTrigger u n a a.startAt 0 false))) ∧
    (trigSource s n = 0 → ¬(a.triggers = 0 ∧ i = 0 ∧ open_) → exec c s = .next (after s u)) ∧
    (trigSource s n = 1 → open_ → hit = true → exec c s = .next (after s (acceptTrigger (tickFree u) n a
      (a.instant (i - 1) + BitVec.ofNat 64 (12 * crossQ u.free level y0 y1)) i true))) ∧
    (trigSource s n = 1 → ¬(open_ ∧ hit = true) → crosses falling level y0 y1 = true →
      exec c s = .next (after s (passOver u n i))) ∧
    (trigSource s n = 1 → ¬(open_ ∧ hit = true) → crosses falling level y0 y1 = false → exec c s = .next (after s u)) ∧
    (2 ≤ trigSource s n → open_ → a.firstOk ≤ i → a.eventAt.map a.indexAt = some i →
      exec c s = .next (after s (acceptTrigger u n a (a.instant i) i false))) ∧
    (2 ≤ trigSource s n → ¬(open_ ∧ a.firstOk ≤ i ∧ a.eventAt.map a.indexAt = some i) → exec c s = .next (after s u))) ∧
  (∀ (s : State) (n : RidgeId) (s0 s1 : BitVec 16) (p : TrigPlace), (∀ a, s.ports[n].acq = some a → a.started = false ∨
      (a.ended = true ∧ a.stream = true) ∨ reached s.now (a.instant p.index) = false ∨ ¬Live s ∨
      (a.stream = true ∧ p.index < a.nextIndex)) →
    exec (.analogTrigger n s0 s1 p) s = .next (after s s)) ∧
  (∀ (level hyst s0 s1 x : Int) (first arm i : Nat), triggers false level hyst s0 s1 x first arm i = true ↔
    first ≤ arm ∧ arm < i ∧ x ≤ level - hyst ∧ level ≤ s1 ∧ (arm + 1 = i → s0 = x) ∧ (arm + 1 ≠ i → s0 < level)) ∧
  (∀ (level hyst s0 s1 x : Int) (first arm i : Nat), triggers true level hyst s0 s1 x first arm i = true ↔
    first ≤ arm ∧ arm < i ∧ level + hyst ≤ x ∧ s1 ≤ level ∧ (arm + 1 = i → s0 = x) ∧ (arm + 1 ≠ i → level < s0)) ∧
  (∀ (falling : Bool) (level hyst s0 s1 x : Int) (first arm i free : Nat), 0 ≤ hyst →
    triggers falling level hyst s0 s1 x first arm i = true → 12 * crossQ free level s0 s1 ≤ 3072) ∧
  (∀ (s : State) (n : RidgeId) (a : Acq) (l : Nat), s.ports[n].acq = some a → a.holdFrom = some l → Live s →
    (if isSet s (aptW n 10) 3 then a.holdEvents = 0
      else reached s.now (a.instant (l + 1 + word s (aptW n 12))) = true) →
    exec (.triggerHoldoffEnd n) s =
      .next (after s (modPort s n fun p => { p with acq := some { a with armed := true, holdFrom := none } }))) ∧
  (∀ (s : State) (n : RidgeId), (∀ a l, s.ports[n].acq = some a → a.holdFrom = some l →
    ¬Live s ∨ if isSet s (aptW n 10) 3 then a.holdEvents ≠ 0
      else reached s.now (a.instant (l + 1 + word s (aptW n 12))) = false) →
    exec (.triggerHoldoffEnd n) s = .next (after s s))

/-- Records and stream blocks are formed of the samples the rules name (R178, R193, R195, R196, R197, R198, R199, Table
7-3). RECORD_COMPLETE with the samples from PRE before the trigger sample to POST after it, or to a stop, each with its two
low bits 0, cuts the decimated record into blocks of 8,192, of which only the last record's last carries LAST. ACQ_POST_END
with the rest of the POST count closes the stream's last block. ANALOG_BLOCK_COMPLETE with 8,192 output samples, or those up
to a stop, appends a stream block; a whole block that leaves the region no free one ends the acquisition with OVERFLOW. With
other samples, or before the last sample's instant, nothing happens. The decimated outputs of a list are its means over 2^k
consecutive samples. It says when these rows complete: RECORD_COMPLETE, ACQ_POST_END, ANALOG_BLOCK_COMPLETE. -/
def Obligations.AcquisitionBlocks : Prop :=
  (∀ (s : State) (n : RidgeId) (a : Acq) (i : Nat) (l : List (BitVec 16)), s.ports[n].acq = some a → a.trigIndex = some i →
    a.stream = false → a.ended = false → Live s →
    let d := 2 ^ a.decim
    let raw := l.map adcCode
    let pre := min a.pre (i / d)
    let first := (i / d - pre) * d
    let full := (i / d + a.post) * d
    let stop := match a.stopAt with | some x => min x full | none => full
    let out := outputs a.decim raw
    let last := decide (a.k ≤ a.records + 1) || a.stopAt.isSome
    let bs := recordBlocks a first (decide (pre < a.pre)) last raw (cdiv out.length 8192) 0 out
    l.length = stop - first → reached s.now (a.instant (stop - 1)) = true → bs ≠ [] →
    ∃ t b, exec (.recordComplete n l) s = .next t ∧ t.ports[n].acq = some b ∧ b.blocks = a.blocks ++ bs ∧
      b.nextBlock = a.nextBlock + bs.length ∧ b.records = a.records + 1 ∧ b.trigIndex = none ∧ b.ended = last ∧
      t.tickets = s.tickets ∧ t.queues = s.queues ∧ t.host = s.host) ∧
  (∀ (s : State) (n : RidgeId) (a : Acq) (p : Nat) (l : List (BitVec 16)), s.ports[n].acq = some a → a.postLeft = some p →
    a.stream = true → a.started = true → a.ended = false → p ≤ 8192 → l.length = p * 2 ^ a.decim →
    (∀ x, a.stopAt = some x → a.nextIndex + l.length ≤ x) →
    reached s.now (a.instant (a.nextIndex + l.length - 1)) = true → Live s →
    exec (.acqPostEnd n l) s = .next (after s (streamBlock s n a (l.map adcCode) true))) ∧
  (∀ (s : State) (n : RidgeId) (a : Acq) (l : List (BitVec 16)), s.ports[n].acq = some a → a.stream = true →
    a.started = true → a.ended = false → Live s →
    let full := 8192 * 2 ^ a.decim
    let raw := l.map adcCode
    let len := match a.stopAt with | some x => min full (x - a.nextIndex) | none => full
    (∀ p, a.postLeft = some p → 8192 < p ∨ len < p * 2 ^ a.decim) → l.length = len →
    reached s.now (a.instant (a.nextIndex + len - 1)) = true →
    (outputs a.decim raw ≠ [] → exec (.analogBlockComplete n l) s =
      .next (after s (streamBlock s n a raw (decide (a.stopAt = some (a.nextIndex + len)))))) ∧
    (outputs a.decim raw = [] → exec (.analogBlockComplete n l) s = .next (after s (finishEmpty s n a)))) ∧
  (∀ (s : State) (n : RidgeId) (a : Acq) (raw : List (BitVec 16)) (ends : Bool), s.ports[n].acq = some a →
    ∃ b c, (streamBlock s n a raw ends).ports[n].acq = some c ∧ c.blocks = a.blocks ++ [b] ∧ b.number = a.nextBlock ∧
      b.samples = outputs a.decim raw ∧ b.last = (ends || b.overflow) ∧
      b.overflow = decide (a.frames.length ≤ a.blocks.length + 1 ∧ 8192 ≤ b.samples.length) ∧
      c.ended = b.last ∧ c.nextIndex = a.nextIndex + raw.length) ∧
  (∀ (s : State) (n : RidgeId) (l : List (BitVec 16)), (∀ a, s.ports[n].acq = some a → a.ended = true ∨ a.started = false ∨ ¬Live s) →
    exec (.analogBlockComplete n l) s = .next (after s s) ∧ exec (.acqPostEnd n l) s = .next (after s s)) ∧
  (∀ (k : Nat) (l : List (BitVec 16)), (outputs k l).length = l.length / 2 ^ k) ∧
  (∀ l : List (BitVec 16), outputs 0 l = l)

/-- The oldest analog block not yet copied goes to the host buffer and its packet is produced (R200, R201, R245, R372, R381,
Table 7-3). With no injection on the HBM PHY, a route for DMA and room in the host buffer, ANALOG_BLOCK_COPY writes the
samples of the oldest block not yet copied at its place in the buffer, counts it, and produces its packet, which carries the
ticket's end with the last block; a corrected HBM error is logged first. An uncorrectable HBM error retires the frame and
ends the ticket instead. Without route or room, or with no block, nothing happens. The block leaves the region when its
packet is admitted, at once where its queue has storage and none waits before it, and else the packet waits. It says when
this row completes: ANALOG_BLOCK_COPY. -/
def Obligations.AnalogBlockCopy : Prop :=
  (∀ (s : State) (n : RidgeId) (a : Acq) (b : AcqBlock) (bs : List AcqBlock), injectOn s 22 = none → nextAcq s.ports[n] = some a →
    a.blocks.drop a.copied = b :: bs → dmaRoute s = true → hostRoom b.number (a.rdAt.getD (word s (aptW n 16))) a.nb = true →
    let go := fun (u : State) =>
      let mark := fun (x : Acq) => if x.ticket = a.ticket then { x with copied := x.copied + 1 } else x
      let v := dmaWrite u (a.buf.toNat + b.number % a.nb * 16384) (b.samples.flatMap fun x => leBytes 2 x.toNat)
      let w := modPort v n fun p => { p with delivered := p.delivered + (if a.rdAt.isNone then 1 else 0),
                                             acq := p.acq.map mark, tails := p.tails.map mark }
      submitBlock w a.queue.toNat ⟨4, blockPacket w a b, some a.ticket, b.last, none⟩
    exec (.analogBlockCopy n .clean) s = .next (after s (go s)) ∧
      exec (.analogBlockCopy n .corrected) s = .next (after s (go (corrected s 20 0 false))) ∧
      exec (.analogBlockCopy n .failed) s = .next (after s
        (regionFault s (a.frames.getD (b.number % max 1 a.frames.length) 0) a.ticket))) ∧
  (∀ (s : State) (n : RidgeId) (read : Secded), (∀ a b bs, nextAcq s.ports[n] = some a → a.blocks.drop a.copied = b :: bs →
      dmaRoute s = false ∨ hostRoom b.number (a.rdAt.getD (word s (aptW n 16))) a.nb = false) →
    exec (.analogBlockCopy n read) s = .next (after s s)) ∧
  (∀ (s : State) (id : Nat) (w : WaitPkt), (getQ s id).waiting = [] → admits s id w.payload.length = true →
    submitBlock s id w = admitPkt s id w) ∧
  (∀ (s : State) (id : Nat) (w : WaitPkt), ((getQ s id).waiting ≠ [] ∨ admits s id w.payload.length = false) →
    submitBlock s id w = submitPkt s id w)

/-- A new ticket takes the lowest number above the last issued that is not in flight, wrapping (R224). While fewer than
131,072 tickets are in flight, the next ticket's number is not the number of one in flight, and every number between the one
issued last and it, counting up and wrapping from 131,071 to 0, is in flight; with none in flight the first number after
reset is 0. -/
def Obligations.TicketNumbers : Prop :=
  (∀ s : State, s.tickets.length < 131072 → ∀ t ∈ s.tickets, t.num ≠ nextTicket s) ∧
  (∀ s : State, s.tickets.length < 131072 → ∀ j : Nat, j < (nextTicket s - s.lastTicket - 1#17).toNat →
    ∃ t ∈ s.tickets, t.num = s.lastTicket + 1#17 + BitVec.ofNat 17 j) ∧
  nextTicket State.reset = 0

/-- MEASURE is refused by its checks, or answered ACCEPTED under the next ticket (R220, R224, R231, R232, R233, R234, R282,
Table 11-9). An admitted MEASURE with a bad selector, pin mode, queue or converter is refused with BAD_PARAM, with every
ticket in flight with TICKETS_EXHAUSTED. With no injection on the ticket table or Marten's tables: an untimed one is issued
the next ticket, waits for its place, and is ACCEPTED with its number and the present T64; a timed one is booked at the
placement of its time (or the earliest with ASAP), refused with LATE where none exists and BUSY where its queue cannot hold
its packet, and is ACCEPTED with its number and its first sample. It says when this row completes: MEASURE. -/
def Obligations.MeasureArmed : Prop :=
  ∀ (s : State) (h : Hdr) (selector nMinus1 : BitVec 16) (conv : BitVec 6) (pinned : Bool) (queue : BitVec 16),
    let q := queue.toNat % 16384
    let u := ensureTaken s h 0x28
    let convs := convChoice u h.ring h.seq selector.toNat (if pinned then some conv.toNat else none)
    let job : MeasJob := ⟨selector, nMinus1.toNat + 1, conv.toNat, none, pinned, h.launchAt.isSome, s.now, s.now, false, 0,
      false, false⟩
    Admitted s h ⟨0x28, 2, .none, true, false, true, false⟩ [.queue q] → injectOn s 25 = none → injectOn s 29 = none →
    (measureBad u selector.toNat q convs = true →
      exec (.measure h selector nMinus1 conv pinned queue) s = .next (after s (refuse u h 0x28 BAD_PARAM 0))) ∧
    (measureBad u selector.toNat q convs = false → ticketsOut s = true →
      exec (.measure h selector nMinus1 conv pinned queue) s = .next (after s (refuse u h 0x28 TICKETS_EXHAUSTED 0))) ∧
    (measureBad u selector.toNat q convs = false → ticketsOut s = false → h.launchAt = none →
      exec (.measure h selector nMinus1 conv pinned queue) s = .next (after s (replyAccepted
        (replaceJobs (issue u h q false (.measure job))) h 0x28 (nextTicket s).toNat s.now))) ∧
    (∀ t, measureBad u selector.toNat q convs = false → ticketsOut s = false → h.launchAt = some t →
      let place := bookAt u h t fun i => bestPlace u.convPtr (places u none selector.toNat (nMinus1.toNat + 1) convs leadFu i)
      (place = none → exec (.measure h selector nMinus1 conv pinned queue) s = .next (after s (refuse u h 0x28 LATE 0))) ∧
      (∀ p, place = some p → canHold u q 3 = false →
        exec (.measure h selector nMinus1 conv pinned queue) s = .next (after s (refuse u h 0x28 BUSY 0))) ∧
      (∀ p, place = some p → canHold u q 3 = true →
        let w := holdEntries (issue { u with convPtr := (p.conv + 1) % 64 } h q true
          (.measure { job with conv := p.conv, trunk := p.trunk, first := fromNow u p.first })) q 3
        exec (.measure h selector nMinus1 conv pinned queue) s =
          .next (after s (replyAccepted w h 0x28 (nextTicket s).toNat (fromNow u p.first)))))

/-- TIME_MEASURE is refused by its checks, or answered ACCEPTED under the next ticket (R215, R217, R218, R224, R236, R282,
Table 11-9). An admitted TIME_MEASURE with a pin not in use, a count or span outside its range or a queue that cannot take
its packet is refused with BAD_PARAM, with every ticket in flight with TICKETS_EXHAUSTED. With no injection on the ticket
table or Marten's tables: an untimed one is issued the next ticket and ACCEPTED with its number; a timed one is booked at
its time (or the earliest with ASAP), refused with LATE where no TIMU is free and BUSY where its queue cannot hold its
packet, and is ACCEPTED with its number and its start. It says when this row completes: TIME_MEASURE. -/
def Obligations.TimeMeasureArmed : Prop :=
  ∀ (s : State) (h : Hdr) (pinA edges pinB timu : Byte) (count queue : BitVec 16) (limit : BitVec 64),
    let a : TimuArgs := ⟨pinA, edges, pinB, timu, count.toNat, queue.toNat % 16384, limit.toNat⟩
    let u := ensureTaken s h 0x29
    let job := a.job s.now s.now h.launchAt.isSome (timu.toNat % 32)
    let c : Instr := .timeMeasure h pinA edges pinB timu count queue limit
    Admitted s h ⟨0x29, 2, .none, true, false, true, false⟩ [.queue a.queue] → injectOn s 25 = none → injectOn s 29 = none →
    (timuBad u a = true → exec c s = .next (after s (refuse u h 0x29 BAD_PARAM 0))) ∧
    (timuBad u a = false → ticketsOut s = true → exec c s = .next (after s (refuse u h 0x29 TICKETS_EXHAUSTED 0))) ∧
    (timuBad u a = false → ticketsOut s = false → h.launchAt = none → exec c s = .next (after s (replyAccepted
      (replaceJobs (issue u h a.queue false (.timu job))) h 0x29 (nextTicket s).toNat s.now))) ∧
    (∀ t, timuBad u a = false → ticketsOut s = false → h.launchAt = some t →
      let len := (job.interval s.now).2 - (job.interval s.now).1
      let pin := if a.pinned then some (timu.toNat % 32) else none
      let place := bookAt u h t fun i => bestTimu u none (timuChoice u h.ring h.seq pin) len leadFu i
      (place = none → exec c s = .next (after s (refuse u h 0x29 LATE 0))) ∧
      (∀ p, place = some p → canHold u a.queue (Job.timu job).entries = false →
        exec c s = .next (after s (refuse u h 0x29 BUSY 0))) ∧
      (∀ p, place = some p → canHold u a.queue (Job.timu job).entries = true →
        let w := holdEntries (issue { u with timuPtr := (p.2 + 1) % 32 } h a.queue true
          (.timu { job with timu := p.2, start := fromNow u p.1 })) a.queue (Job.timu job).entries
        exec c s = .next (after s (replyAccepted w h 0x29 (nextTicket s).toNat (fromNow u p.1)))))

/-- MEASURE and TIMU jobs start at their instant and commit their packet (R221, R222, R223, R228, R233, R390, Table 8-10,
R215, R216, R217, R218, Table 8-7). MEASURE_START of a booked job at its first sample, with no injection on CONV, starts the
job with the source's range and compliance, and an untimed one enters the record of the longest wait; with an injection the
job's ticket ends in its scope. MEASURE_END of a started job with its N samples after N microseconds commits the three
entries of Table 8-10 into the storage held for them, ends the ticket and places the jobs that wait. Before those instants,
with other samples, in the safe state, after a thermal shutdown or for another ticket nothing happens. TIMU_JOB_START of a
booked job at its start, with no injection on TIMU, starts it, and an untimed one enters the record of the longest wait;
with an injection its ticket ends in its scope. TIMU_JOB_END of a started job whose timeout or gate has passed, or that has
its COUNT of stamps, commits the packet of Table 8-7, ends the ticket and places the jobs that wait. Before that, in the
safe state, after a thermal shutdown or for another ticket nothing happens. It says when these rows complete: MEASURE_START,
MEASURE_END, TIMU_JOB_START, TIMU_JOB_END. -/
def Obligations.TicketJobs : Prop :=
  (∀ (s : State) (num : BitVec 17) (t : Ticket) (j : MeasJob), findTicket s num = some t → t.job = .measure j → t.booked = true →
    j.started = false → reached s.now j.first = true → Live s →
    (injectOn s 31 = none →
      let u := if j.timed then s else keepMax s gPLACEWAIT (nsBetween j.takenAt j.first) 0xFFFFFFFF
      exec (.measureStart num) s = .next (after s (setJob u num true (.measure { j with
        started := true, range := BitVec.ofNat 3 (sourceRange u j.sel.toNat), comply := sourceComply u j.sel.toNat })))) ∧
    (∀ d, injectOn s 31 = some d →
      exec (.measureStart num) s = .next (after s (ticketFault (useInject s 31) 31 num true)))) ∧
  (∀ (s : State) (num : BitVec 17), (∀ t j, findTicket s num = some t → t.job = .measure j →
      t.booked = false ∨ j.started = true ∨ reached s.now j.first = false ∨ ¬Live s) →
    exec (.measureStart num) s = .next (after s s)) ∧
  (∀ (s : State) (num : BitVec 17) (t : Ticket) (j : MeasJob) (l : List Int) (lim : Bool), findTicket s num = some t →
    t.job = .measure j → j.started = true → l.length = j.n → reached s.now (j.first + ticksFu (usTicks j.n)) = true → Live s →
    exec (.measureEnd num l lim) s = .next (after s (commitJob s t 0 (measurePacket s num j l lim)))) ∧
  (∀ (s : State) (num : BitVec 17) (l : List Int) (lim : Bool), (∀ t j, findTicket s num = some t → t.job = .measure j →
      j.started = false ∨ l.length ≠ j.n ∨ reached s.now (j.first + ticksFu (usTicks j.n)) = false ∨ ¬Live s) →
    exec (.measureEnd num l lim) s = .next (after s s)) ∧
  (∀ (s : State) (num : BitVec 17) (t : Ticket) (j : TimuJob), findTicket s num = some t → t.job = .timu j → t.booked = true →
    j.started = false → reached s.now j.start = true → Live s →
    (injectOn s 30 = none →
      let u := if j.timed then s else keepMax s gPLACEWAIT (nsBetween j.takenAt j.start) 0xFFFFFFFF
      exec (.timuJobStart num) s = .next (after s (setJob u num true (.timu { j with started := true })))) ∧
    (∀ d, injectOn s 30 = some d →
      exec (.timuJobStart num) s = .next (after s (ticketFault (useInject s 30) 30 num true)))) ∧
  (∀ (s : State) (num : BitVec 17), (∀ t j, findTicket s num = some t → t.job = .timu j →
      t.booked = false ∨ j.started = true ∨ reached s.now j.start = false ∨ ¬Live s) →
    exec (.timuJobStart num) s = .next (after s s)) ∧
  (∀ (s : State) (num : BitVec 17) (t : Ticket) (j : TimuJob), findTicket s num = some t → t.job = .timu j → j.started = true →
    (reached s.now (j.start + ticksFu j.limit) = true ∨ (j.freq = false ∧ j.count ≤ j.stamps.length)) → Live s →
    exec (.timuJobEnd num) s = .next (after s (commitJob s t (if j.freq then 2 else 1) (timuPacket s num j)))) ∧
  (∀ (s : State) (num : BitVec 17), (∀ t j, findTicket s num = some t → t.job = .timu j → j.started = false ∨ ¬Live s ∨
      (reached s.now (j.start + ticksFu j.limit) = false ∧ (j.freq = true ∨ j.stamps.length < j.count))) →
    exec (.timuJobEnd num) s = .next (after s s))

/-- CAPTURE_ARM arms a stream on each of its ridges under one ticket (R207, R210, R224, R288, Table 11-9). An admitted
CAPTURE_ARM that a check of R207 refuses gets that status and changes nothing else. With none, and no injection on the
ticket table or Marten's tables, the next ticket is issued, each ridge is armed with its own region of frames and its part
of the host buffer, and the reply is ACCEPTED with the ticket's number. An armed ridge's stream carries that ticket, the
lanes asked for and its own NB, has no record, and its read count starts at 0. It says when this row completes: CAPTURE_ARM.
-/
def Obligations.CaptureArmed : Prop :=
  (∀ (s : State) (h : Hdr) (bySite lanes : Bool) (site : Byte) (laneMask frames queue : BitVec 16) (buf : BitVec 64) (nb : Word),
    let a : CapArgs := ⟨bySite, lanes, site.toNat, laneMask, frames.toNat, queue.toNat % 16384, buf, nb.toNat⟩
    let u := ensureTaken s h 0x2A
    let rs := capRidges s h a
    Admitted s h ⟨0x2A, 3, .either, false, false, true, false⟩ (rs.map .ridge ++ [.queue a.queue]) →
    injectOn s 25 = none → injectOn s 29 = none →
    (∀ st, capRefusal u a rs = some st →
      exec (.captureArm h bySite lanes site laneMask frames queue buf nb) s = .next (after s (refuse u h 0x2A st 0))) ∧
    (capRefusal u a rs = none →
      let v := (rs.zipIdx.map fun x => (x.2, x.1)).foldl (armStream a (nextTicket s) (a.nb / rs.length))
        (issue u h a.queue true (.capture rs []))
      exec (.captureArm h bySite lanes site laneMask frames queue buf nb) s =
        .next (after s (replyAccepted v h 0x2A (nextTicket s).toNat s.now)))) ∧
  (∀ (s : State) (a : CapArgs) (num : BitVec 17) (nbr j : Nat) (r : RidgeId),
    ∃ x, (armStream a num nbr s (j, r)).ridges[r].stream = some x ∧ x.ticket = num ∧ x.lanes = capLanes s a r ∧ x.nb = nbr ∧
      x.cur = [] ∧ x.closed = [] ∧ x.active = false ∧ (armStream a num nbr s (j, r)).ridges[r].delivered = 0)

/-- Windows, anchors, timeouts and copies of change capture (R200, R206, R207, R208, R209, R210, R211, R245, R372, R381,
Table 8-2, Table 8-4). CAPTURE_WINDOW_END, 32 ticks after RUN_END once every compare window of the gang has closed, ends the
window of the ridge. ANCHOR writes the pair that is due, every 2^32 ticks of an open window, once every vector before it has
executed. CAPTURE_BLOCK_TIMEOUT closes a block open for 100 µs. CAPTURE_BLOCK_COPY, with a route for DMA, room in the host
buffer (an EMPTY block needs none) and no injection on the HBM PHY, writes the records of the oldest block not yet copied at
its place and produces its packet; a corrected HBM error is logged first, an uncorrectable one retires the frame and ends
the ticket. Before these conditions nothing happens. It says when these rows complete: CAPTURE_WINDOW_END,
CAPTURE_BLOCK_TIMEOUT, CAPTURE_BLOCK_COPY, ANCHOR. -/
def Obligations.CaptureRows : Prop :=
  (∀ (s : State) (r : RidgeId) (t : T64), s.ridges[r].ended = some t → reached s.now (t + ticksFu 32) = true → Live s →
    (∀ q ∈ gang s r, s.ridges[q].ended = none ∨ ∀ e ∈ s.ridges[q].open_, e.over (s.now - 1023) = true) →
    exec (.captureWindowEnd r) s = .next (after s (endWindow s r))) ∧
  (∀ (s : State) (r : RidgeId) (t : T64), s.ridges[r].ended = some t →
    (endWindow s r).ridges[r].ended = none ∧ (∀ x, (endWindow s r).ridges[r].stream = some x → x.active = false)) ∧
  (∀ (s : State) (r : RidgeId), (∀ t, s.ridges[r].ended = some t → reached s.now (t + ticksFu 32) = false ∨ ¬Live s ∨
      ∃ q ∈ gang s r, s.ridges[q].ended ≠ none ∧ ∃ e ∈ s.ridges[q].open_, e.over (s.now - 1023) = false) →
    exec (.captureWindowEnd r) s = .next (after s s)) ∧
  (∀ (s : State) (r : RidgeId) (x : Stream), s.ridges[r].stream = some x → x.active = true →
    let t := x.anchorAt + ticksFu (2 ^ 32)
    (∀ e, s.ridges[r].ended = some e → later (e + ticksFu 32) t = true) →
    (s.ridges[r].st = .running → later t s.ridges[r].start = false) →
    reached s.now t = true → exec (.anchor r) s = .next (after s (modStream
      (writeSpecial s r t (basePair 6 t s.ridges[r].entries) false) r fun x => { x with anchorAt := t }))) ∧
  (∀ (s : State) (r : RidgeId), (∀ x, s.ridges[r].stream = some x → x.active = false ∨
      reached s.now (x.anchorAt + ticksFu (2 ^ 32)) = false ∨
      (∃ e, s.ridges[r].ended = some e ∧ later (e + ticksFu 32) (x.anchorAt + ticksFu (2 ^ 32)) = false) ∨
      (s.ridges[r].st = .running ∧ later (x.anchorAt + ticksFu (2 ^ 32)) s.ridges[r].start = true)) →
    exec (.anchor r) s = .next (after s s)) ∧
  (∀ (s : State) (r : RidgeId), let u := settleStream (judge s r) r
    (∀ x, u.ridges[r].stream = some x → x.cur ≠ [] → 150000 ≤ u.ticks - x.openedAt →
      exec (.captureBlockTimeout r) s = .next (after s (modStream u r fun x => x.close false))) ∧
    ((∀ x, u.ridges[r].stream = some x → x.cur = [] ∨ u.ticks - x.openedAt < 150000) →
      exec (.captureBlockTimeout r) s = .next (after s u))) ∧
  (∀ (s : State) (r : RidgeId) (x : Stream) (b : CapBlock) (bs : List CapBlock), injectOn s 22 = none →
    nextStream s.ridges[r] = some x → x.closed.drop x.copied = b :: bs → dmaRoute s = true →
    (b.records = [] ∨ hostRoom b.number (x.rdAt.getD (word s (rdgW r 0x20))) x.nb = true) →
    let go := fun (u : State) =>
      let mark := fun (y : Stream) => if y.ticket = x.ticket then { y with copied := y.copied + 1 } else y
      let v := dmaWrite u (x.buf.toNat + b.number % max 1 x.nb * 16384) (b.records.flatMap fun w => leBytes 8 w.toNat)
      let w := modR v r fun y => { y with delivered := y.delivered + (if x.rdAt.isNone then 1 else 0),
                                          stream := y.stream.map mark, tails := y.tails.map mark }
      submitBlock w x.queue.toNat ⟨3, capturePacket w r b x.ticket.toNat, some x.ticket, b.last, some r⟩
    (∀ read, (read = .clean ∨ b.records = []) → exec (.captureBlockCopy r read) s = .next (after s (go s))) ∧
    (b.records ≠ [] → exec (.captureBlockCopy r .corrected) s = .next (after s (go (corrected s 20 0 false)))) ∧
    (b.records ≠ [] → exec (.captureBlockCopy r .failed) s = .next (after s
      (regionFault s (x.frames.getD (b.number % max 1 x.frames.length) 0) x.ticket)))) ∧
  (∀ (s : State) (r : RidgeId) (read : Secded), (∀ x b bs, nextStream s.ridges[r] = some x → x.closed.drop x.copied = b :: bs →
      dmaRoute s = false ∨ (b.records ≠ [] ∧ hostRoom b.number (x.rdAt.getD (word s (rdgW r 0x20))) x.nb = false)) →
    exec (.captureBlockCopy r read) s = .next (after s s))

/-- QUEUE_CONFIG, QUEUE_FLUSH and HEAD writes (R234, R244, R251, R253, R254, R266, R267, R268, R286, Table 10-1, Table
10-7). An admitted QUEUE_CONFIG that a rule refuses gets that status and changes nothing; else the queue has the new
configuration (its HEAD and TAIL at 0 when it becomes enabled), jobs that wait for storage are placed, and the reply is
DONE. An admitted QUEUE_FLUSH of another mode, or a DRAIN of a disabled queue, is refused with BAD_PARAM, a second flush
with BUSY; else the flush starts as a long command and takes effect at once, or at the boundary of the packet being written.
A DISCARD removes and counts the packets committed by then, and a DRAIN without a packet is answered with 0, with some it
waits for them. QUEUE_FLUSH_BOUNDARY brings a waiting flush into effect. A HEAD within HEAD to TAIL is taken, another sets
HEAD_ERR, in every state of the device. It says when these rows complete: QUEUE_CONFIG, QUEUE_FLUSH, QUEUE_FLUSH_BOUNDARY,
QUEUE_HEAD_WRITE. -/
def Obligations.QueueCommands : Prop :=
  (∀ (s : State) (h : Hdr) (queue : BitVec 16) (en size : Byte) (res : Word) (base wb : BitVec 64) (cring : Byte) (thr : BitVec 16)
    (stale : Word),
    let id := queue.toNat % 16384
    let conf : QConf := ⟨en.toNat, size.toNat, res.toNat, base, wb, cring, thr.toNat, stale.toNat⟩
    let u := ensureTaken s h 0x30
    Admitted s h ⟨0x30, 3, .none, false, false, true, false⟩ [.queue id] →
    (∀ st, queueConfigRefusal u id conf = some st →
      exec (.queueConfig h queue en size res base wb cring thr stale) s = .next (after s (refuse u h 0x30 st 0))) ∧
    (queueConfigRefusal u id conf = none →
      exec (.queueConfig h queue en size res base wb cring thr stale) s =
        .next (after s (replyDone (replaceJobs (modQ u id fun q => q.configure conf)) h 0x30 0)))) ∧
  (∀ (q : Queue) (c : QConf), c.enable = 1 →
    (q.configure c).enabled = true ∧ (q.configure c).ringBase = c.ringBase ∧ (q.configure c).ringSize = c.ringSize ∧
    (q.configure c).wbAddr = c.wbAddr ∧ (q.configure c).reservation = c.reservation ∧ (q.configure c).cring = c.cring ∧
    (q.configure c).store = q.store ∧ (q.configure c).nextSeq = q.nextSeq ∧
    (q.enabled = false → (q.configure c).head = 0 ∧ (q.configure c).tail = 0)) ∧
  (∀ (s : State) (h : Hdr) (queue : BitVec 16) (mode : Byte),
    let id := queue.toNat % 16384
    let u := ensureTaken s h 0x31
    Admitted s h ⟨0x31, 2, .none, false, false, true, false⟩ [.queue id] →
    ((1 < mode.toNat ∨ (mode = 0#8 ∧ (getQ s id).enabled = false)) →
      exec (.queueFlush h queue mode) s = .next (after s (refuse u h 0x31 BAD_PARAM 0))) ∧
    (mode.toNat ≤ 1 → (mode = 0#8 → (getQ s id).enabled = true) → (getQ s id).flush ≠ none →
      exec (.queueFlush h queue mode) s = .next (after s (refuse u h 0x31 BUSY 0))) ∧
    (mode.toNat ≤ 1 → (mode = 0#8 → (getQ s id).enabled = true) → (getQ s id).flush = none →
      let w := startLong u h 0x31 (.flush (BitVec.ofNat 14 id))
      let m : FlushMode := if mode = 0#8 then .drain else .discard
      ((getQ s id).writing s.ticks = true →
        exec (.queueFlush h queue mode) s = .next (after s (modQ w id fun q => { q with flush := some (m, 0) }))) ∧
      ((getQ s id).writing s.ticks = false → exec (.queueFlush h queue mode) s = .next (after s (flushNow w id m 0))))) ∧
  (∀ (s : State) (id : BitVec 14) (m : FlushMode) (k : Nat), Live s → (getQ s id.toNat).writing s.ticks = false →
    (getQ s id.toNat).flush = some (m, k) → exec (.queueFlushBoundary id) s = .next (after s (flushNow s id.toNat m k))) ∧
  (∀ (s : State) (id : BitVec 14), (¬Live s ∨ (getQ s id.toNat).writing s.ticks = true ∨ (getQ s id.toNat).flush = none) →
    exec (.queueFlushBoundary id) s = .next (after s s)) ∧
  (∀ (s : State) (i k : Nat), Canonical s →
    let q := getQ s i
    let n := q.store.length - k
    let t := flushNow s i .discard k
    (getQ t i).store = q.store.drop n ∧ (getQ t i).flush = none ∧
      (getQ t i).discardCnt.toNat = min 0xFFFFFFFF (q.discardCnt.toNat + n)) ∧
  (∀ (s : State) (i k : Nat), Canonical s →
    let q := getQ s i
    let n := q.store.length - k + (match q.draining with | some (_, _, m) => m | none => 0)
    (n = 0 → flushNow s i .drain k = flushReply (modQ s i fun q => { q with flush := none }) i 0 0) ∧
    (n ≠ 0 → (getQ (flushNow s i .drain k) i).flushLeft = some (n, 0) ∧ (getQ (flushNow s i .drain k) i).store = q.store)) ∧
  (∀ (s : State) (id : BitVec 14) (v : Word),
    let q := getQ s id.toNat
    ((v - q.head).toNat ≤ (q.tail - q.head).toNat →
      exec (.queueHeadWrite id v) s = .next (after s (modQ s id.toNat fun q => { q with head := v }))) ∧
    ((q.tail - q.head).toNat < (v - q.head).toNat →
      exec (.queueHeadWrite id v) s = .next (after s (modQ s id.toNat fun q => { q with headErr := true }))))

/-- A committed packet takes the queue's next SEQ, in order, and touches no other queue (R257, R258, R262, R263). With no
injection on QSTORE and the queue store in canonical form, a commit appends the packet with the queue's next SEQ to its
storage, advances SEQ by one modulo 4,096, makes the queue due at DRAIN_THR, starts the stale timer when no committed packet
waited and none runs, and leaves every other queue and everything outside the queues as it was. -/
def Obligations.CommitTakesSeq : Prop :=
  ∀ (s : State) (id : Nat) (typ : BitVec 3) (l : List (BitVec 96)), Canonical s → injectOn s 24 = none →
    let q := getQ s id
    let t := commitPkt s id typ l
    (getQ t id).store = q.store ++ [⟨typ, l, q.nextSeq, none⟩] ∧ (getQ t id).nextSeq = q.nextSeq + 1 ∧
    ((getQ t id).due = true ↔ q.due = true ∨ q.drainThr ≤ (getQ t id).depth) ∧
    (q.store = [] → q.timerAt = none → (getQ t id).timerAt = some (s.ticks, q.stale)) ∧
    (∀ k, k ≠ id → getQ t k = getQ s k) ∧ t = { s with queues := t.queues }

/-- Admission of waiting packets, the stale timer, and the start and end of a drain (R234, R245, R259, R260, R261, R262,
R263, R264, R268, Table 10-5, Table 10-6). PACKET_ADMISSION commits the queue's oldest waiting packet once its storage
admits it, and its block leaves its region. STALE_TIMER makes a queue due when the STALE in force at the timer's start has
passed. DRAIN_START of the queue that round-robin serves next, with a route for DMA, takes whole packets while the ring has
room: with at least one the drain is in progress, with none a queue that still holds packets sets RING_FULL, stays due, and
a DRAIN flush is answered BUSY (0 when it waits for none); the storage that frees serves the jobs that wait. DRAIN_DONE
moves TAIL over the drained entries, then the writeback and the notice follow, and a DRAIN flush that has seen its packets
is answered with their number. Otherwise nothing happens. It says when these rows complete: PACKET_ADMISSION, STALE_TIMER,
DRAIN_START, DRAIN_DONE. -/
def Obligations.QueueDrains : Prop :=
  (∀ (s : State) (id : BitVec 14) (w : WaitPkt) (ws : List WaitPkt), (getQ s id.toNat).waiting = w :: ws → Live s →
    admits s id.toNat w.payload.length = true →
    exec (.packetAdmission id) s = .next (after s (admitPkt (modQ s id.toNat fun q => { q with waiting := ws }) id.toNat w))) ∧
  (∀ (s : State) (i : Nat) (w : WaitPkt),
    admitPkt s i w = replaceJobs (packetCommitted (commitPkt (leaveRegion s w) i w.typ w.payload) w)) ∧
  (∀ (s : State) (id : BitVec 14), (∀ w ws, (getQ s id.toNat).waiting = w :: ws →
      ¬Live s ∨ admits s id.toNat w.payload.length = false) → exec (.packetAdmission id) s = .next (after s s)) ∧
  (∀ (s : State) (id : BitVec 14) (t stale : Nat), (getQ s id.toNat).timerAt = some (t, stale) → usTicks stale ≤ s.ticks - t →
    exec (.staleTimer id) s = .next (after s (modQ s id.toNat fun q => { q with timerAt := none, due := true }))) ∧
  (∀ (s : State) (id : BitVec 14), (∀ t k, (getQ s id.toNat).timerAt = some (t, k) → s.ticks - t < usTicks k) →
    exec (.staleTimer id) s = .next (after s s)) ∧
  (∀ (s : State) (id : BitVec 14) (bad : List (BitVec 12)), dmaRoute s = true → nextServed s = some id.toNat →
    let i := id.toNat
    let d := drainTake i bad (getQ s i).store ⟨0, 0, 0⟩ { s with lastQueue := id }
    (d.2.packets ≠ 0 → exec (.drainStart id bad) s = .next (after s (replaceJobs (modQ d.1 i fun q =>
      { q with due := false, timerAt := none, draining := some (d.2.entries, d.2.seq, d.2.packets) })))) ∧
    (d.2.packets = 0 →
      let full := (getQ d.1 i).store != []
      let u := modQ d.1 i fun q => { q with due := full, ringFull := q.ringFull || full, timerAt := if full then q.timerAt else none }
      ((getQ u i).flushLeft = none → exec (.drainStart id bad) s = .next (after s (replaceJobs u))) ∧
      (∀ m n, (getQ u i).flushLeft = some (m, n) →
        exec (.drainStart id bad) s = .next (after s (replaceJobs (flushReply u i (if m = 0 then 0 else BUSY) n)))))) ∧
  (∀ (s : State) (id : BitVec 14) (bad : List (BitVec 12)), (dmaRoute s = false ∨ nextServed s ≠ some id.toNat) →
    exec (.drainStart id bad) s = .next (after s s)) ∧
  (∀ (s : State) (id : BitVec 14) (n : Nat) (seq : BitVec 12) (k : Nat), (getQ s id.toNat).draining = some (n, seq, k) →
    dmaRoute s = true → (getQ s id.toNat).blocked = false →
    let i := id.toNat
    let u := modQ s i fun q =>
      { q with tail := q.tail + BitVec.ofNat 32 n, draining := none, timerAt := if q.store = [] then none else some (s.ticks, q.stale),
               due := q.due || (decide (q.drainThr ≤ q.depth) && q.store != []) }
    let v := queueNotice (queueWriteback u i seq) i
    ((getQ v i).flushLeft = none → exec (.drainDone id) s = .next (after s v)) ∧
    (∀ left d, (getQ v i).flushLeft = some (left, d) → left ≤ k →
      exec (.drainDone id) s = .next (after s (flushReply v i 0 (d + left)))) ∧
    (∀ left d p l, (getQ v i).flushLeft = some (left, d) → k < left → (getQ v i).store = p :: l →
      ((getQ v i).tail - (getQ v i).head).toNat + p.payload.length ≤ 2 ^ (getQ v i).ringSize →
      exec (.drainDone id) s =
        .next (after s (modQ v i fun q => { q with flushLeft := some (left - k, d + k), due := true }))) ∧
    (∀ left d p l, (getQ v i).flushLeft = some (left, d) → k < left → (getQ v i).store = p :: l →
      2 ^ (getQ v i).ringSize < ((getQ v i).tail - (getQ v i).head).toNat + p.payload.length →
      exec (.drainDone id) s = .next (after s (flushReply v i BUSY (d + k))))) ∧
  (∀ (s : State) (id : BitVec 14), ((getQ s id.toNat).draining = none ∨ dmaRoute s = false ∨ (getQ s id.toNat).blocked = true) →
    exec (.drainDone id) s = .next (after s s))

/-- The registers of the submission and completion rings, and writes of BAR0 (R271, R272, R273, R275, R276, R290, R425,
R426, Table 11-2, Table 11-3, Table 11-4). Out of reset: a doorbell from SQ_TAIL forward to at most the ring's size beyond
SQ_HEAD is taken, another sets its error bit; SQ_CTRL enables a ring whose completion ring is enabled, with HEAD, TAIL and
SEQ at 0, is refused otherwise, and disables; SQ_RESUME lets a stopped ring go on; CQ_CFG and CQ_HEAD likewise; a completion
ring that becomes enabled gets the replies and then the notices that waited for it; a REGISTER_WRITE at a BAR0 offset acts
as the write of that offset. While POR_N is low none of them does anything. It says when these rows complete: DOORBELL,
SQ_ENABLE, SQ_RESUME, CQ_ENABLE, CQ_HEAD_WRITE, REGISTER_WRITE. -/
def Obligations.RingRegisters : Prop :=
  (∀ (s : State) (q : Fin 64) (v : Word), s.boot.por = false →
    let x := s.sq[q]
    ((x.tail - x.head).toNat ≤ (v - x.head).toNat → (v - x.head).toNat ≤ 2 ^ x.n →
      exec (.doorbell q v) s = .next (after s (modSq s q fun x => { x with tail := v }))) ∧
    (((v - x.head).toNat < (x.tail - x.head).toNat ∨ 2 ^ x.n < (v - x.head).toNat) →
      exec (.doorbell q v) s = .next (after s (modSq s q fun x => { x with dbErr := true })))) ∧
  (∀ (s : State) (q : Fin 64) (v : Word), s.boot.por = false →
    (v.getLsbD 0 = s.sq[q].enabled → exec (.sqEnable q v) s = .next (after s s)) ∧
    (v.getLsbD 0 = false → s.sq[q].enabled = true →
      exec (.sqEnable q v) s = .next (after s (modSq s q fun x => { x with enabled := false }))) ∧
    (v.getLsbD 0 = true → s.sq[q].enabled = false → s.cq[s.sq[q].cq].enabled = false →
      exec (.sqEnable q v) s = .next (after s (modSq s q fun x => { x with regErr := true }))) ∧
    (v.getLsbD 0 = true → s.sq[q].enabled = false → s.cq[s.sq[q].cq].enabled = true →
      exec (.sqEnable q v) s = .next (after s (modSq s q fun x =>
        { x with enabled := true, stopped := false, era := x.era + 1, head := 0, tail := 0, seq := 0 })))) ∧
  (∀ (s : State) (q : Fin 64) (v : Word), s.boot.por = false →
    (v.getLsbD 0 = true → exec (.sqResume q v) s = .next (after s (modSq s q fun x => { x with stopped := false }))) ∧
    (v.getLsbD 0 = false → exec (.sqResume q v) s = .next (after s s))) ∧
  (∀ (s : State) (c : Fin 64) (v : Word), s.boot.por = false →
    let n := bits v.toNat 4 0
    let vec : Fin 64 := Fin.ofNat 64 (bits v.toNat 13 8)
    (inRange 6 16 n = false → exec (.cqEnable c v) s = .next (after s (cqRefused s c))) ∧
    (inRange 6 16 n = true → s.cq[c].enabled = true → bit v.toNat 16 = true → (n ≠ s.cq[c].n ∨ vec ≠ s.cq[c].vector) →
      exec (.cqEnable c v) s = .next (after s (cqRefused s c))) ∧
    (inRange 6 16 n = true → s.cq[c].enabled = true → bit v.toNat 16 = true → n = s.cq[c].n → vec = s.cq[c].vector →
      exec (.cqEnable c v) s = .next (after s s)) ∧
    (inRange 6 16 n = true → s.cq[c].enabled = true → bit v.toNat 16 = false → cqInUse s c = true →
      exec (.cqEnable c v) s = .next (after s (cqRefused s c))) ∧
    (inRange 6 16 n = true → s.cq[c].enabled = true → bit v.toNat 16 = false → cqInUse s c = false →
      exec (.cqEnable c v) s = .next (after s (modCq s c fun x => { x with n := n, vector := vec, enabled := false }))) ∧
    (inRange 6 16 n = true → s.cq[c].enabled = false → bit v.toNat 16 = false →
      exec (.cqEnable c v) s = .next (after s (modCq s c fun x => { x with n := n, vector := vec, enabled := false }))) ∧
    (inRange 6 16 n = true → s.cq[c].enabled = false → bit v.toNat 16 = true →
      let u := each (List.finRange 64) deliver (modCq s c fun x =>
        { x with n := n, vector := vec, enabled := true, head := 0, tail := 0, unsignalled := 0 })
      exec (.cqEnable c v) s = .next (after s (deliverNotices c u.link.notices.length u)))) ∧
  (∀ (s : State) (c : Fin 64) (v : Word), s.boot.por = false →
    let x := s.cq[c]
    ((v - x.head).toNat ≤ (x.tail - x.head).toNat →
      exec (.cqHeadWrite c v) s = .next (after s (modCq s c fun x => { x with head := v }))) ∧
    ((x.tail - x.head).toNat < (v - x.head).toNat →
      exec (.cqHeadWrite c v) s = .next (after s (modCq s c fun x => { x with headErr := true })))) ∧
  (∀ (s : State) (off : BitVec 21) (v : Word),
    exec (.registerWrite .window (.bar0 off) v) s = .next (after s (bar0Write s off.toNat v))) ∧
  (∀ (s : State) (q : Fin 64) (v : Word), s.boot.por = false →
    bar0Write s (0x10000 + 64 * q.val + 0x10) v = doorbellWrite s q v ∧
    bar0Write s (0x10000 + 64 * q.val + 0x0C) v = sqCtrlWrite s q v ∧
    bar0Write s (0x12000 + 64 * q.val + 0x08) v = cqCfgWrite s q v ∧
    bar0Write s (0x12000 + 64 * q.val + 0x18) v = cqHeadReg s q v) ∧
  (∀ (s : State) (i : Nat) (v : Word), s.boot.por = false → i < 0x1A00 → bar0Write s (4 * i) v = windowWrite s i v.toNat) ∧
  (∀ (s : State) (q : Fin 64) (v : Word), s.boot.por = true →
    exec (.doorbell q v) s = .next (after s s) ∧ exec (.sqEnable q v) s = .next (after s s) ∧
    exec (.sqResume q v) s = .next (after s s) ∧ exec (.cqEnable q v) s = .next (after s s) ∧
    exec (.cqHeadWrite q v) s = .next (after s s))

/-- PACKET_FETCH takes the packet at the head of a ring, or stops the ring (R271, R272, R273, R274, R278, R280, R286, Table
11-6). When Badger can take the packet: a DMA read error stops the ring as a contained fault; a LENGTH of 0 or beyond the
ring, a CRC that fails and an SQ_SEQ other than the expected one stop the ring with BAD_LENGTH, CRC_ERROR, or BAD_PARAM with
the expected number, set their error bit and leave SQ_HEAD at the packet; any other packet reserves a completion entry,
advances SQ_HEAD by its LENGTH and the expected SQ_SEQ by one, and goes to its target. When it cannot, nothing happens. It
says when this row completes: PACKET_FETCH. -/
def Obligations.PacketFetch : Prop :=
  (∀ (s : State) (q : Fin 64) (p : Packet) (e : Bool), canFetch s q p = false → exec (.packetFetch q p e) s = .next (after s s)) ∧
  (∀ (s : State) (q : Fin 64) (p : Packet), canFetch s q p = true → exec (.packetFetch q p true) s =
    .next (after s (contained (modSq s q fun x => { x with stopped := true })
      ⟨32, 0, .contained, 0, 0, none, false, false⟩ id))) ∧
  (∀ (s : State) (q : Fin 64) (p : Packet), canFetch s q p = true → (p.length = 0#16 ∨ 2 ^ s.sq[q].n < p.length.toNat) →
    exec (.packetFetch q p false) s = .next (after s (stopRing s q p BAD_LENGTH 0 fun x => { x with lenErr := true }))) ∧
  (∀ (s : State) (q : Fin 64) (p : Packet), canFetch s q p = true → p.length ≠ 0#16 → p.length.toNat ≤ 2 ^ s.sq[q].n →
    (p.crc ≠ packetCrc p → exec (.packetFetch q p false) s =
      .next (after s (stopRing s q p CRC_ERROR 0 fun x => { x with crcErr := true }))) ∧
    (p.crc = packetCrc p → p.seq ≠ s.sq[q].seq → exec (.packetFetch q p false) s =
      .next (after s (stopRing s q p BAD_PARAM s.sq[q].seq.toNat fun x => { x with seqErr := true }))) ∧
    (p.crc = packetCrc p → p.seq = s.sq[q].seq → exec (.packetFetch q p false) s = .next (after s (cstoreStrike (routePacket
      (modSq (addTaken s q (packetTaken s q p)) q fun x =>
        { x with head := x.head + BitVec.ofNat 32 p.length.toNat, seq := x.seq + 1 }) q p (packetHdr p q s.sq[q].era none))))))

/-- Entries of completion rings: their bytes, their interrupts, pending notices and failed writes (R274, R275, R276, R376,
R426, Table 11-7). An entry written to a completion ring puts its 16 bytes at the ring's next slot when that slot and the
writeback do not overlap, advances CQ_TAIL by one, and touches no other ring. PENDING_NOTICE_WRITE writes the oldest notice
held for a ring that is open with an unreserved entry free. CQ_IRQ_TIMER signals an enabled ring with unsignalled entries
once its time has passed. A DMA write that fails once has no effect; failing again it is a contained fault that blocks the
queue or ring it served. It says when these rows complete: PENDING_NOTICE_WRITE, CQ_IRQ_TIMER, DMA_WRITE_ERROR. -/
def Obligations.RepliesAndNotices : Prop :=
  (∀ (s : State) (c : Fin 64) (e : List Byte) (k : Nat), Canonical s → e.length = 16 → k < 16 → s.cq[c].irqTime ≠ 0 →
    s.cq[c].unsignalled + 1 < s.cq[c].irqCount →
    let q := s.cq[c]
    let a := q.base.toNat + 16 * (q.tail.toNat % 2 ^ q.n)
    a + 16 ≤ 2 ^ 64 → (a + 16 ≤ q.wb.toNat ∨ q.wb.toNat + 8 ≤ a) → q.wb.toNat + 8 ≤ 2 ^ 64 →
    let t := cqWrite s c e
    hostByte t.host (a + k) = e.getD k 0 ∧ t.cq[c].tail = q.tail + 1 ∧ t.cq[c].unsignalled = q.unsignalled + 1 ∧
      (∀ d : Fin 64, d ≠ c → t.cq[d] = s.cq[d]) ∧
      (∀ i, ¬(a ≤ i ∧ i < a + 16) → ¬(q.wb.toNat ≤ i ∧ i < q.wb.toNat + 8) → hostByte t.host i = hostByte s.host i)) ∧
  (∀ (s : State) (c : Fin 64) (n : Notice), s.link.notices.find? (fun m => decide (m.cq = c)) = some n → noticeOut s c = true →
    exec (.pendingNoticeWrite c) s = .next (after s (cqWrite
      { s with link := { s.link with notices := s.link.notices.erase n } } c n.bytes))) ∧
  (∀ (s : State) (c : Fin 64), (s.link.notices.find? (fun m => decide (m.cq = c)) = none ∨ noticeOut s c = false) →
    exec (.pendingNoticeWrite c) s = .next (after s s)) ∧
  (∀ (s : State) (c : Fin 64), dmaOk s = true → s.cq[c].enabled = true → 0 < s.cq[c].unsignalled →
    usTicks s.cq[c].irqTime ≤ s.ticks - s.cq[c].oldest → exec (.cqIrqTimer c) s = .next (after s (signalCq s c))) ∧
  (∀ (s : State) (c : Fin 64), (dmaOk s = false ∨ s.cq[c].enabled = false ∨ s.cq[c].unsignalled = 0 ∨
      s.ticks - s.cq[c].oldest < usTicks s.cq[c].irqTime) → exec (.cqIrqTimer c) s = .next (after s s)) ∧
  (∀ (s : State) (t : DmaTarget), exec (.dmaWriteError t false) s = .next (after s s)) ∧
  (∀ (s : State) (t : DmaTarget), s.boot.por = false → bearSafe s = false → ∃ u, exec (.dmaWriteError t true) s = .next u ∧
    u.bear.latch.getLsbD 33 = true ∧
    (∀ id, t = .queue id → Canonical s → (getQ u id.toNat).blocked = true) ∧ (∀ c, t = .completion c → u.cq[c].blocked = true))

/-- IDENTIFY, ECHO and FAULT_READ send their record to host memory (R2, R11, R287, R377, Table 11-10, Table 16-4). An
admitted IDENTIFY, ECHO or FAULT_READ whose address is not 8-aligned is refused with BAD_PARAM; any other sends its record
to the address by DMA and is DONE with the record's length: 64 bytes that begin with GLB_ID 0x72640042, the LENGTH's data
bytes, or the latch, the counters and the fault log, whose length is 32 bytes and 32 for each entry. It says when these rows
complete: IDENTIFY, FAULT_READ, ECHO. -/
def Obligations.HostRecords : Prop :=
  (∀ (s : State) (h : Hdr) (addr : BitVec 64), Admitted s h ⟨0x01, 2, .none, false, false, true, true⟩ [] →
    let u := ensureTaken s h 0x01
    (addr.toNat % 8 ≠ 0 → exec (.identify h addr) s = .next (after s (refuse u h 0x01 BAD_PARAM 0))) ∧
    (addr.toNat % 8 = 0 → exec (.identify h addr) s =
      .next (after s (dataReply u h 0x01 addr.toNat (identifyRecord u))))) ∧
  (∀ (s : State) (h : Hdr) (addr : BitVec 64) (data : List Byte),
    Admitted s h ⟨0x7F, echoUnits h, .none, false, false, true, true⟩ [] →
    let u := ensureTaken s h 0x7F
    let n := 16 * (h.length.toNat - 2)
    (addr.toNat % 8 ≠ 0 → exec (.echo h addr data) s = .next (after s (refuse u h 0x7F BAD_PARAM 0))) ∧
    (addr.toNat % 8 = 0 → exec (.echo h addr data) s =
      .next (after s (dataReply u h 0x7F addr.toNat (padTo n data))))) ∧
  (∀ (n : Nat) (l : List Byte), (padTo n l).length = n) ∧
  (∀ (s : State) (h : Hdr) (addr : BitVec 64), Admitted s h ⟨0x50, 2, .none, false, false, true, false⟩ [] →
    let u := ensureTaken s h 0x50
    (addr.toNat % 8 ≠ 0 → exec (.faultRead h addr) s = .next (after s (refuse u h 0x50 BAD_PARAM 0))) ∧
    (addr.toNat % 8 = 0 → exec (.faultRead h addr) s = .next (after s (dataReply u h 0x50 addr.toNat (faultRecord u))))) ∧
  (∀ (s : State) (h : Hdr) (op addr : Nat) (data : List Byte),
    (viaSummit s = false → dataReply s h op addr data = replyDone { s with host := hostPut s.host addr data } h op data.length) ∧
    (viaSummit s = true → reachable s 0 = true → reachable (dmaWrite s addr data) 0 = true →
      dataReply s h op addr data = replyDone (dmaWrite s addr data) h op data.length)) ∧
  (∀ s : State, (identifyRecord s).length = 64 ∧ (identifyRecord s).take 4 = leBytes 4 0x72640042 ∧
    (faultRecord s).length = 32 + 32 * s.bear.log.length ∧ (faultRecord s).take 8 = leBytes 8 s.bear.latch.toNat)

/-- SEG_LOAD: a new handle takes a free frame or is refused BUSY; a replaced image keeps its frame (R75). An admitted
SEG_LOAD with the null handle or an address that is not 64-aligned is refused with BAD_PARAM; of an image that is release-
pending or referenced, SEG_BUSY; a new handle with no free frame, BUSY; a new handle with a free frame goes to Marten with
that frame; an unreferenced image is replaced whether or not a frame is free, and when the load completes the new image
stands in the old image's frame. It says when these rows complete: SEG_LOAD, SEG_LOAD_DONE. -/
def Obligations.SegLoadFrames : Prop :=
  (∀ (s : State) (h : Hdr) (handle : Word) (addr : BitVec 64),
    Admitted s h ⟨0x10, 2, .none, false, false, true, false⟩ [.handle (h20 handle).toNat] → injectOn s 29 = none →
    let k := h20 handle
    let u := ensureTaken s h 0x10
    ((k = noHandle ∨ addr.toNat % 64 ≠ 0) → exec (.segLoad h handle addr) s = .next (after s (refuse u h 0x10 BAD_PARAM 0))) ∧
    (k ≠ noHandle → addr.toNat % 64 = 0 →
      (∀ i, getImg u k = some i → (i.relPending = true ∨ refCount u k ≠ 0) →
        exec (.segLoad h handle addr) s = .next (after s (refuse u h 0x10 SEG_BUSY 0))) ∧
      (∀ i, getImg u k = some i → i.relPending = false → refCount u k = 0 →
        exec (.segLoad h handle addr) s = .next (after s (startLong u h 0x10 (.segLoad k none)))) ∧
      (getImg u k = none → allocFrame u = none →
        exec (.segLoad h handle addr) s = .next (after s (refuse u h 0x10 BUSY 0))) ∧
      (∀ f t, getImg u k = none → allocFrame u = some (f, t) →
        exec (.segLoad h handle addr) s = .next (after s (startLong t h 0x10 (.segLoad k (some (f, u.store.ptr, t.store.ptr)))))))) ∧
  (∀ (s : State) (k : Handle) (i : SegImage) (l : Long) (old : Image), Live s → injectOn s 22 = none → Canonical s →
    findLong s (fun j => match j with | .segLoad x _ => decide (x = k) | _ => false) = some l → l.job = .segLoad k none →
    getImg s k = some old → imageOk k i = true →
    ∃ t img, exec (.segLoadDone k i) s = .next t ∧ getImg t k = some img ∧ img.frame = old.frame ∧ img.payload = i.payload ∧
      img.relPending = false)

/-- Images and bindings: SEG_LOAD_DONE, SEG_RELEASE, SEG_PIN, SEG_UNPIN, PROG_BIND, STAGING_FETCH_DONE (R33, R40, R73, R78,
R79, R80, R84, R85, R91, R92, R96, R182). A load that fails a check of its image gives its frame back free, with the
allocation pointer where it was, and is refused with BAD_PARAM; one that passes stores the image, drops the old copies and
renews the references of the ports that play. SEG_RELEASE frees an unreferenced image with DONE and marks a referenced one
release-pending with DEFERRED. SEG_PIN adds a pin within the quota, SEG_UNPIN ends it. PROG_BIND binds or unbinds a ridge
that does not run, within its quota. A staging fetch that is due, in chain order and with no load of its handle in progress,
brings its copy, after a corrected error with its log entry, or fails and is retried once; any other does nothing. It says
when these rows complete: SEG_LOAD_DONE, SEG_RELEASE, SEG_PIN, SEG_UNPIN, PROG_BIND, STAGING_FETCH_DONE. -/
def Obligations.SegmentCommands : Prop :=
  (∀ (s : State) (k : Handle) (i : SegImage) (l : Long) (f : Option (Nat × Nat × Nat)), Live s → injectOn s 22 = none →
    findLong s (fun j => match j with | .segLoad x _ => decide (x = k) | _ => false) = some l → l.job = .segLoad k f →
    (imageOk k i = false → exec (.segLoadDone k i) s = .next (after s
      (refuse (restage (each f.toList undoAlloc (dropLong s l)) allRidges) l.hdr 0x10 BAD_PARAM 0))) ∧
    (∀ fr, imageOk k i = true → f = some fr → exec (.segLoadDone k i) s = .next (after s
      (replyDone (restage (each allRidges renewRefs (dropCopies (putImg (dropLong s l) k (some
        { frame := fr.1, analog := i.kind == 1, next := h20 i.next, span := i.bodySpan.toNat, relPending := false, crc := i.crc,
          payload := i.payload })) k)) allRidges) l.hdr 0x10 0)))) ∧
  (∀ (s : State) (a : Nat × Nat × Nat), (undoAlloc s a).store.used = s.store.used.erase a.1 ∧
    (undoAlloc s a).store.awaiting = s.store.awaiting ∧ (s.store.ptr = a.2.2 → (undoAlloc s a).store.ptr = a.2.1)) ∧
  (∀ (s : State) (h : Hdr) (handle : Word), Admitted s h ⟨0x11, 2, .none, false, false, true, false⟩ [.handle (h20 handle).toNat] →
    let k := h20 handle
    let u := ensureTaken s h 0x11
    (getImg u k = none → exec (.segRelease h handle) s = .next (after s (refuse u h 0x11 SEG_NOT_FOUND k.toNat))) ∧
    (∀ i, getImg u k = some i → i.relPending = true →
      exec (.segRelease h handle) s = .next (after s (answer u h 0x11 0x02 0 u.now))) ∧
    (∀ i, getImg u k = some i → i.relPending = false → refCount u k = 0 →
      exec (.segRelease h handle) s = .next (after s (replyDone (freeImage u k) h 0x11 0))) ∧
    (∀ i, getImg u k = some i → i.relPending = false → refCount u k ≠ 0 →
      exec (.segRelease h handle) s = .next (after s
        (answer (putImg u k (some { i with relPending := true })) h 0x11 0x02 0 u.now)))) ∧
  (∀ (s : State) (h : Hdr) (handle : Word),
    let k := h20 handle
    let r := hdrRidge h
    Admitted s h ⟨0x12, 2, .named, false, false, true, false⟩ [.handle k.toNat, .ridge r] →
    let u := ensureTaken s h 0x12
    (takesRef u k = true → k ∈ u.ridges[r].pins → exec (.segPin h handle) s = .next (after s (replyDone u h 0x12 0))) ∧
    (¬(takesRef u k = true ∧ k ∈ u.ridges[r].pins) → quota u r < requirement u r + u.ridges[r].pins.length + 1 →
      exec (.segPin h handle) s = .next (after s (refuse u h 0x12 BUSY 0))) ∧
    (requirement u r + u.ridges[r].pins.length + 1 ≤ quota u r → takesRef u k = false →
      exec (.segPin h handle) s = .next (after s (refuse u h 0x12 SEG_NOT_FOUND k.toNat))) ∧
    (requirement u r + u.ridges[r].pins.length + 1 ≤ quota u r → takesRef u k = true → k ∉ u.ridges[r].pins →
      exec (.segPin h handle) s = .next (after s (replyDone
        (restage (reclaimLent (modR u r fun x => { x with pins := x.pins ++ [k] })) [r]) h 0x12 0)))) ∧
  (∀ (s : State) (h : Hdr) (handle : Word),
    let k := h20 handle
    let r := hdrRidge h
    Admitted s h ⟨0x13, 2, .named, false, false, true, false⟩ [.handle k.toNat, .ridge r] →
    let u := ensureTaken s h 0x13
    (k ∉ u.ridges[r].pins → exec (.segUnpin h handle) s = .next (after s (refuse u h 0x13 BAD_PARAM 0))) ∧
    (k ∈ u.ridges[r].pins → exec (.segUnpin h handle) s = .next (after s
      (replyDone (restage (modR u r fun x => { x with pins := x.pins.erase k }) [r]) h 0x13 0)))) ∧
  (∀ (s : State) (h : Hdr) (handle : Word) (unbind : Bool) (maxBody d : Byte) (targets : List Word),
    let r := hdrRidge h
    let ts := (targets.take d.toNat).map h20
    Admitted s h ⟨0x14, 2 + cdiv d.toNat 4, .named, false, false, true, false⟩
      ([.ridge r, .handle (h20 handle).toNat] ++ ts.map fun t => .handle t.toNat) →
    let u := ensureTaken s h 0x14
    let need := bindReq maxBody.toNat ts.length
    let run := exec (.progBind h handle unbind maxBody d targets) s
    (runs u r = true → run = .next (after s (refuse u h 0x14 BUSY 0))) ∧
    (runs u r = false → unbind = true → run = .next (after s (replyDone (restage (modR u r Ridge.unbind) [r]) h 0x14 0))) ∧
    (runs u r = false → unbind = false → (128 < maxBody.toNat ∨ 64 < d.toNat) →
      run = .next (after s (refuse u h 0x14 BAD_PARAM 0))) ∧
    (runs u r = false → unbind = false → maxBody.toNat ≤ 128 → d.toNat ≤ 64 →
      (∀ st info, bindHandles u (h20 handle :: ts) = some (st, info) → run = .next (after s (refuse u h 0x14 st info))) ∧
      (bindHandles u (h20 handle :: ts) = none → quota u r < need + u.ridges[r].pins.length →
        run = .next (after s (refuse u h 0x14 BAD_PARAM need))) ∧
      (bindHandles u (h20 handle :: ts) = none → need + u.ridges[r].pins.length ≤ quota u r →
        run = .next (after s (replyDone (restage (reclaimLent (modR u r fun x =>
          { x.clearBinding with st := .bound, first := h20 handle, maxBody := maxBody.toNat, targets := ts,
                                overSeen := [], pc := ⟨h20 handle, 0⟩ })) [r]) h 0x14 0))))) ∧
  (∀ (s : State) (r : RidgeId) (k : Handle) (f : Handle × Nat), Live s → injectOn s 20 = none → injectOn s 21 = none →
    injectOn s 22 = none → injectOn s 23 = none →
    (s.ridges[r].fetches ++ s.ridges[r].lentDue).find? (fun f => decide (f.1 = k)) = some f →
    (getImg s k).isSome = true → loading s k = false → fetchWaits s r k = false →
    exec (.stagingFetchDone r k .clean) s = .next (after s (parkCheck (copyArrives s r k f.2))) ∧
      exec (.stagingFetchDone r k .corrected) s = .next (after s (parkCheck (copyArrives (corrected s 20 0 false) r k f.2))) ∧
      exec (.stagingFetchDone r k .failed) s = .next (after s (parkCheck (fetchFails s r k false)))) ∧
  (∀ (s : State) (r : RidgeId) (k : Handle) (read : Secded),
    (¬Live s ∨ (getImg s k).isNone = true ∨ loading s k = true ∨ fetchWaits s r k = true ∨
      (s.ridges[r].fetches ++ s.ridges[r].lentDue).find? (fun f => decide (f.1 = k)) = none) →
    exec (.stagingFetchDone r k read) s = .next (after s s))

/-- A frame that Marten allocates is free, in its range, and next in the frame order (R18, R74, R240). When the allocator
gives a frame, the frame lies between 0x00440 and 0xFFFFF, was neither in use, retired nor waiting for RECLAIM, and is now
in use; it stands in the frame order at or after the allocation pointer with no free frame between, the pointer moves to the
position after it, and nothing but the store changes. Different positions of the order name different frames. -/
def Obligations.FrameOrder : Prop :=
  (∀ (s t : State) (f : Nat), s.store.ptr < frameCount → allocFrame s = some (f, t) →
    0x440 ≤ f ∧ f ≤ 0xFFFFF ∧ frameBusy s f = false ∧ t.store.used = f :: s.store.used ∧ t.store.ptr < frameCount ∧
      (∃ i, s.store.ptr ≤ i ∧ f = frameAt s (i % frameCount) ∧ t.store.ptr = (i + 1) % frameCount ∧
        ∀ j, s.store.ptr ≤ j → j < i → frameBusy s (frameAt s (j % frameCount)) = true) ∧
      t.store.images = s.store.images ∧ t.queues = s.queues ∧ t.ridges = s.ridges ∧ t.params = s.params) ∧
  (∀ (s : State) (i j : Nat), i < frameCount → j < frameCount → frameAt s i = frameAt s j → i = j)

/-- TIMING_WRITE, TIMING_SWAP and what waits for a segment boundary (R29, R64, R103, R107, R110, R112, R113, R114, R116,
R368). TIMING_WRITE refuses a wrong bank or range with BAD_PARAM, the active bank with TS_ACTIVE, a bank being swapped or
copied with BUSY, and the first record that fails its checks with BAD_PARAM and its position; else it writes the records
into the shadow bank. TIMING_SWAP swaps the idle ridges of the gang at once (DONE) and leaves the swap pending on those that
run (ACCEPTED). At the boundary that a gang has crossed, TIMING_SWAP_APPLY swaps every ridge with a pending swap and
OWL_FACTOR_APPLY brings Owl's factor and its estimate into force. TIMING_COPY_DONE makes the shadow bank equal to the active
one. A swap exchanges the banks of its ridge, starts the copy, and leaves the sets and every other ridge as they were. It
says when these rows complete: TIMING_WRITE, TIMING_SWAP, TIMING_SWAP_APPLY, TIMING_COPY_DONE, OWL_FACTOR_APPLY. -/
def Obligations.TimingSets : Prop :=
  (∀ (s : State) (h : Hdr) (bank first count : Byte) (records : List SetRecord),
    let r := hdrRidge h
    let n := count.toNat
    Admitted s h ⟨0x18, 2 + 33 * n, .named, false, false, true, false⟩ [.ridge r] →
    let u := ensureTaken s h 0x18
    let x := u.ridges[r]
    let run := exec (.timingWrite h bank first count records) s
    ((1 < bank.toNat ∨ n = 0 ∨ 32 < first.toNat + n ∨ 31 < first.toNat) → run = .next (after s (refuse u h 0x18 BAD_PARAM 0))) ∧
    (bank.toNat ≤ 1 → n ≠ 0 → first.toNat + n ≤ 32 → first.toNat ≤ 31 →
      (bankIx x.activeBank = Fin.ofNat 2 bank.toNat → run = .next (after s (refuse u h 0x18 TS_ACTIVE 0))) ∧
      (bankIx x.activeBank ≠ Fin.ofNat 2 bank.toNat → (x.swapPending = true ∨ x.copyBusy = true) →
        run = .next (after s (refuse u h 0x18 BUSY 0))) ∧
      (bankIx x.activeBank ≠ Fin.ofNat 2 bank.toNat → x.swapPending = false → x.copyBusy = false →
        (∀ i, (records.take n).findIdx? (fun t => !recordOk t) = some i → run = .next (after s (refuse u h 0x18 BAD_PARAM i))) ∧
        ((records.take n).findIdx? (fun t => !recordOk t) = none → run = .next (after s
          (replyDone (pedieInject (putSets u r (Fin.ofNat 2 bank.toNat) first.toNat (records.take n)) r) h 0x18 0)))))) ∧
  (∀ (s : State) (h : Hdr), Admitted s h ⟨0x19, 1, .either, false, true, true, false⟩ ((gangs s (hdrRidges h)).map .ridge) →
    let u := ensureTaken s h 0x19
    let g := gangs u (hdrRidges h)
    let t := each g (fun s r => if swapWaits s r then modR s r fun x => { x with swapPending := true } else applySwap s r s.now) u
    (g.any (swapWaits u) = true → exec (.timingSwap h) s = .next (after s (replyAccepted t h 0x19 0 t.now))) ∧
    (g.any (swapWaits u) = false → exec (.timingSwap h) s = .next (after s (replyDone t h 0x19 0)))) ∧
  (∀ (s : State) (r : RidgeId), crossed s r = true → s.ridges[r].swapPending = true →
    exec (.timingSwapApply r) s = .next (after s (releaseBoundary
      (each (running s r) (fun s q => if s.ridges[q].swapPending then applySwap s q s.ridges[q].start else s) s) (running s r)))) ∧
  (∀ (s : State) (r : RidgeId), crossed s r = true →
    let k := gangOwl s (running s r)
    exec (.owlFactorApply r) s = .next (after s (releaseBoundary
      (each (running s r) (fun s q => modR s q fun x => { x with owlK := k, estimate := estimateOf (dividerD s q k) }) s)
      (running s r)))) ∧
  (∀ (s : State) (r : RidgeId), crossed s r = false → exec (.timingSwapApply r) s = .next (after s s) ∧
    exec (.owlFactorApply r) s = .next (after s s)) ∧
  (∀ (s : State) (r : RidgeId), s.ridges[r].copyBusy = true →
    ∃ t, exec (.timingCopyDone r) s = .next t ∧ t.ridges[r].copyBusy = false ∧
      t.ridges[r].banks[bankIx !s.ridges[r].activeBank] = s.ridges[r].banks[bankIx s.ridges[r].activeBank] ∧
      t.ridges[r].banks[bankIx s.ridges[r].activeBank] = s.ridges[r].banks[bankIx s.ridges[r].activeBank]) ∧
  (∀ (s : State) (r : RidgeId) (t : T64),
    let u := applySwap s r t
    u.ridges[r].activeBank = !s.ridges[r].activeBank ∧ u.ridges[r].swapPending = false ∧ u.ridges[r].copyBusy = true ∧
      u.ridges[r].banks = s.ridges[r].banks ∧ u.ridges[r].st = s.ridges[r].st ∧
      (∀ q : RidgeId, q ≠ r → u.ridges[q] = s.ridges[q]) ∧ u.pins = s.pins ∧ u.queues = s.queues)

/-- LAUNCH, LAUNCH_TICK, HALT and HALT_AT_BOUNDARY (R29, R41, R42, R59, R62, R95, R100, R142, R187, R288). An admitted
LAUNCH is refused as its checks say, else the whole gang is armed for one tick, at least 3,000 ticks away, and the reply is
ACCEPTED with that instant. At the tick every armed ridge of the gang with that instant starts at a segment boundary, which
a gang crosses once all its running ridges have reached it; before it nothing happens. HALT without ridges is BAD_PARAM;
with a time it is kept for every ridge and ACCEPTED; without one, park requests go to the gangs (DONE), or the gangs stop
and DONE follows when they are BOUND. At a boundary the oldest due request parks, cancels or ends the run. It says when
these rows complete: LAUNCH, LAUNCH_TICK, HALT, HALT_AT_BOUNDARY. -/
def Obligations.LaunchAndHalt : Prop :=
  (∀ (s : State) (h : Hdr) (resume bySite : Bool) (site : Byte) (mask : BitVec 16),
    let named := namedRidges s bySite site mask
    Admitted s h ⟨0x20, 2, .none, true, true, true, false⟩ (named.map .ridge) →
    let u := ensureTaken s h 0x20
    let soon := tickAfter (u.now + ticksFu 3000)
    let t := (startTime u h soon).getD soon
    (∀ st info, launchRefusal u named resume = some (st, info) →
      exec (.launch h resume bySite site mask) s = .next (after s (refuse u h 0x20 st info))) ∧
    (launchRefusal u named resume = none → exec (.launch h resume bySite site mask) s =
      .next (after s (replyAccepted (armLaunch u (gangs u named) resume t) h 0x20 0 t)))) ∧
  (∀ (s : State) (r : RidgeId), Live s → s.ridges[r].st = .armed → reached s.now s.ridges[r].launchAt = true →
    let g := (gang s r).filter fun q => decide (s.ridges[q].st = .armed ∧ s.ridges[q].launchAt = s.ridges[r].launchAt)
    let u := each g (startOne (gangOwl s g)) s
    exec (.launchTick r) s = .next (after s (crossIfDue (each g (fun s q => modR s q fun x => { x with atBoundary := true }) u) r))) ∧
  (∀ (s : State) (r : RidgeId), (¬Live s ∨ s.ridges[r].st ≠ .armed ∨ reached s.now s.ridges[r].launchAt = false) →
    exec (.launchTick r) s = .next (after s s)) ∧
  (∀ (s : State) (r : RidgeId), (∀ q ∈ running s r, s.ridges[q].atBoundary = true ∧ reached s.now s.ridges[q].start = true) →
    crossIfDue s r = crossBoundary s r) ∧
  (∀ (s : State) (h : Hdr) (park bySite : Bool) (site : Byte) (mask : BitVec 16),
    let named := namedRidges s bySite site mask
    Admitted s h ⟨0x21, 2, .none, true, true, true, false⟩ (named.map .ridge) →
    let u := ensureTaken s h 0x21
    let run := exec (.halt h park bySite site mask) s
    let when_ := startTime u h (tickAfter (u.now + ticksFu 3000))
    (named = [] → run = .next (after s (refuse u h 0x21 BAD_PARAM 0))) ∧
    (named ≠ [] → ∀ t, when_ = some t → run = .next (after s (replyAccepted (each (if park then named else gangs u named)
      (fun s r => modR s r fun x => { x with halts := x.halts ++ [⟨t, park⟩] }) u) h 0x21 0 t))) ∧
    (named ≠ [] → when_ = none → park = true → run = .next (after s (replyDone (each named postPark u) h 0x21 0))) ∧
    (named ≠ [] → when_ = none → park = false →
      run = .next (after s (doneWhen (each (gangs u named) haltNow u) h 0x21 (named.map .bound) [])))) ∧
  (∀ (s : State) (r : RidgeId) (a : HaltReq), Live s → s.ridges[r].halts.find? (fun h => reached s.now h.at_) = some a →
    let x := s.ridges[r]
    let gone := modR s r fun x => { x with halts := x.halts.erase a }
    let run := exec (.haltAtBoundary r) s
    (a.park = true → run = .next (after s (postPark gone r))) ∧
    (a.park = false → x.st = .armed → run = .next (after s (serveWaits (cancelLaunch gone r)))) ∧
    (a.park = false → (x.st = .parked ∨ x.st = .hold) → run = .next (after s (serveWaits (endRun gone r x.start)))) ∧
    (a.park = false → (x.st = .bound ∨ x.st = .unbound) → run = .next (after s gone)) ∧
    (a.park = false → x.st = .running → later a.at_ x.start = false → reached s.now x.start = true →
      run = .next (after s (parkCheck (leaveGang (settleMatch (each (running gone r) judge gone) r).1 r))))) ∧
  (∀ (s : State) (r : RidgeId), s.ridges[r].halts.find? (fun h => reached s.now h.at_) = none →
    exec (.haltAtBoundary r) s = .next (after s s))

/-- EVENT_JUMP_ARM, EVENT_JUMP_LATCH, EVENT_JUMP, HOLD_RESUME and HOLD_TIMEOUT (R56, R57, R58, R64, R80, R91, R97, R98,
R101). EVENT_JUMP_ARM disarms the gang, or arms it on a source and a target, refused on an UNBOUND ridge or over a quota
with BUSY and on an unusable target with its status. Once the event has arrived all running ridges of the gang latch the
jump at one vector boundary; 24 periods after it, of which a vector that started in the event's tick is the first, each goes
to its target with both stacks empty. A hold ends 4 ticks after the last segment of the gang has arrived, on the grid of the
ridge's last period; after 10 ms it is a contained fault of the ridge. It says when these rows complete: EVENT_JUMP_ARM,
EVENT_JUMP_LATCH, EVENT_JUMP, HOLD_RESUME, HOLD_TIMEOUT. -/
def Obligations.JumpsAndHolds : Prop :=
  (∀ (s : State) (h : Hdr) (source : Byte) (disarm : Bool) (target : Word),
    let r := hdrRidge h
    let a : Addr := ⟨BitVec.ofNat 20 (target.toNat / 1024), BitVec.ofNat 10 target.toNat⟩
    Admitted s h ⟨0x22, 2, .named, false, false, true, false⟩ [.ridge r, .handle a.seg.toNat] →
    let u := ensureTaken s h 0x22
    let g := gang u r
    let run := exec (.eventJumpArm h source disarm target) s
    let room := fun (q : RidgeId) => bindReq u.ridges[q].maxBody u.ridges[q].targets.length + 3 + u.ridges[q].pins.length
    (disarm = true → run = .next (after s
      (replyDone (restage (each g (fun s q => modR s q fun x => { x with arm := none }) u) g) h 0x22 0))) ∧
    (disarm = false → (∃ q ∈ g, u.ridges[q].st = .unbound) → run = .next (after s (refuse u h 0x22 BUSY 0))) ∧
    (disarm = false → (∀ q ∈ g, u.ridges[q].st ≠ .unbound) →
      (∀ st info, bindHandles u [a.seg] = some (st, info) → run = .next (after s (refuse u h 0x22 st info))) ∧
      (bindHandles u [a.seg] = none → (∃ q ∈ g, quota u q < room q) → run = .next (after s (refuse u h 0x22 BUSY 0))) ∧
      (bindHandles u [a.seg] = none → (∀ q ∈ g, room q ≤ quota u q) → run = .next (after s (replyDone (restage (reclaimLent
        (each g (fun s q => modR s q fun x => { x with arm := some ⟨source, a, false, 0⟩ }) u)) g) h 0x22 0))))) ∧
  (∀ (s : State) (r : RidgeId) (a : Arm), Live s → s.ridges[r].arm = some a → a.arrived = true → s.ridges[r].jumpIn = none →
    (s.ridges[r].st = .running ∨ s.ridges[r].st = .hold) → (∀ q ∈ gang s r,
      (s.ridges[q].st = .running ∨ s.ridges[q].st = .hold) → latchPeriod s.ridges[q] a.at_ = latchPeriod s.ridges[r] a.at_) →
    ∃ t, exec (.eventJumpLatch r) s = .next t ∧ ∀ q ∈ gang s r, (s.ridges[q].st = .running ∨ s.ridges[q].st = .hold) →
      ∀ b, s.ridges[q].arm = some b → t.ridges[q].arm = none ∧ t.ridges[q].jumpIn = some (24 - if ranSince s.ridges[q] a.at_ then 1 else 0) ∧ t.ridges[q].jumpTo = b.target) ∧
  (∀ (s : State) (r : RidgeId), Live s → s.ridges[r].st = .running → s.ridges[r].jumpIn = some 0 → s.ridges[r].atBoundary = false → s.ridges[r].applyWait = false →
    s.ridges[r].after = .go → reached s.now s.ridges[r].start = true → haltDue s.ridges[r] = false →
    let u := modR (settleMatch (each (running s r) judge s) r).1 r fun x =>
      { x with loops := [], calls := [], jumpIn := none, open_ := x.open_.filter (!·.isRep) }
    exec (.eventJump r) s = .next (after s (parkCheck (restage (goTo u r s.ridges[r].jumpTo true) [r])))) ∧
  (∀ (s : State) (r : RidgeId) (a : T64), Live s → s.ridges[r].st = .hold →
    let g := (gang s r).filter fun q => decide (s.ridges[q].st = .hold)
    let t := a + ticksFu 4
    lastArrival s g = some a → reached s.now t = true → (∀ q ∈ g, s.ridges[q].pc.seg ∈ s.ridges[q].resident) →
    exec (.holdResume r) s = .next (after s (crossIfDue (each g (fun s q =>
      let start := gridPoint s.ridges[q].start t s.ridges[q].lastPeriod
      writeSpecial (modR s q fun x => { x with st := .running, start := start, arrival := none, atBoundary := true }) q start
        [specialRec 4 start.toNat] false) s) r))) ∧
  (∀ (s : State) (r : RidgeId), Live s → s.ridges[r].st = .hold → msTicks 10 ≤ s.ticks - s.ridges[r].holdSince →
    exec (.holdTimeout r) s = .next (after s (parkCheck (ridgeFault s r 6 none false))))

/-- Every opcode of Table 2-5: what its vector does and what follows it (R33, R38, R39, R44, R45, R46, R48, R49, R51, R60,
R65, R69). When the sequencer executes a vector, its drivers, compares and record run for one period, and then, by opcode:
NOP, APG_LOAD, APG_OP, CLR_FAIL, SIGNAL and CHECKPOINT continue in order after their own effect; REPEAT again until its
count is reached; LOOP_BEGIN and CALL push the next address; LOOP_END, LOOP_EXIT and RET pop; the jumps jump on their
condition; MATCH repeats and MATCH_END ends it on every ridge of the gang; HALT ends the run; a parking CHECKPOINT takes the
address at which the run resumes, an event jump's target if one is due there, and parks as the vector completes; a parity
error and a code outside the table are faults at ridge scope whose vector is not executed. It says when these rows complete:
NOP, REPEAT, LOOP_BEGIN, LOOP_END, LOOP_EXIT, JUMP, CALL, RET, JUMP_FAIL, JUMP_PASS, JUMP_TIMEOUT, CLR_FAIL, MATCH,
MATCH_END, APG_LOAD, APG_OP, SIGNAL, CHECKPOINT, HALT_OPCODE, ILLEGAL_OPCODE. -/
def Obligations.VectorOpcodes : Prop :=
  (∀ (s : State) (r : RidgeId) (v : Vec), Executes s r v →
    let u := seen s r
    let w := onePeriod s r v
    let goes := fun (t : State) (f : Flow) => Host.Outcome.next (after s (parkCheck (follow t r f)))
    (v.opcode = 0x00 → exec (.nop r false) s = goes (advance w r v) .inOrder) ∧
    (v.opcode = 0x01 → exec (.repeatVector r) s = goes (modR (advance w r v) r fun x => { x with rep := x.rep + 1 })
      (if max 1 v.operand ≤ u.ridges[r].rep + 1 then .inOrder else .again)) ∧
    (v.opcode = 0x02 → u.ridges[r].loops.length < 8 → exec (.loopBegin r) s = goes (advance (modR w r fun x =>
      { x with loops := (pushAddr u r, BitVec.ofNat 32 (max 1 v.operand)) :: x.loops }) r v) .inOrder) ∧
    (∀ a n rest, v.opcode = 0x03 → u.ridges[r].loops = (a, n) :: rest →
      (1 < n.toNat → exec (.loopEnd r) s = goes (advance (modR w r fun x => { x with loops := (a, n - 1) :: rest }) r v) (.jump a)) ∧
      (n.toNat ≤ 1 → exec (.loopEnd r) s = goes (advance (modR w r fun x => { x with loops := rest }) r v) .inOrder)) ∧
    (v.opcode = 0x04 → u.ridges[r].loops ≠ [] →
      exec (.loopExit r) s = goes (advance (modR w r fun x => { x with loops := x.loops.tail }) r v) (.jump v.target)) ∧
    (v.opcode = 0x05 → exec (.jump r) s = goes (advance w r v) (.jump v.target)) ∧
    (v.opcode = 0x06 → u.ridges[r].calls.length < 8 → exec (.call r) s = goes (advance (modR w r fun x =>
      { x with calls := pushAddr u r :: x.calls }) r v) (.jump v.target)) ∧
    (∀ a rest, v.opcode = 0x07 → u.ridges[r].calls = a :: rest →
      exec (.ret r) s = goes (advance (modR w r fun x => { x with calls := rest }) r v) (.jump a)) ∧
    (v.opcode = 0x08 → exec (.jumpFail r) s =
      goes (advance w r v) (if flagSeen s r then .jump v.target else .inOrder)) ∧
    (v.opcode = 0x09 → exec (.jumpPass r) s =
      goes (advance w r v) (if flagSeen s r then .inOrder else .jump v.target)) ∧
    (v.opcode = 0x0A → exec (.jumpTimeout r) s =
      goes (advance w r v) (if u.ridges[r].matchOut = .timedOut then .jump v.target else .inOrder)) ∧
    (v.opcode = 0x0B → exec (.clrFail r) s = goes (advance (modR w r fun x =>
      { x with cleared := x.period, firstFail := none, failNow := false, failSeen := false }) r v) .inOrder) ∧
    (v.opcode = 0x0C → matchState u r v = .goesOn → exec (.matchVector r) s = .next (after s
      (parkCheck (modR (vectorPeriod u r v true) r fun x => { x with rep := x.rep + 1 })))) ∧
    (v.opcode = 0x10 → exec (.apgLoad r) s = goes (modR w r fun x =>
      { x with apg := x.apg.loadAdv (bits v.operand 28 24) (BitVec.ofNat 24 v.operand) v.adv }) .inOrder) ∧
    (v.opcode = 0x11 → exec (.apgOp r) s =
      goes (modR w r fun x => { x with apg := x.apg.oper (bits v.operand 7 0) true true }) .inOrder) ∧
    (v.opcode = 0x18 → exec (.signal r) s = goes (advance (raise w r.val (bits v.operand 7 0)) r v) .inOrder) ∧
    (v.opcode = 0x19 →
      let t := modR (advance w r v) r fun x => { x with checkpoint := BitVec.ofNat 16 v.operand, ckptValid := true }
      ((t.ridges[r].park = false ∨ haltDue t.ridges[r] = true) → exec (.checkpoint r) s = goes t .inOrder) ∧
      (t.ridges[r].park = true → haltDue t.ridges[r] = false →
        (t.ridges[r].jumpIn = some 0 → exec (.checkpoint r) s = .next (after s (parkCheck (endWith (modR t r fun x =>
          { x with pc := x.jumpTo, lastSeg := x.pc.seg, rep := 0, repFails := [], jumpIn := none, loops := [], calls := [] }) r .park)))) ∧
        (∀ a, t.ridges[r].jumpIn ≠ some 0 → nextAddr t r = some a →
          exec (.checkpoint r) s = .next (after s (parkCheck (endWith (modR t r fun x =>
            { x with pc := a, lastSeg := x.pc.seg, rep := 0, repFails := [] }) r .park)))))) ∧
    (v.opcode = 0x1F → exec (.haltOpcode r) s = goes (advance w r v) .stop) ∧
    (opcodeKnown v.opcode = false → exec (.illegalOpcode r) s =
      .next (after s (parkCheck (ridgeFault u r 1 (some (addrCode u.ridges[r].pc)) false))))) ∧
  (∀ (s : State) (r : RidgeId) (v : Vec), vecReady s r = true → vecAt s r = some v →
    exec (.nop r true) s = .next (after s (parkCheck (ridgeFault s r 0 (some (addrCode s.ridges[r].pc)) false)))) ∧
  (∀ (s : State) (r : RidgeId), vecReady s r = true →
    let m := settleMatch (each (running s r) judge s) r
    exec (.matchEnd r) s = .next (after s (parkCheck (each m.2 (fun s q => follow s q .inOrder) m.1)))) ∧
  (∀ (s : State) (r : RidgeId), vecReady s r = false →
    exec (.nop r true) s = .next (after s s) ∧ exec (.matchEnd r) s = .next (after s s) ∧ exec (.jump r) s = .next (after s s))

/-- A vector lasts D times its set's period, and its ridge alone moves on (R31, R43, R99, R103, R104, R108, R117). After the
period of a vector its ridge starts the next one later by D × (1,024 × N + F) fine units, with the N and F of the timing set
that the vector names in the active bank (the set's field holds N − 1), where D is the ridge's divider times Owl's factor;
its period count is one higher, its entry joins those not yet judged, and neither the program counter nor the stacks move.
No other ridge, no supply and no queue of another ridge changes, and no pin of another ridge. -/
def Obligations.PeriodOfAVector : Prop :=
  ∀ (s : State) (r : RidgeId) (v : Vec) (isRep : Bool),
    let x := s.ridges[r]
    let t := x.banks[bankIx x.activeBank][v.tset]
    let p := divider s r * 2 ^ x.owlK * (1024 * (t.nMinus1.toNat + 1) + t.fine.toNat)
    let u := vectorPeriod s r v isRep
    u.ridges[r].start = x.start + BitVec.ofNat 64 p ∧ u.ridges[r].lastPeriod = p ∧ u.ridges[r].period = x.period + 1 ∧
      u.ridges[r].pc = x.pc ∧ u.ridges[r].loops = x.loops ∧ u.ridges[r].calls = x.calls ∧ u.ridges[r].st = x.st ∧
      u.ridges[r].open_.length = x.open_.length + 1 ∧ u.ridges[r].entries = x.entries + (if isRep then 0 else 1) ∧
      (∀ q : RidgeId, q ≠ r → u.ridges[q] = s.ridges[q]) ∧ (∀ q : PinId, pinRidge q ≠ r → u.pins[q] = s.pins[q]) ∧
      u.dps = s.dps ∧ u.now = s.now

/-- The loop and call stacks hold 8 entries, and an overflow or underflow is a fault of the ridge (R47). LOOP_BEGIN with
fewer than 8 loops open, whatever calls are open, and CALL with fewer than 8 calls open, are executed and push one entry;
LOOP_BEGIN with 8 loops open, CALL with 8 calls open, LOOP_END and LOOP_EXIT with no loop open and RET with no call open are
contained faults at ridge scope, with the vector's address, in place of the vector: nothing of it is executed. -/
def Obligations.StackFaults : Prop :=
  (∀ (s : State) (r : RidgeId) (v : Vec), Executes s r v →
    let u := seen s r
    let fault := Host.Outcome.next (after s (parkCheck (ridgeFault u r 2 (some (addrCode u.ridges[r].pc)) false)))
    (v.opcode = 0x02 → 8 ≤ u.ridges[r].loops.length → exec (.loopBegin r) s = fault) ∧
    (v.opcode = 0x06 → 8 ≤ u.ridges[r].calls.length → exec (.call r) s = fault) ∧
    (v.opcode = 0x03 → u.ridges[r].loops = [] → exec (.loopEnd r) s = fault) ∧
    (v.opcode = 0x04 → u.ridges[r].loops = [] → exec (.loopExit r) s = fault) ∧
    (v.opcode = 0x07 → u.ridges[r].calls = [] → exec (.ret r) s = fault) ∧
    (v.opcode = 0x02 → u.ridges[r].loops.length < 8 → ∃ t, exec (.loopBegin r) s = .next (after s (parkCheck (follow t r .inOrder))) ∧
      t.ridges[r].loops.length = u.ridges[r].loops.length + 1 ∧ t.ridges[r].calls = u.ridges[r].calls) ∧
    (v.opcode = 0x06 → u.ridges[r].calls.length < 8 →
      ∃ t, exec (.call r) s = .next (after s (parkCheck (follow t r (.jump v.target)))) ∧
      t.ridges[r].calls.length = u.ridges[r].calls.length + 1 ∧ t.ridges[r].loops = u.ridges[r].loops)) ∧
  (∀ (s : State) (r : RidgeId), (seen s r).ridges[r].loops = s.ridges[r].loops ∧ (seen s r).ridges[r].calls = s.ridges[r].calls) ∧
  (∀ (s : State) (r : RidgeId) (detail : Option Nat),
    ridgeFault s r 2 detail false = contained s ⟨Fin.castLE (by decide) r, 2, .contained, 4, r.val, detail, false, false⟩ (abortGang r))

/-- JUMP_TIMEOUT tests the outcome of the last MATCH; after a launch it is NONE and never jumps (R53). A launch sets the
outcome to NONE; the end of a MATCH on a ridge sets it to matched or timed out; a vector's period, the flow to its next
address and the APG leave it; JUMP_TIMEOUT jumps exactly when it is timed out, so with NONE it continues in order. -/
def Obligations.MatchOutcome : Prop :=
  (∀ (x : Ridge) (sites : List (Fin 64)) (k : Nat), (x.startRun sites k).matchOut = .none) ∧
  (∀ (s : State) (q : RidgeId) (b : Bool), (vecAt s q).isSome = true →
    (endMatchOne b s q).ridges[q].matchOut = if b then .timedOut else .matched) ∧
  (∀ (s : State) (r q : RidgeId) (v : Vec) (b : Bool), (vectorPeriod s r v b).ridges[q].matchOut = s.ridges[q].matchOut ∧
    (advance s r v).ridges[q].matchOut = s.ridges[q].matchOut ∧ (seen s r).ridges[q].matchOut = s.ridges[q].matchOut) ∧
  (∀ (s : State) (r : RidgeId) (v : Vec), Executes s r v → v.opcode = 0x0A →
    let w := advance (onePeriod s r v) r v
    (s.ridges[r].matchOut = .timedOut → exec (.jumpTimeout r) s = .next (after s (parkCheck (follow w r (.jump v.target))))) ∧
    (s.ridges[r].matchOut ≠ .timedOut → exec (.jumpTimeout r) s = .next (after s (parkCheck (follow w r .inOrder)))) ∧
    (s.ridges[r].matchOut = .none → exec (.jumpTimeout r) s = .next (after s (parkCheck (follow w r .inOrder)))))

/-- EVENT_ROUTE, SITE_MAP, CAL_RUN, CAL_RUN_DONE and BG_CAL (R10, R119, R288, R345, R347, R349, R364). EVENT_ROUTE refuses
an action above 56 with BAD_PARAM, else sets or clears that one bit of the source's row and no other. SITE_MAP refuses a
site above 63 or a pin of another site with BAD_PARAM and a running ridge of the old or new set with BUSY, else the site is
the set of pins given, or empty. CAL_RUN refuses an empty or unknown SCOPE with BAD_PARAM and parts in use with BUSY, else
it goes to Fox and its results take effect together at CAL_RUN_DONE, whose one DONE follows once the pins in scope have
their modes again: the items in scope are the new base of the background correction, the working copy holds them, and
GLB_CAL_FAIL names the first failure. BG_CAL in a free gap keeps the converter's correction within its bound of what CAL_RUN
left, and reports a cut. It says when these rows complete: EVENT_ROUTE, SITE_MAP, CAL_RUN, CAL_RUN_DONE, BG_CAL. -/
def Obligations.RoutesSitesAndCalibration : Prop :=
  (∀ (s : State) (h : Hdr) (source action : Byte) (enable : Bool), Admitted s h ⟨0x38, 2, .none, false, true, true, false⟩ [] →
    let u := ensureTaken s h 0x38
    (57 ≤ action.toNat → exec (.eventRoute h source action enable) s = .next (after s (refuse u h 0x38 BAD_PARAM 0))) ∧
    (action.toNat ≤ 56 → ∃ routes : Vector (BitVec 64) 256,
      exec (.eventRoute h source action enable) s =
        .next (after s (replyDone { u with events := { u.events with routes := routes } } h 0x38 0)) ∧
      ∀ (i : Fin 256) (k : Nat), k < 64 → (routes[i]).getLsbD k =
        if i.val = source.toNat ∧ k = action.toNat then enable else (s.events.routes[i]).getLsbD k)) ∧
  (∀ (s : State) (h : Hdr) (site : Byte) (clear : Bool) (mask : BitVec 256), Admitted s h ⟨0x40, 4, .none, false, true, true, false⟩ [] →
    let u := ensureTaken s h 0x40
    let m := if clear then 0#256 else mask
    let run := exec (.siteMap h site clear mask) s
    (64 ≤ site.toNat → run = .next (after s (refuse u h 0x40 BAD_PARAM 0))) ∧
    (∀ k : Fin 64, site.toNat = k.val → (∃ j : Fin 64, j ≠ k ∧ u.sites[j] &&& m ≠ 0#256) →
      run = .next (after s (refuse u h 0x40 BAD_PARAM 0))) ∧
    (∀ k : Fin 64, site.toNat = k.val → (∀ j : Fin 64, j ≠ k → u.sites[j] &&& m = 0#256) →
      ((∃ r ∈ maskRidges (u.sites[k] ||| m), runs u r = true) → run = .next (after s (refuse u h 0x40 BUSY 0))) ∧
      ((∀ r ∈ maskRidges (u.sites[k] ||| m), runs u r = false) →
        run = .next (after s (replyDone { u with sites := u.sites.set k m } h 0x40 0))))) ∧
  (∀ (s : State) (h : Hdr) (scope : Byte), Admitted s h ⟨0x48, 2, .either, false, false, true, false⟩ ((hdrRidges h).map .ridge) →
    let u := ensureTaken s h 0x48
    let rs := hdrRidges h
    let busy := (rs.any fun r => runs u r || portBusy u.ports[r]) || (bit scope.toNat 2 && (calConverters rs).any (convHeld u))
    let run := exec (.calRun h scope) s
    ((scope.toNat = 0 ∨ 31 < scope.toNat) → run = .next (after s (refuse u h 0x48 BAD_PARAM 0))) ∧
    (scope.toNat ≠ 0 → scope.toNat ≤ 31 → busy = true → run = .next (after s (refuse u h 0x48 BUSY 0))) ∧
    (scope.toNat ≠ 0 → scope.toNat ≤ 31 → busy = false → run = .next (after s
      (endUnready (settle (startLong { u with cal := { u.cal with running := true } } h 0x48 (.calRun scope rs))))))) ∧
  (∀ (s : State) (l : Long) (scope : Byte) (rs : List RidgeId) (results : List CalResult), Live s → Canonical s →
    findLong s (fun j => match j with | .calRun _ _ => true | _ => false) = some l → l.job = .calRun scope rs →
    s.smons[(10 : Fin 12)].released = true → s.smons[(11 : Fin 12)].released = true →
    let mine := results.filter (inCalScope scope.toNat rs)
    let pins := rs.flatMap fun r => (List.finRange 16).map fun i => WaitOn.pin (pinOf r i)
    ∃ v, exec (.calRunDone results) s = .next (after s (waitFor (settle (replaceJobs (each rs dpsApply v)))
        ⟨l.hdr, 0x48, pins, changedWords s v, 0, some (s.cal, s.working)⟩)) ∧
      v.cal.valid = true ∧ v.cal.base = calBase { s.cal with items := v.cal.items } (calKeys scope.toNat rs mine) ∧
      v.cal.running = v.link.longs.any (fun l => match l.job with | .calRun _ _ => true | _ => false) ∧
      v.link.longs = s.link.longs.filter (· ≠ l) ∧ word v gCALFAIL = BitVec.ofNat 32 (calFailWord mine) ∧
      v.working = s.working.map fun w => { w with cal := v.cal.items, oos := v.cal.oos }) ∧
  (∀ (s : State) (c : Fin 64) (gain offset : Int), isSet s gCALCFG 0 = true → booted s = true → Live s → convInCal s c.val = false →
    clear (convBooked s none c.val) 0 (usFu 20) = true → swf calDflt s.cal.items = true →
    let base := (sget calDflt s.cal.base (calKey 4 c.val 0)).toNat
    ∃ t, exec (.bgCal c gain offset) s = .next t ∧ (sget calDflt t.cal.items (calKey 4 c.val 0)).toNat =
      (clampI 0 65535 (clampI ((bits base 15 0 : Nat) - Config.bgGain) ((bits base 15 0 : Nat) + Config.bgGain) gain)).toNat +
        unsign 16 (clampI (-32768) 32767
          (clampI (signed 16 (bits base 31 16) - Config.bgOffset) (signed 16 (bits base 31 16) + Config.bgOffset) offset)))

/-- FAULT_CLEAR, FAULT_INJECT, FW_UPDATE, SAVE_STATE, RESTORE_STATE, RSI_APPLY and their ends (R162, R336, R341, R352, R353,
R354, R355, R377, R390, R391). FAULT_CLEAR takes the log entries of its mask and the latch bits that it may clear.
FAULT_INJECT refuses a source above 31, a COUNT of 0 and a fatal injection that is not allowed with BAD_PARAM, a pending
source with BUSY, else the injection waits. FW_UPDATE checks target, alignment, Fox, length and image, erases the slot and
starts; FW_UPDATE_DONE programs the slot, and in loader mode a firmware update restarts the boot at STAGE 1. SAVE_STATE
takes the next generation into the slot that holds neither copy and is DONE with it when the slot reads back. RESTORE_STATE
applies the copy that SOURCE names on an idle device. At STAGE 5 with the calibration done RSI_APPLY applies the newer good
copy, else the other, else the defaults, and enters STAGE 6. It says when these rows complete: SAVE_STATE, SAVE_STATE_DONE,
RESTORE_STATE, FAULT_CLEAR, FAULT_INJECT, FW_UPDATE, FW_UPDATE_DONE, RSI_APPLY. -/
def Obligations.FaultsFirmwareAndImages : Prop :=
  (∀ (s : State) (h : Hdr) (mask : BitVec 64), Admitted s h ⟨0x51, 2, .none, false, false, true, false⟩ [] →
    let u := ensureTaken s h 0x51
    let v := { u with bear := { u.bear with log := u.bear.log.filter fun e => !mask.getLsbD e.bit.val } }
    exec (.faultClear h mask) s = .next (after s (replyDone (clearLatch v mask) h 0x51 0))) ∧
  (∀ (s : State) (h : Hdr) (source count : Byte), Admitted s h ⟨0x52, 2, .none, false, false, false, false⟩ [] →
    let u := ensureTaken s h 0x52
    let n := count.toNat % 128
    let dbl := bit count.toNat 7
    let b : Fin 64 := Fin.ofNat 64 source.toNat
    let run := exec (.faultInject h source count) s
    ((32 ≤ source.toNat ∨ n = 0 ∨ (injectFatal source.toNat dbl = true ∧ isSet u gFAULTCFG 28 = false)) →
      run = .next (after s (refuse u h 0x52 BAD_PARAM 0))) ∧
    (source.toNat < 32 → n ≠ 0 → (injectFatal source.toNat dbl = true → isSet u gFAULTCFG 28 = true) →
      ((injectOn u b).isSome = true → run = .next (after s (refuse u h 0x52 BUSY 0))) ∧
      (injectOn u b = none → run = .next (after s
        (replyDone { u with bear := { u.bear with inject := u.bear.inject ++ [⟨b, n, dbl⟩] } } h 0x52 0))))) ∧
  (∀ (s : State) (h : Hdr) (target : Byte) (len : Word) (addr : BitVec 64) (img : FwImage),
    Admitted s h ⟨0x60, 2, .none, false, false, true, true⟩ [.flash] →
    let u := ensureTaken s h 0x60
    let patch := target == 1
    let n := len.toNat
    let fox := if u.boot.stage = 7 then !isSet u (gCSPCFG 0) 0 else foxFlash u
    let long := n < 256 ∨ (fwSlot patch).2 < n ∨ n ≠ 256 + img.payloadLen.toNat
    let run := exec (.fwUpdate h target len addr img) s
    ((1 < target.toNat ∨ addr.toNat % 64 ≠ 0) → run = .next (after s (refuse u h 0x60 BAD_PARAM 0))) ∧
    (target.toNat ≤ 1 → addr.toNat % 64 = 0 →
      (fox = false → run = .next (after s (refuse u h 0x60 BUSY 0))) ∧
      (fox = true → long → run = .next (after s (refuse u h 0x60 BAD_PARAM 0))) ∧
      (fox = true → ¬ long → imageCheck u.boot.fuses patch img ≠ 0 → run = .next (after s (refuse u h 0x60 AUTH_FAIL 0))) ∧
      (fox = true → ¬ long → imageCheck u.boot.fuses patch img = 0 →
        run = .next (after s (startLong (eraseImage u patch) h 0x60 (.fwUpdate patch img)))))) ∧
  (∀ (s : State) (l : Long) (patch : Bool) (img : FwImage), Live s →
    findLong s (fun j => match j with | .fwUpdate _ _ => true | _ => false) = some l → l.job = .fwUpdate patch img →
    ∃ t, exec .fwUpdateDone s = .next t ∧
      t.flash = (if patch then { s.flash with patch := some img } else { s.flash with firmware := some img }) ∧
      (s.boot.stage = 7 → patch = false → t.boot.stage = 1 ∧ t.boot.mode = .normal ∧ t.boot.romLoader = true) ∧
      (s.boot.stage ≠ 7 ∨ patch = true → t.boot = s.boot)) ∧
  (∀ (s : State) (h : Hdr), Admitted s h ⟨0x08, 1, .none, false, false, true, false⟩ [.flash] →
    let u := ensureTaken s h 0x08
    let g := topGeneration u.flash
    let k := saveSlot u.flash
    let run := exec (.saveState h) s
    (foxFlash u = false → run = .next (after s (refuse u h 0x08 BUSY 0))) ∧
    (foxFlash u = true → g = 0xFFFFFFFF → run = .next (after s (refuse u h 0x08 BAD_PARAM 0))) ∧
    (foxFlash u = true → g ≠ 0xFFFFFFFF → run = .next (after s (startLong
      (eraseSlot { u with working := some (snapshot u) } k) h 0x08
      (.save k (saveLabelB u.flash) (BitVec.ofNat 32 (g + 1)) (snapshot u)))))) ∧
  (∀ (s : State) (l : Long) (k : Fin 3) (b : Bool) (g : Word) (i : Retained), Live s →
    findLong s (fun j => match j with | .save _ _ _ _ => true | _ => false) = some l → l.job = .save k b g i →
    let t := dropLong s l
    exec (.saveStateDone true) s = .next (after s
      (replyDone { t with flash := { t.flash with slots := t.flash.slots.set k (some ⟨b, g, i⟩) } } l.hdr 0x08 g.toNat)) ∧
    exec (.saveStateDone false) s = .next (after s
      (refuse (contained t ⟨37, 0, .contained, 0, 0, none, false, false⟩ id) l.hdr 0x08 ABORTED_FAULT 0))) ∧
  (∀ (s : State) (h : Hdr) (source : Byte) (crcOk : Bool), Admitted s h ⟨0x09, 2, .none, false, false, true, false⟩ [.flash] →
    let u := ensureTaken s h 0x09
    let busy := !foxFlash u || (allRidges.any fun r => runs u r) || u.tickets != [] || u.ports.toList.any awgPlays || u.link.timed != []
    let run := exec (.restoreState h source crcOk) s
    (busy = true → run = .next (after s (refuse u h 0x09 BUSY 0))) ∧
    (busy = false → (2 < source.toNat ∨ restoreCopy u source.toNat = none ∨ crcOk = false) →
      run = .next (after s (refuse u h 0x09 BAD_PARAM 0))) ∧
    (∀ b x, busy = false → source.toNat ≤ 2 → restoreCopy u source.toNat = some (b, x) → crcOk = true →
      let off := each allRidges (fun s n => putField (modDps s n (Dps.toOff true)) (dpsW n 0) 1 0 0) u
      run = .next (after s (replyDone (dpsPowerUp
        (imageApplied (applyImage off x.image) (if b then 2 else 1) x.generation.toNat (some x.image))) h 0x09 0)))) ∧
  (∀ (s : State) (ok other : Bool), s.boot.stage = 5 → s.boot.calDone = true → s.owl.shutdown = false →
    let b := newerIsB s.flash
    let done_ := fun (t : State) => Host.Outcome.next (after s (dpsPowerUp { t with boot := { t.boot with stage := 6 } }))
    let use := fun (copyB : Bool) (x : RSlot) =>
      done_ (imageApplied (applyImage s x.image) (if copyB then 2 else 1) x.generation.toNat (some x.image))
    (∀ x, ok = true → copyContent s.flash (copyOf s.flash b) = some x → exec (.rsiApply ok other) s = use b x) ∧
    (∀ x, (ok = false ∨ copyContent s.flash (copyOf s.flash b) = none) → other = true →
      copyContent s.flash (copyOf s.flash !b) = some x → exec (.rsiApply ok other) s = use (!b) x) ∧
    ((ok = false ∨ copyContent s.flash (copyOf s.flash b) = none) →
      (other = false ∨ copyContent s.flash (copyOf s.flash !b) = none) →
      exec (.rsiApply ok other) s = done_ (imageApplied { s with events := { s.events with routes := Vector.replicate 256 0 } } 0 0 none)))

/-- The Dectik ring: links, enumeration, packets, replies and events (R281, R289, R291, R292, R293, R296, R297, R298, R300,
R301, R302, R364). An unacknowledged frame is sent again after 2 µs, up to 8 times in all, and counted. A link that fails
goes down with its break position, and what was in flight on it leaves by the other link; a restored one clears it. The
Summit starts an enumeration once booted with its links up, sends again after 10 ms, closes the ring at its own token with
its own entry, and stops at a foreign one; a follower takes the token's count as its position, adds its entry and forwards
it, and learns the members of the closed ring. RING_ENUM is served by the Summit alone, at an 8-aligned address. A packet is
taken by the member it addresses, a MULTICAST by every member it passes, and all else passes on; DMA is issued by the
Summit; a reply reaches the packet that waits for it, or passes on; a ring event raises its source with the sender's
position and passes on until it is back at its sender. A frame that is not the next of its lanes is dropped. It says when
these rows complete: RING_ENUM, LINK_FRAME_RESEND, LINK_DOWN, LINK_RESTORED, RING_PACKET_ARRIVAL, RING_REPLY_ARRIVAL,
ENUM_START, ENUM_RETRY, ENUM_TOKEN, RING_EVENT_RECEIVE. -/
def Obligations.RingLinksAndEnumeration : Prop :=
  (∀ (s : State) (portB : Bool),
    (∀ f, oldestFrame s portB = some f → unanswered s f = true → f.sends < 8 →
      exec (.linkFrameResend portB) s = .next (after s (bump (modRing s fun r => { r with
        outbox := r.outbox.map fun x => if x = f then { f with sends := f.sends + 1, sentAt := s.ticks } else x }) gRINGRETRY 1))) ∧
    ((∀ f, oldestFrame s portB = some f → unanswered s f = false ∨ 8 ≤ f.sends) →
      exec (.linkFrameResend portB) s = .next (after s s))) ∧
  (∀ (s : State) (l : LinkTime), s.boot.por = false → linkUp s l.link = true → linkFailed s l.link l.ticks = true →
    ∃ t, exec (.linkDown l) s = .next t ∧
    (l.link = .a → t.ring.aUp = false ∧ ∀ f ∈ t.ring.outbox, f.portB = true) ∧
    (l.link = .b → t.ring.bUp = false ∧ ∀ f ∈ t.ring.outbox, f.portB = false) ∧ (∀ p, l.link = .far p → p.toNat ∈ t.ring.far) ∧
    t.ring.breakPos = (if s.ring.breakPos = 0xFF#8 then BitVec.ofNat 8 (linkUpstream s l.link) else s.ring.breakPos) ∧
    t.ring.members = s.ring.members ∧ t.ring.position = s.ring.position) ∧
  (∀ (s : State) (l : LinkTime), (s.boot.por = true ∨ linkUp s l.link = false ∨ linkFailed s l.link l.ticks = false) →
    exec (.linkDown l) s = .next (after s s)) ∧
  (∀ (s : State) (l : LinkTime), s.boot.por = false → (msTicks 1 ≤ l.ticks ∨ ∃ p, l.link = .far p) →
    ∃ t, exec (.linkRestored l) s = .next t ∧
    (l.link = .a → t.ring.aUp = true) ∧ (l.link = .b → t.ring.bUp = true) ∧ (∀ p, l.link = .far p → p.toNat ∉ t.ring.far) ∧
    (downLinks t = [] → t.ring.breakPos = 0xFF#8)) ∧
  (∀ s : State, s.boot.straps.mstr = true → booted s = true → s.ring.aUp = true → s.ring.bUp = true → s.ring.twoSummit = false →
    s.ring.enumerated = false → s.ring.tokenSent = false → exec .enumStart s = .next (after s (sendToken s))) ∧
  (∀ s : State, s.ring.tokenSent = true → s.ring.twoSummit = false → s.boot.por = false → msTicks 10 ≤ s.ticks - s.ring.enumTick →
    exec .enumRetry s = .next (after s (sendToken (ringEnumEnds s 4)))) ∧
  (∀ (s : State) (v : Via) (count : BitVec 8) (own closed : Bool) (es : List Member),
    let run := exec (.enumToken v count own closed es) s
    let u := received s v
    (nextFrame s v = false → run = .next (after s s)) ∧
    (nextFrame s v = true → v.reverse = true →
      run = .next (after s (passOn u v (if closed then .membership es else .token count es)))) ∧
    (nextFrame s v = true → v.reverse = false →
      (s.boot.straps.mstr = true → own = false → run = .next (after s (foreignToken u))) ∧
      (s.boot.straps.mstr = true → own = true → s.ring.tokenSent = true → closed = false → run = .next (after s (tokenReturns es u))) ∧
      (s.boot.straps.mstr = false → closed = true → run = .next (after s (learnMembers es u))) ∧
      (s.boot.straps.mstr = false → closed = false → run = .next (after s (tokenPasses count es u))))) ∧
  (∀ (s : State) (count : BitVec 8) (es : List Member), (tokenPasses count es s).ring.position = BitVec.ofNat 7 count.toNat ∧
    (s.ring.bUp = true → (tokenPasses count es s).ring.outbox.map (fun f => (f.portB, f.msg)) =
      s.ring.outbox.map (fun f => (f.portB, f.msg)) ++ [(true, .token (count + 1) (es ++ [myEntry s]))])) ∧
  (∀ (s : State) (es : List Member), (tokenReturns es s).ring.enumerated = true ∧ (tokenReturns es s).ring.position = 0 ∧
    (s.ring.fixed = false → (tokenReturns es s).ring.members =
      (es.set 0 (myEntry s)).map fun m => { m with quarantined := differs (myFw s) (myPatch s) m, reachable := true }) ∧
    (learnMembers es s).ring.enumerated = true ∧ (learnMembers es s).ring.members = es) ∧
  (∀ (s : State) (h : Hdr) (addr : BitVec 64), Admitted s h ⟨0x58, 2, .none, false, false, true, false⟩ [.dectik] →
    let u := ensureTaken s h 0x58
    let run := exec (.ringEnum h addr) s
    (u.boot.straps.mstr = false → run = .next (after s (refuse u h 0x58 BAD_TARGET 0))) ∧
    (u.boot.straps.mstr = true → addr.toNat % 8 ≠ 0 → run = .next (after s (refuse u h 0x58 BAD_PARAM 0))) ∧
    (u.boot.straps.mstr = true → addr.toNat % 8 = 0 →
      (u.ring.twoSummit = true → run = .next (after s (ringAnswer u h addr 3))) ∧
      (u.ring.twoSummit = false → u.ring.state = 2 → run = .next (after s (ringAnswer u h addr 2))) ∧
      (u.ring.twoSummit = false → u.ring.state ≠ 2 → run = .next (after s (sendToken (startLong u h 0x58 (.ringEnum addr))))))) ∧
  (∀ (s : State) (reverse : Bool) (seq : Nat) (entry : BitVec 7) (q : Fin 64) (era : Nat) (p : Packet),
    let v : Via := ⟨reverse, seq⟩
    let h := packetHdr p q era (some entry)
    let u := received s v
    let on := passOn u v (.load (.packet entry q era p))
    let mine := bits p.target.toNat 9 7 = s.boot.straps.ringId.toNat ∧
      (if h.multicast then s.ring.quarantined = false else bits p.target.toNat 6 0 = s.ring.position.toNat)
    let run := exec (.ringPacketArrival reverse seq (.packet entry q era p)) s
    s.ring.enumerated = true → nextFrame s v = true →
    (reverse = true → run = .next (after s on)) ∧
    (reverse = false → entry = s.ring.position → run = .next (after s u)) ∧
    (reverse = false → entry ≠ s.ring.position → ¬ mine → run = .next (after s on)) ∧
    (reverse = false → entry ≠ s.ring.position → mine → canTake s h = true →
      run = .next (after s (takeLocal (if h.multicast then on else u) p h)))) ∧
  (∀ (s : State) (reverse : Bool) (seq : Nat) (addr : BitVec 64) (data : List Byte),
    let v : Via := ⟨reverse, seq⟩
    let run := exec (.ringPacketArrival reverse seq (.dma addr data)) s
    s.ring.enumerated = true → nextFrame s v = true →
    ((reverse = true ∨ s.ring.position ≠ 0) → run = .next (after s (passOn (received s v) v (.load (.dma addr data))))) ∧
    (reverse = false → s.ring.position = 0 → dmaOk s = true →
      run = .next (after s { received s v with host := hostPut s.host addr.toNat data }))) ∧
  (∀ (s : State) (v : Via) (d : ReplyTo) (sender : BitVec 7) (r : Reply),
    let run := exec (.ringReplyArrival v d sender r) s
    let u := received s v
    s.ring.enumerated = true → nextFrame s v = true →
    ((v.reverse = true ∨ d.entry ≠ s.ring.position) → run = .next (after s (passOn u v (.reply d.entry d.ring d.era d.seq sender r)))) ∧
    (v.reverse = false → d.entry = s.ring.position →
      (awaitsMember s d.ring d.era d.seq sender = true → run = .next (after s (memberReply u d.ring d.era d.seq sender.toNat r))) ∧
      (awaitsMember s d.ring d.era d.seq sender = false → run = .next (after s u)))) ∧
  (∀ (s : State) (v : Via) (e : RingEvent),
    let run := exec (.ringEventReceive v e) s
    let on := passOn (received s v) v (.event e.k e.position)
    s.ring.enumerated = true → nextFrame s v = true →
    (v.reverse = true → run = .next (after s on)) ∧
    (v.reverse = false → e.position = s.ring.position → run = .next (after s (received s v))) ∧
    (v.reverse = false → e.position ≠ s.ring.position → run = .next (after s (raise on (0xE8 + e.k.val) e.position.toNat)))) ∧
  (∀ (s : State) (v : Via) (d : ReplyTo) (sender : BitVec 7) (r : Reply) (e : RingEvent) (x : RingLoad),
    (s.ring.enumerated = false ∨ nextFrame s v = false → exec (.ringReplyArrival v d sender r) s = .next (after s s) ∧
      exec (.ringEventReceive v e) s = .next (after s s) ∧ exec (.ringPacketArrival v.reverse v.seq x) s = .next (after s s)))

/-- Cairn: frames, loads of T64, missed frames, echoes, hops and SYNC_CAL (R304, R305, R306, R307, R308, R309, R310, R311,
R312, R313, R316, R399). The root sends a frame with its CRC on each driven output at each epoch, with ROOT and PERIOD taken
into force. A frame with a wrong CRC or in an echo window only sets its status bit; a valid one adopts the new DLY, records
epoch, load and relaunch, and gives the correction. A load of at most 64 fine units, or on an idle device, moves T64 by the
correction; else it is held and the lock is lost. A relaunch puts the frame on the driven outputs. A late frame is counted
with its event. Discovery pulses and echoes fall in the middle half of an epoch: the parent's output is pulsed, the child
notes its parent; echoes turn around after 64 ticks, and sixteen give the hop value. Tracking, every 64 epochs, holds DLY
within 9 of SYNC_CAL's. SYNC_CAL is served by the Summit alone, which sends every member its DLY. It says when these rows
complete: SYNC_CAL, SYNC_CAL_DONE, CAIRN_FRAME_SEND, CAIRN_FRAME_RECEIVE, CAIRN_LOAD, CAIRN_RELAUNCH, CAIRN_MISSED,
DISCOVERY_PULSE, ECHO_PULSE, ECHO_TURNAROUND, ECHO_RETURN, BG_TRACK_ECHO. -/
def Obligations.CairnTime : Prop :=
  (∀ s : State, s.boot.por = false → s.cairn.root = true → bit (word s gCAIRNCFG) 0 = true →
    coarse s.now % cairnTicks s.cairn.period = 0 →
    let f := makeFrame (BitVec.ofNat 48 (coarse s.now / cairnTicks s.cairn.period)) (BitVec.ofNat 14 (bits (word s gCAIRNCFG) 29 16))
    ∃ t, exec .cairnFrameSend s = .next t ∧ t.cairn.sent = f.epoch ∧ t.cairn.root = true ∧ t.cairn.period = f.period ∧ t.now = s.now ∧
      t.cairn.out0 = (if drives s false then some f else s.cairn.out0) ∧ t.cairn.out1 = (if drives s true then some f else s.cairn.out1)) ∧
  (∀ (e : BitVec 48) (p : BitVec 14) (s : State) (stamp : T64), inEcho s stamp = false → frameValid s (makeFrame e p) 0 stamp = true) ∧
  (∀ (s : State) (f : CairnFrame) (reserved : BitVec 2) (stamp : T64), s.boot.por = false → s.cairn.root = false →
    (frameValid s f reserved stamp = false → exec (.cairnFrameReceive f reserved stamp) s = .next (after s (setBits s gCAIRNSTATUS 8))) ∧
    (frameValid s f reserved stamp = true → ∃ t, exec (.cairnFrameReceive f reserved stamp) s = .next t ∧ t.cairn.fed = true ∧
      t.cairn.epoch = f.epoch ∧ t.cairn.period = f.period ∧ t.cairn.lastFrame = s.ticks ∧
      t.cairn.load = some (stamp + ticksFu 256,
        timeDiff (epochTime f.epoch f.period + BitVec.ofInt 64 (dlyNow (adoptDly s))) stamp))) ∧
  (∀ (s : State) (t0 : T64) (d : Int), s.cairn.load = some (t0, d) → reached s.now t0 = true →
    ((d.natAbs ≤ 64 ∨ timeIdle s = true) → ∃ t, exec (.cairnLoad none) s = .next t ∧ t.now = s.now + BitVec.ofInt 64 d ∧
      t.cairn.load = none ∧ t.cairn.locked = true ∧ t.cairn.stepHeld = false) ∧
    (64 < d.natAbs → timeIdle s = false → ∃ t, exec (.cairnLoad none) s = .next t ∧ t.now = s.now ∧ t.cairn.load = none ∧
      t.cairn.locked = false ∧ t.cairn.stepHeld = true)) ∧
  (∀ (s : State) (t0 : T64), s.cairn.relaunch = some t0 → reached s.now t0 = true → exec .cairnRelaunch s = .next (after s
    (putFrame (modCairn s fun c => { c with relaunch := none }) (makeFrame s.cairn.epoch s.cairn.period)))) ∧
  (∀ s : State, s.boot.por = false → s.cairn.root = false → s.cairn.fed = true →
    cairnTicks s.cairn.period + usTicks 1 < s.ticks - s.cairn.lastFrame →
    exec .cairnMissed s = .next (after s (raise (setBits (bump (modCairn s fun c =>
      { c with lastFrame := c.lastFrame + cairnTicks c.period }) gCAIRNMISSED 1) gCAIRNSTATUS 4) 0xD5 0))) ∧
  (∀ (s : State) (parent output : Byte), s.boot.por = false → midHalf s s.now = true →
    (s.ring.enumerated = true → parent.toNat = s.ring.position.toNat →
      (∀ t0, (if output.getLsbD 0 then s.cairn.pulse0 else s.cairn.pulse1) = some t0 → oneWindow s (usTicks 2) s.now t0 = false) →
      exec (.discoveryPulse parent output) s = .next (after s (drivePulse s (output.getLsbD 0) s.now))) ∧
    ((s.ring.enumerated = false ∨ parent.toNat ≠ s.ring.position.toNat) → s.cairn.root = false → ∃ t,
      exec (.discoveryPulse parent output) s = .next t ∧ t.cairn.extParent = false ∧ t.cairn.seen = some (parent, output) ∧
      ∀ m, t.ring.members[s.ring.position.toNat]? = some m → m.parent = parent ∧ m.output = output ∧ m.extParent = false)) ∧
  (∀ (s : State) (stamp : T64), s.boot.por = false → reached s.now stamp = true → midHalf s stamp = true →
    exec (.echoPulse stamp) s = .next (after s (modCairn s fun c => { c with echo := some stamp, echoAt := some stamp }))) ∧
  (∀ (s : State) (stamp : T64) (parent output : Byte), (midHalf s stamp = false → exec (.echoPulse stamp) s = .next (after s s)) ∧
    (midHalf s s.now = false → exec (.discoveryPulse parent output) s = .next (after s s))) ∧
  (∀ (s : State) (u : T64), s.cairn.echo = some u → reached s.now (u + 65536#64) = true → ∃ t,
    exec .echoTurnaround s = .next t ∧ t.cairn.echo = none ∧ t.cairn.echoOut = some (u + 65536#64)) ∧
  (∀ (s : State) (driven returned : T64) (n : Nat) (sum : Int), s.boot.por = false → reached s.now returned = true →
    midHalf s driven = true → midHalf s returned = true → oneWindow s (usTicks 1) returned driven = true →
    s.cairn.hop1 = (n, sum) → n ≤ 15 →
    let d := timeDiff returned driven - 65536 - Config.echoPath true
    ∃ t, exec (.echoReturn true driven returned) s = .next t ∧ t.cairn.hop0 = s.cairn.hop0 ∧ t.cairn.pulse1 = some driven ∧
      (n < 15 → t.cairn.hop1 = (n + 1, sum + d) ∧ t.cairn.hopVal1 = s.cairn.hopVal1) ∧
      (n = 15 → t.cairn.hop1 = (0, 0) ∧ t.cairn.hopVal1 = nearest (sum + d) 32)) ∧
  (∀ (s : State) (e : HopEcho) (v : Word), s.boot.por = false → isSet s gCAIRNCFG 1 = true → s.cairn.discovered = true →
    s.cairn.trackAt.toNat + 64 ≤ lastEpoch s → s.boot.straps.mstr = false → e.dly[s.ring.position.toNat]? = some v →
    ∃ t d, exec (.bgTrackEcho e) s = .next t ∧ t.cairn.dlyNext = some d ∧ s.cairn.dlyBase - 9 ≤ d ∧ d ≤ s.cairn.dlyBase + 9 ∧
      (s.cairn.dlyBase - 9 ≤ v.toInt → v.toInt ≤ s.cairn.dlyBase + 9 → d = v.toInt)) ∧
  (∀ (s : State) (e : HopEcho), s.boot.por = false → isSet s gCAIRNCFG 1 = true → s.cairn.discovered = true →
    s.cairn.trackAt.toNat + 64 ≤ lastEpoch s → s.boot.straps.mstr = true → s.ring.enumerated = true → s.ring.bUp = true →
    let u := gatherHops s e.hops
    ∃ t, exec (.bgTrackEcho e) s = .next t ∧ t.cairn.hops = u.cairn.hops ∧
      t.ring.outbox.map (·.msg) = s.ring.outbox.map (·.msg) ++ [.dly [] (treeDlys u)]) ∧
  (∀ (s : State) (h : Hdr) (options : Byte), Admitted s h ⟨0x59, 2, .none, false, false, false, false⟩ [.dectik] →
    let u := ensureTaken s h 0x59
    let run := exec (.syncCal h options) s
    let bad := options.toNat % 4 = 0 ∨ (options.toNat % 4 = 2 ∧ u.cairn.discovered = false)
    let unready := u.ring.enumerated = false ∨ u.ring.twoSummit = true ∨ u.ring.state = 2
    (u.boot.straps.mstr = false → run = .next (after s (refuse u h 0x59 BAD_TARGET 0))) ∧
    (u.boot.straps.mstr = true → bad → run = .next (after s (refuse u h 0x59 BAD_PARAM 0))) ∧
    (u.boot.straps.mstr = true → ¬ bad → unready → run = .next (after s (refuse u h 0x59 BUSY 0))) ∧
    (u.boot.straps.mstr = true → ¬ bad → ¬ unready → run = .next (after s (startLong (modCairn u fun c =>
      { c with hop0 := (0, 0), hop1 := (0, 0), seen := if options.getLsbD 0 then none else c.seen }) h 0x59 (.syncCal options false))))) ∧
  (∀ (s : State) (l : Long) (o : Byte) (is : List SyncInfo) (vals : List Word), Live s →
    findLong s (fun j => match j with | .syncCal _ _ => true | _ => false) = some l → l.job = .syncCal o false →
    ∃ t d, exec (.syncCalDone is vals) s = .next t ∧ t.cairn.dlyBase = d ∧ t.cairn.dlyNext = some d ∧
      (o.getLsbD 0 = true → t.cairn.discovered = true) ∧
      (s.ring.bUp = true → t.ring.outbox.map (·.msg) = s.ring.outbox.map (·.msg) ++ [.dly (withOwn s is) (treeDlys t)])) ∧
  (∀ (s : State) (is : List SyncInfo) (vals : List Word) (v : Word), s.boot.por = false → s.boot.straps.mstr = false →
    s.ring.enumerated = true → vals[s.ring.position.toNat]? = some v →
    findLong s (fun j => match j with | .syncCal _ _ => true | _ => false) = none →
    ∃ t, exec (.syncCalDone is vals) s = .next t ∧ t.cairn.dlyBase = v.toInt ∧ t.cairn.dlyNext = some v.toInt ∧
      (is ≠ [] → t.cairn.discovered = true))

/-- Slave frames of the CSP ports and Fox's execute-in-place lines (R319, R323, R324, R325, R326, R327, R328, R329, R330,
Table 13-2, Table 13-3). On a port that is a slave, every frame leaves its outcome flags for the next one, sets their sticky
copies, and is counted when it is discarded. An accepted WRITE waits for Badger, and CSP_WRITE_APPLY applies its words whole
or marks REFUSED; a discarded one writes nothing. A READ that comes to its data returns the words, or zeros where its CRC
fails; its reply CRC is inverted then. Words of a WRITE that a command holds, or that its rules refuse, refuse all of it.
STATUS and an unknown command read and write no word. An XIP miss on an absent line starts its fetch, a hit and a fill make
their line the most recent of four, and a flash command drops the lines and the fetches that it overlaps. It says when these
rows complete: CSP_WRITE, CSP_WRITE_APPLY, CSP_READ, CSP_STATUS, XIP_MISS, XIP_LINE_FILL, BAD_CMD_FRAME. -/
def Obligations.SlavePortsAndFlashWindow : Prop :=
  (∀ (s : State) (n : Fin 2) (f : CspFrame), slaveOn s n = true →
    let fl := frameFlags s n 2 f
    let u := modCsp (frameEnd s n 2 f [] fl) n fun x => { x with writeAt := some s.ticks }
    (fl.bad = true → exec (.cspWrite n f) s = .next (after s u)) ∧
    (fl.bad = false → exec (.cspWrite n f) s = .next (after s
      (modCsp u n fun x => { x with write := some (f.addr, f.data.take (frameWords 2 f)), followed := false })))) ∧
  (∀ (s : State) (n : Fin 2) (a : BitVec 16) (ws : List Word), s.csps[n].write = some (a, ws) →
    exec (.cspWriteApply n) s = .next (after s (modCsp (slaveApply s n a.toNat (ws.map fun w => w.toNat)) n
      fun x => { x with write := none, followed := false }))) ∧
  (∀ (s : State) (n : Fin 2) (a : Nat) (ws : List Nat),
    let l := ws.zipIdx.map fun x => (a + x.2, x.1)
    ((∃ x ∈ l, windowTakes s x.1 = false) → slaveApply s n a ws = s) ∧
    ((∀ x ∈ l, windowTakes s x.1 = true) →
      ((∃ x ∈ l, heldByLong s (wordNeed x.1) = true) → slaveApply s n a ws = slaveRefused s n) ∧
      ((firstRefused s 0 l).isSome = true → slaveApply s n a ws = slaveRefused s n) ∧
      ((∀ x ∈ l, heldByLong s (wordNeed x.1) = false) → firstRefused s 0 l = none →
        (∀ t, writeAll 0 l s = (t, none) → slaveApply s n a ws = serveWaits t) ∧
        (∀ t e, writeAll 0 l s = (t, some e) → slaveApply s n a ws = slaveRefused s n)))) ∧
  (∀ (s : State) (n : Fin 2) (f : CspFrame), slaveOn s n = true →
    let fl := frameFlags s n 11 f
    let c := frameWords 11 f
    let answer_ := fun (ws : List Word) (t : State) => Host.Outcome.next (after s
      (frameEnd { t with link := { t.link with cspRead := ws } } n 11 f ws fl))
    (f.edges < 7 → exec (.cspRead n f) s = answer_ [] s) ∧
    (7 ≤ f.edges → fl.crc = true → exec (.cspRead n f) s = answer_ (List.replicate c 0#32) s) ∧
    (7 ≤ f.edges → fl.crc = false → (fl.repeated = true ∨ fl.notReady = true) →
      exec (.cspRead n f) s = answer_ ((List.range c).map (Config.discardedRead s.free)) (tickFree s)) ∧
    (7 ≤ f.edges → fl.repeated = false → fl.notReady = false → fl.crc = false →
      exec (.cspRead n f) s = answer_ (slaveWords n c f.addr.toNat s).1 (slaveWords n c f.addr.toNat s).2)) ∧
  (∀ (s : State) (n : Fin 2) (f : CspFrame), slaveOn s n = true →
    exec (.cspStatus n f) s = .next (after s (frameEnd s n 5 f [] (frameFlags s n 5 f))) ∧
    exec (.badCmdFrame n f) s = .next (after s (frameEnd s n 5 f []
      { crc := false, aborted := false, length := false, aliveGap := false, repeated := false, refused := false, badCmd := true,
        notReady := tooSoon s n f.selected || !booted s }))) ∧
  (∀ (s : State) (n : Fin 2) (cmd : Nat) (f : CspFrame) (ws : List Word) (fl : FrameFlags),
    let u := frameEnd s n cmd f ws fl
    u.csps[n].prev = BitVec.ofNat 8 fl.byte ∧ u.csps[n].write = s.csps[n].write ∧ (fl.bad = false → u.params = (stickyFlags s n fl).params) ∧
      (requestEdges cmd f + 9 ≤ f.edges → fl.badCmd = false → u.csps[n].reply = (s.csps[n].prev, f.alive, ws,
        replyCrc s.csps[n].prev f.alive ws (fl.crc && cmd == 11))) ∧
      (∀ k : Fin 2, k ≠ n → u.csps[k] = s.csps[k]) ∧ u.ridges = s.ridges ∧ u.pins = s.pins ∧ u.link = s.link) ∧
  (∀ (s : State) (n : Fin 2) (f : CspFrame), slaveOn s n = false → exec (.cspWrite n f) s = .next (after s s) ∧
    exec (.cspRead n f) s = .next (after s s) ∧ exec (.cspStatus n f) s = .next (after s s) ∧
    exec (.badCmdFrame n f) s = .next (after s s)) ∧
  (∀ (s : State) (addr : Word), xipOn s = true → flashBusy s = false → xipLine addr.toNat ∉ s.xip.lines →
    (∀ l ∈ s.xip.filling, l.1 ≠ xipLine addr.toNat) → exec (.xipMiss addr) s = .next (after s
      (flashRead { s with xip := { s.xip with filling := s.xip.filling ++ [(xipLine addr.toNat, true)] } }))) ∧
  (∀ (s : State) (addr : Word), xipOn s = true → xipLine addr.toNat ∈ s.xip.lines → exec (.xipMiss addr) s = .next (after s
    { s with xip := { s.xip with lines := xipLine addr.toNat :: s.xip.lines.erase (xipLine addr.toNat) } })) ∧
  (∀ (s : State) (lo size : Nat), let u := flashCommand s lo size
    u.xip.cont = false ∧ (∀ x ∈ u.xip.lines, x ∈ s.xip.lines ∧ (x + 64 ≤ lo ∨ lo + size ≤ x)) ∧
      (∀ x ∈ u.xip.filling, x ∈ s.xip.filling ∧ (x.1 + 64 ≤ lo ∨ lo + size ≤ x.1))) ∧
  (∀ (s : State) (addr : Word) (l : Nat × Bool), s.xip.filling.find? (fun l => l.1 == xipLine addr.toNat) = some l →
    ∃ t, exec (.xipLineFill addr) s = .next t ∧
      t.xip.lines = (xipLine addr.toNat :: s.xip.lines.erase (xipLine addr.toNat)).take 4 ∧ t.xip.lines.length ≤ 4 ∧
      (∀ x ∈ t.xip.filling, x.1 ≠ xipLine addr.toNat))

/-- The start-up, stage by stage, Fox's watchdog and the clock source (R20, R122, R123, R124, R125, R322, R336, R337, R338,
R352, R424, Table 14-1). POR_RELEASE samples straps and fuses at STAGE 0. FOX_RELEASE, once every comparator and the first
five supply monitors have released, enters STAGE 1, and a CSP0 that is a slave sends it to loader mode. SFDP_READ,
FIRMWARE_VERIFY and PATCH_LOAD enter STAGES 2, 3 and 4 with their results, or loader mode or the ROM baseline; training
enters STAGE 5 with the newer copy. The watchdog restarts Fox alone, whose firmware is verified once more. Loss of REFCLK
goes to the resonator; a reversion waits for REVERT, REFCLK and idle ridges. The resonator's correction is its table's value
and the ageing word, which moves at most 10 units at a time. It says when these rows complete: REFCLK_LOSS, REFCLK_PRESENT,
CLOCK_REVERT, TCOMP_UPDATE, AGE_UPDATE, POR_RELEASE, FOX_RELEASE, SFDP_READ, FIRMWARE_VERIFY, PATCH_LOAD, PCIE_LINK_UP,
POWERUP_CAL_DONE, HBM_TRAINING_DONE, FOX_WATCHDOG. -/
def Obligations.StartUp : Prop :=
  (∀ (s : State) (z : Straps) (f : Fuses), s.boot.por = true → exec (.porRelease z f) s = .next (after s
    (senseFuses (strapWords { s with boot := { s.boot with
      por := false, straps := z, fuses := f, since := s.ticks, resonator := !z.refclkClean, refclk := z.refclkClean } })))) ∧
  (∀ s : State, bootRuns s 0 = true → (∀ k : Fin 24, s.sensors[k].compReleased = true) →
    (∀ m : Fin 12, m.val < 5 → s.smons[m].released = true) → ∃ t, exec .foxRelease s = .next t ∧ t.boot.foxUp = true ∧
      t.boot.romLoader = true ∧ (isSet s (gCSPCFG 0) 0 = false → t.boot.stage = 1) ∧
      (isSet s (gCSPCFG 0) 0 = true → t.boot.stage = 7 ∧ t.boot.mode = .loader ∧ t.boot.fwResult = 7)) ∧
  (∀ (s : State) (valid profile sizeOk cont : Bool), bootRuns s 1 = true → ∃ t, exec (.sfdpRead valid profile sizeOk cont) s = .next t ∧
    (valid = true → sizeOk = true → t.boot.stage = 2 ∧ t.boot.sfdpOk = true ∧ t.xip.canCont = cont) ∧
    (valid = false ∨ sizeOk = false → t.boot.stage = 7 ∧ t.boot.mode = .loader ∧ t.boot.fwResult = 1)) ∧
  (∀ (s : State) (i : Option FwImage), bootRuns s 2 = true → ∃ t, exec (.firmwareVerify i) s = .next t ∧ t.flash.firmware = i ∧
    (∀ x, i = some x → fwResultOf s i = 0 → t.boot.stage = 3 ∧ t.boot.romLoader = false ∧ t.boot.fwResult = 0) ∧
    (i = none ∨ fwResultOf s i ≠ 0 → t.boot.stage = 7 ∧ t.boot.fwResult = BitVec.ofNat 3 (fwResultOf s i))) ∧
  (∀ (s : State) (x : FwImage), bootRuns s 6 = true → s.boot.reload = true → isSet s (gCSPCFG 0) 0 = false →
    fwResultOf s (some x) = 0 → x.partnerMin.toNat ≤ patchLevel s → patchLevel s ≤ x.partnerMax.toNat →
    ∃ t, exec (.firmwareVerify (some x)) s = .next t ∧ t.boot = { s.boot with romLoader := false, reload := false } ∧ t.flash.firmware = some x) ∧
  (∀ (s : State) (i : Option FwImage), bootRuns s 3 = true → ∃ t, exec (.patchLoad i) s = .next t ∧ t.boot.stage = 4 ∧
    t.flash.patch = i ∧ t.boot.patchResult = BitVec.ofNat 4 (patchResultOf s i) ∧
    t.boot.mode = (if patchResultOf s i = 0 then .normal else .baseline) ∧
    (∀ x, i = some x → patchResultOf s i = 0 → t.boot.patchRam = x.words ∧ t.boot.patchEntries = x.entries) ∧
    (patchResultOf s i ≠ 0 → t.boot.patchRam = [])) ∧
  (∀ s : State, s.boot.por = false → ∃ t, exec .pcieLinkUp s = .next t ∧ t.boot = { s.boot with pcieUp := true }) ∧
  (∀ s : State, (bootRuns s 4 = true ∨ bootRuns s 5 = true) → s.smons[(10 : Fin 12)].released = true →
    s.smons[(11 : Fin 12)].released = true → ∃ t, exec .powerupCalDone s = .next t ∧ t.boot = { s.boot with calDone := true }) ∧
  (∀ (s : State) (ok : List Bool), bootRuns s 4 = true → s.smons[(5 : Fin 12)].released = true →
    s.smons[(6 : Fin 12)].released = true → ∃ t, exec (.hbmTrainingDone ok) s = .next t ∧ t.boot.stage = 5 ∧ t.boot.hbmUp = true ∧
      (∀ k : Fin 3, t.flash.slots[k] = if ok.getD k.val true then s.flash.slots[k] else none) ∧
      t.working = (copyContent t.flash (copyOf t.flash (newerIsB t.flash))).map (·.image)) ∧
  (∀ s : State, bootRuns s 6 = true → foxReady s = true → ∃ t, exec .foxWatchdog s = .next t ∧ t.boot.romLoader = true ∧
    t.boot.stage = 6 ∧ t.xip.lines = [] ∧ t.xip.filling = [] ∧ t.ridges = s.ridges ∧ t.bear.latch.getLsbD 36 = true ∧
    (Live s → ∀ l ∈ t.link.longs, needsFox l.job = false)) ∧
  (∀ s : State, s.boot.por = false → ∃ t, exec .refclkLoss s = .next t ∧ t.boot = { s.boot with refclk := false, resonator := true }) ∧
  (∀ s : State, s.boot.por = false → ∃ t, exec .refclkPresent s = .next t ∧ t.boot = { s.boot with refclk := true }) ∧
  (∀ s : State, isSet s gCLKCFG 0 = true → s.boot.refclk = true → s.boot.resonator = true → (∀ r : RidgeId, runs s r = false) →
    ∃ t, exec .clockRevert s = .next t ∧ t.boot = { s.boot with resonator := false }) ∧
  (∀ s : State, s.boot.por = false → s.sensors[Config.coreSensor].broken = false → 
    let t := tcompAt s.boot.fuses.xoTcomp s.sensors[Config.coreSensor].value
    exec .tcompUpdate s = .next (after s
      (putWord { s with boot := { s.boot with xoCorr := t + signed 24 (word s gXOAGE) } } gXOTCOMP (unsign 24 t)))) ∧
  (∀ (s : State) (residual : Int), s.boot.resonator = false → s.boot.refclk = true → isSet s gCLKCFG 1 = true →
    let age := signed 24 (word s gXOAGE)
    exec (.ageUpdate residual) s = .next (after s
      (putWord s gXOAGE (unsign 24 (clampI (-200000) 200000 (age + clampI (-10) 10 (residual - age)))))))

/-- Sensors, supply monitors, Owl, event delivery, fatal sources, recovery and resets (R357, R360, R361, R362, R363, R365,
R367, R369, R371, R386, R388, R404). TEMP_CONVERSION takes a reading, and the third outside the range breaks the sensor;
SENSOR_RECOVER ends that. Owl steps when its grace has run and returns to NORMAL after cooling. A tripped comparator latches
the shutdown. A supply that leaves its window is a fatal fault, a dip opens the suspect window, a monitor that never
released is logged. PMON_GATE takes all counts. EVENT_DELIVERY delivers the request in flight, or AON's next source, and the
next request follows. A fatal source that deasserts, the end of the wait for parking, the quiet period and the recovery go
on as Bear's rules say; HOST_RESET, POR_N and the release of a ridge reset leave what they leave. It says when these rows
complete: TEMP_CONVERSION, SENSOR_RECOVER, OWL_GRACE_EXPIRY, OWL_RELEASE, THERMAL_SHUTDOWN, SUPPLY_RESET_FAULT, SUPPLY_DIP,
SUSPECT_WINDOW_END, MONITOR_RELEASE, MONITOR_TIMEOUT, PMON_GATE, EVENT_DELIVERY, PARK_WAIT_EXPIRY, QUIET_PERIOD_END,
RECOVERY_COMPLETE, HOST_RESET, RIDGE_RESET_RELEASE, HBM_TRAINING_LOSS, MULTIPLIER_LOCK_LOSS, FATAL_SOURCE_DEASSERTS,
POR_N_ASSERT. -/
def Obligations.MonitorsEventsAndResets : Prop :=
  (∀ (s : State) (k : Fin 24) (v : Int), s.boot.por = false → s.sensors[k].broken = false →
    let ok := decide (-400 ≤ v) && decide (v ≤ 1500)
    let u := modSensor s k fun x =>
      { x with value := v, raw := v, bad := if ok then 0 else x.bad + 1, released := x.released || (ok && decide (v < 970)),
               converted := x.converted || ok }
    (3 ≤ u.sensors[k].bad → exec (.tempConversion k v) s = .next (after s (sensorBreaks u k))) ∧
    (u.sensors[k].bad < 3 → exec (.tempConversion k v) s = .next (after s (owlSee u)))) ∧
  (∀ (s : State) (k : Fin 24), s.sensors[k].broken = true → msTicks 1000 ≤ s.ticks - s.sensors[k].goodSince →
    exec (.sensorRecover k) s = .next (after s
      (owlSee (modSensor s k fun x => { x with value := x.raw, broken := false, bad := 0 })))) ∧
  (∀ (s : State) (t0 : Nat), s.owl.graceAt = some t0 → graceTicks s ≤ s.ticks - t0 → 1000 ≤ thermMax s → s.owl.shutdown = false →
    (s.owl.state = .request → exec .owlGraceExpiry s = .next (after s (owlStep s .step1 (owlSet s)))) ∧
    (s.owl.state = .step1 → exec .owlGraceExpiry s = .next (after s (owlStep s .step2 (owlSet s))))) ∧
  (∀ (s : State) (t0 : Nat), s.owl.coolAt = some t0 → graceTicks s ≤ s.ticks - t0 → s.owl.state ≠ .normal → anyBroken s = false →
    s.owl.shutdown = false → ∃ t, exec .owlRelease s = .next t ∧ t.owl.state = .normal ∧ t.owl.set = 0 ∧
      ∀ r : RidgeId, s.owl.set.getLsbD r.val = true → t.ridges[r].owlNext = 0) ∧
  (∀ (s : State) (k : Fin 24), s.sensors[k].compReleased = true → s.owl.shutdown = false → s.boot.por = false →
    ∃ t, exec (.thermalShutdown k) s = .next t ∧ t.owl.shutdown = true ∧ t.bear.latch.getLsbD 52 = true ∧ t.tickets = [] ∧
      ∀ r : RidgeId, t.ridges[r].st = .unbound ∧ t.ridges[r].inReset = true) ∧
  (∀ (s : State) (m : Fin 12), s.smons[m].released = true → s.boot.por = false → s.owl.shutdown = false →
    exec (.supplyResetFault m) s = .next (after s
      (fatal (modSmon s m fun x => { x with released := false, resetLow := true }) (smonBit m) 0 true false)) ∧
    (s.smons[m].warn = false → ∃ t, exec (.supplyDip m) s = .next t ∧ t.smons[m].warn = true ∧
      t.smons[m].suspectFrom = some (s.now - ticksFu (usTicks 1)) ∧ t.smons[m].suspectTo = none ∧ t.ridges = s.ridges)) ∧
  (∀ (s : State) (m : Fin 12), s.smons[m].warn = true → ∃ t, exec (.suspectWindowEnd m) s = .next t ∧
    t.smons[m].warn = false ∧ t.smons[m].suspectTo = some s.now) ∧
  (∀ s : State, s.boot.por = false → s.owl.shutdown = false →
    (∀ k : Fin 24, ∃ t, exec (.monitorRelease (.comparator k)) s = .next t ∧ t.sensors[k].compReleased = true) ∧
    (∀ m : Fin 12, s.smons[m].released = false → ∃ t, exec (.monitorRelease (.supply m)) s = .next t ∧
      t.smons[m].released = true ∧ t.bear.asserted = s.bear.asserted &&& ~~~(BitVec.ofNat 64 (2 ^ (40 + m.val)))) ∧
    (∀ m : Fin 12, s.smons[m].released = false → s.smons[m].timedOut = false → s.smons[m].resetLow = false →
      msTicks 100 ≤ s.ticks - s.boot.since → ∃ t, exec (.monitorTimeout m) s = .next t ∧ t.smons[m].timedOut = true ∧
      t.bear.latch.getLsbD (40 + m.val) = true)) ∧
  (∀ (s : State) (counts : List (BitVec 20)), s.boot.por = false → ∃ t, exec (.pmonGate counts) s = .next t ∧
    ∀ k : Fin 20, t.pmons[k] = counts.getD k.val 0) ∧
  (∀ (s : State) (c : Fin 47) (k : Nat) (e : EvtSrc), s.owl.shutdown = false → s.boot.por = false → flightOf s c.val = some (k, e) →
    exec (.eventDelivery (some c)) s = .next (after s (nextRequest (deliverEvent s k e) c))) ∧
  (∀ (s : State) (k : Nat), s.owl.shutdown = false → s.boot.por = false → nextSrc s none = some k →
    exec (.eventDelivery none) s = .next (after s (deliverEvent { s with events := { s.events with
      src := sput evtDflt s.events.src k (evtDflt k), last := sput lastDflt s.events.last (colKey none) k } } k
      (sget evtDflt s.events.src k)))) ∧
  (∀ s : State, s.boot.por = false → (∀ b : Fin 64, exec (.fatalSourceDeasserts b) s = .next (after s (deassert s b))) ∧
    (s.owl.shutdown = false → exec .multiplierLockLoss s = .next (after s (fatal s 35 0 true false))) ∧
    (s.owl.shutdown = false → s.boot.hbmUp = true → exec .hbmTrainingLoss s = .next (after s (fatal s 22 0 true false)))) ∧
  (∀ s : State, s.bear.state = .parking → usTicks (field s gFAULTPARK 15 0) ≤ s.ticks - s.bear.parkAt →
    exec .parkWaitExpiry s = .next (after s (enterSafe s))) ∧
  (∀ (s : State) (t0 : Nat), s.bear.state = .safe → s.bear.quietAt = some t0 → msTicks (field s gFAULTCFG 13 0) ≤ s.ticks - t0 →
    s.owl.shutdown = false →
    ((field s gFAULTCFG 21 14 ≤ windowCount s ∨ s.bear.noRecovery = true) → ∃ t, exec .quietPeriodEnd s = .next t ∧
      t.bear.state = .faulted ∧ t.bear.recovCnt = s.bear.recovCnt) ∧
    (windowCount s < field s gFAULTCFG 21 14 → s.bear.noRecovery = false →
      exec .quietPeriodEnd s = .next (after s (recover s)))) ∧
  (∀ s : State, s.bear.state = .recovering → s.owl.shutdown = false → ∃ t, exec .recoveryComplete s = .next t ∧
    t.bear.state = .normal ∧ t.bear.lastEnd = s.now) ∧
  (∀ (s : State) (z : Straps), s.owl.shutdown = false → s.boot.por = false → ∃ t, exec (.hostReset none z) s = .next t ∧
    t.boot.stage = 0 ∧ t.now = 0 ∧ t.flash = s.flash ∧ t.sensors = s.sensors ∧ t.bear.recovCnt = s.bear.recovCnt ∧
    (∀ b : Nat, s.bear.latch.getLsbD b = true → t.bear.latch.getLsbD b = true) ∧
    t.tickets = [] ∧ t.link.inbox = []) ∧
  (∀ s : State, ∃ t, exec .porNAssert s = .next t ∧ t.boot.por = true ∧ t.boot.stage = 0 ∧ t.bear.log = [] ∧ t.flash = s.flash ∧
    t.owl.shutdown = s.owl.shutdown ∧ t.host = s.host) ∧
  (∀ (s : State) (r : RidgeId), s.ridges[r].inReset = true → usTicks 10 ≤ s.ticks - s.ridges[r].holdSince →
    exec (.ridgeResetRelease r) s = .next (after s
      (serveWaits (restage (modR s r fun x => { x.unbind with inReset := false }) [r]))))
end

