-- ==== Sys2Proof/Laws/Memory.lean ====
section
/-! SUPPORT. Sparse stores and host memory: every operation keeps the canonical form, a read after a write gives the value
written, and a write leaves every other place alone. -/

namespace Sys2Proof.Machine

/-! ### Sparse stores -/

theorem swfFrom_mono {α : Type} [DecidableEq α] (d : Nat → α) {a b : Nat} {m : Sparse α} (h : a ≤ b)
    (w : swfFrom d (some b) m = true) : swfFrom d (some a) m = true := by
  cases m with
  | nil => rfl
  | cons e m =>
    obtain ⟨j, v⟩ := e
    simp only [swfFrom, Bool.and_eq_true, decide_eq_true_eq] at w ⊢
    exact ⟨⟨by omega, w.1.2⟩, w.2⟩

theorem swfFrom_none {α : Type} [DecidableEq α] (d : Nat → α) {a : Nat} {m : Sparse α}
    (w : swfFrom d (some a) m = true) : swfFrom d none m = true := by
  cases m with
  | nil => rfl
  | cons e m =>
    obtain ⟨j, v⟩ := e
    simp only [swfFrom, Bool.and_eq_true, decide_eq_true_eq, Bool.true_and] at w ⊢
    exact ⟨w.1.2, w.2⟩

theorem swfFrom_sput {α : Type} [DecidableEq α] (d : Nat → α) (lo : Option Nat) (m : Sparse α) (k : Nat) (v : α)
    (hk : ∀ l, lo = some l → l < k) (w : swfFrom d lo m = true) : swfFrom d lo (sput d m k v) = true := by
  induction m generalizing lo with
  | nil =>
    unfold sput
    split
    · rfl
    · cases lo with
      | none => simp_all [swfFrom]
      | some l => simp_all [swfFrom]
  | cons e m ih =>
    obtain ⟨j, u⟩ := e
    have hm : swfFrom d (some j) m = true := by
      simp only [swfFrom, Bool.and_eq_true] at w; exact w.2
    have hu : u ≠ d j := by
      simp only [swfFrom, Bool.and_eq_true, decide_eq_true_eq] at w; exact w.1.2
    have hj : ∀ l, lo = some l → l < j := by
      intro l hl; subst hl
      simp only [swfFrom, Bool.and_eq_true, decide_eq_true_eq] at w; exact w.1.1
    have keep : ∀ (x : Nat) (y : α) (r : Sparse α), (∀ l, lo = some l → l < x) → y ≠ d x → swfFrom d (some x) r = true →
        swfFrom d lo ((x, y) :: r) = true := by
      intro x y r hx hy hr
      cases lo with
      | none => simp [swfFrom, hy, hr]
      | some l => simp [swfFrom, hy, hr, hx l rfl]
    have weaken : ∀ r : Sparse α, swfFrom d (some j) r = true → swfFrom d lo r = true := by
      intro r hr
      cases lo with
      | none => exact swfFrom_none d hr
      | some l => exact swfFrom_mono d (Nat.le_of_lt (hj l rfl)) hr
    unfold sput
    split
    · split
      · exact w
      · refine keep k v _ hk (by assumption) ?_
        simp only [swfFrom, Bool.and_eq_true, decide_eq_true_eq]
        exact ⟨⟨by assumption, hu⟩, hm⟩
    · split
      · subst ‹k = j›
        split
        · exact weaken m hm
        · exact keep k v m hk (by assumption) hm
      · refine keep j u _ hj hu (ih (some j) ?_ hm)
        intro l hl; cases hl; omega

/-- A store keeps the canonical form. -/
@[simp] theorem sput_wf {α : Type} [DecidableEq α] (d : Nat → α) (m : Sparse α) (k : Nat) (v : α) (w : swf d m = true) :
    swf d (sput d m k v) = true := swfFrom_sput d none m k v (by simp) w

/-- A key below every listed one reads as its default. -/
theorem sget_above {α : Type} [DecidableEq α] (d : Nat → α) (m : Sparse α) (k : Nat) (w : swfFrom d (some k) m = true) :
    sget d m k = d k := by
  induction m with
  | nil => rfl
  | cons e m ih =>
    obtain ⟨j, u⟩ := e
    simp only [swfFrom, Bool.and_eq_true, decide_eq_true_eq] at w
    have : k ≠ j := by omega
    simp only [sget, if_neg this]
    exact ih (swfFrom_mono d (Nat.le_of_lt w.1.1) w.2)

/-- A read after a store to the same key gives the value stored. -/
theorem sget_sput_same {α : Type} [DecidableEq α] (d : Nat → α) (m : Sparse α) (k : Nat) (v : α) (w : swf d m = true) :
    sget d (sput d m k v) k = v := by
  have gen : ∀ lo, swfFrom d lo m = true → sget d (sput d m k v) k = v := by
    induction m with
    | nil =>
      intro lo _
      unfold sput
      split
      · simp_all [sget]
      · simp [sget]
    | cons e m ih =>
      intro lo w
      obtain ⟨j, u⟩ := e
      have hm : swfFrom d (some j) m = true := by
        simp only [swfFrom, Bool.and_eq_true] at w; exact w.2
      unfold sput
      split
      · split
        · have hkj : k ≠ j := by omega
          simp only [sget, if_neg hkj]
          rw [sget_above d m k (swfFrom_mono d (by omega) hm)]
          exact (‹v = d k›).symm
        · simp [sget]
      · split
        · subst ‹k = j›
          split
          · rw [sget_above d m k hm]; exact (‹v = d k›).symm
          · simp [sget]
        · have hkj : k ≠ j := by assumption
          simp only [sget, if_neg hkj]
          exact ih (swfFrom_none d hm) _ hm
  exact gen none w

/-- A store leaves every other key alone. -/
theorem sget_sput_other {α : Type} [DecidableEq α] (d : Nat → α) (m : Sparse α) (k i : Nat) (v : α) (h : i ≠ k) :
    sget d (sput d m k v) i = sget d m i := by
  induction m with
  | nil =>
    unfold sput
    split
    · rfl
    · simp [sget, h]
  | cons e m ih =>
    obtain ⟨j, u⟩ := e
    unfold sput
    split
    · split
      · rfl
      · simp [sget, h]
    · split
      · subst ‹k = j›
        split
        · simp [sget, h]
        · simp [sget, h]
      · simp only [sget, ih]

/-- Host memory keeps its canonical form. -/
@[simp] theorem hostPut_wf (m : List Host.Cell) (a : Nat) (bs : List Byte) (w : swf hostDflt m = true) :
    swf hostDflt (hostPut m a bs) = true := by
  induction bs generalizing a with
  | nil => exact w
  | cons b bs ih => exact sput_wf _ _ _ _ (ih (a + 1))

/-- A write of host memory leaves every byte outside it alone. -/
theorem hostByte_hostPut_other (m : List Host.Cell) (a i : Nat) (bs : List Byte)
    (h : ∀ k, k < bs.length → i ≠ (a + k) % 2 ^ 64) : hostByte (hostPut m a bs) i = hostByte m i := by
  induction bs generalizing a with
  | nil => rfl
  | cons b bs ih =>
    unfold hostByte at *
    unfold hostPut
    rw [sget_sput_other _ _ _ _ _ (by simpa using h 0 (by simp))]
    apply ih
    intro k hk
    have := h (k + 1) (by simpa using hk)
    rwa [show a + (k + 1) = a + 1 + k by omega] at this

end Sys2Proof.Machine
end

