-- ==== Sys2Proof/Laws/Canon.lean ====
section
/-! SUPPORT. Every operation keeps the sparse stores of the state in canonical form. -/

namespace Sys2Proof.Machine

set_option linter.all false

@[simp] theorem canon_mk (now ticks free host params boot flash working link sq cq msix ridges pins dps ports store tickets lastTicket convPtr timuPtr queues lastQueue sites cal sensors smons pmons owl events bear cols ring cairn csps xip pending) :
  Canonical (State.mk now ticks free host params boot flash working link sq cq msix ridges pins dps ports store tickets lastTicket convPtr timuPtr queues lastQueue sites cal sensors smons pmons owl events bear cols ring cairn csps xip pending) ↔
  (swf hostDflt host = true ∧ swf resetWord params = true ∧ swf qDflt queues = true ∧ swf imgDflt store.images = true) := ⟨id, id⟩

theorem canon_intro {now ticks free host params boot flash working link sq cq msix ridges pins dps ports store tickets lastTicket convPtr timuPtr queues lastQueue sites cal sensors smons pmons owl events bear cols ring cairn csps xip pending}
  (h : swf hostDflt host = true) (p : swf resetWord params = true) (q : swf qDflt queues = true) (i : swf imgDflt store.images = true) :
  Canonical (State.mk now ticks free host params boot flash working link sq cq msix ridges pins dps ports store tickets lastTicket convPtr timuPtr queues lastQueue sites cal sensors smons pmons owl events bear cols ring cairn csps xip pending) := ⟨h, p, q, i⟩

@[simp] theorem Canonical.h {s : State} (h : Canonical s) : swf hostDflt s.host = true := h.1

@[simp] theorem Canonical.p {s : State} (h : Canonical s) : swf resetWord s.params = true := h.2.1

@[simp] theorem Canonical.q {s : State} (h : Canonical s) : swf qDflt s.queues = true := h.2.2.1

@[simp] theorem Canonical.i {s : State} (h : Canonical s) : swf imgDflt s.store.images = true := h.2.2.2

@[simp] theorem canon_ite (c : Prop) [Decidable c] (a b : State) (ha : Canonical a) (hb : Canonical b) : Canonical (if c then a else b) := by split <;> assumption

@[simp] theorem canon_each {α : Type} (l : List α) (f : State → α → State) (s : State) (h : ∀ s a, Canonical s → Canonical (f s a)) (hc : Canonical s) :
    Canonical (each l f s) := by
  unfold each; induction l generalizing s with
  | nil => exact hc
  | cons a l ih => exact ih _ (h _ _ hc)

theorem canon_foldl {α : Type} (l : List α) (f : State → α → State) (s : State) (h : ∀ s a, Canonical s → Canonical (f s a)) (hc : Canonical s) :
    Canonical (l.foldl f s) := canon_each l f s h hc

theorem canon_eq1 {α : Type} {p : State × α} {t : State} {a : α} (hp : Canonical p.1) (h : p = (t, a)) : Canonical t := by rw [h] at hp; exact hp

theorem canon_eq2 {α : Type} {p : α × State} {t : State} {a : α} (hp : Canonical p.2) (h : p = (a, t)) : Canonical t := by rw [h] at hp; exact hp

theorem canon_reset : Canonical State.reset := ⟨rfl, rfl, rfl, rfl⟩

/-! ### Flags -/

@[simp] theorem canon_putWord (s : State) (i : ℕ) (v : ℕ) (hc_s : Canonical s) : Canonical (putWord s i v) := by
  unfold putWord
  simp +contextual (maxDischargeDepth := 30) [*]

@[simp] theorem canon_setBits (s : State) (i : ℕ) (m : ℕ) (hc_s : Canonical s) : Canonical (setBits s i m) := by
  unfold setBits
  simp +contextual (maxDischargeDepth := 30) [*]

@[simp] theorem canon_clrBits (s : State) (i : ℕ) (m : ℕ) (hc_s : Canonical s) : Canonical (clrBits s i m) := by
  unfold clrBits
  simp +contextual (maxDischargeDepth := 30) [*]

@[simp] theorem canon_putField (s : State) (i : ℕ) (hi : ℕ) (lo : ℕ) (v : ℕ) (hc_s : Canonical s) : Canonical (putField s i hi lo v) := by
  unfold putField
  simp +contextual (maxDischargeDepth := 30) [*]

@[simp] theorem canon_bump (s : State) (i : ℕ) (n : ℕ) (hc_s : Canonical s) : Canonical (bump s i n) := by
  unfold bump
  simp +contextual (maxDischargeDepth := 30) [*]

@[simp] theorem canon_keepMax (s : State) (i : ℕ) (v : ℕ) (cap : ℕ) (hc_s : Canonical s) : Canonical (keepMax s i v cap) := by
  unfold keepMax
  simp +contextual (maxDischargeDepth := 30) [*]

/-! ### Ops -/

@[simp] theorem canon_modR (s : State) (r : RidgeId) (f : Ridge → Ridge) (hc_s : Canonical s) : Canonical (modR s r f) := by
  unfold modR
  simp +contextual (maxDischargeDepth := 30) [*]

@[simp] theorem canon_modPin (s : State) (p : PinId) (f : Pin → Pin) (hc_s : Canonical s) : Canonical (modPin s p f) := by
  unfold modPin
  simp +contextual (maxDischargeDepth := 30) [*]

@[simp] theorem canon_modDps (s : State) (n : RidgeId) (f : Dps → Dps) (hc_s : Canonical s) : Canonical (modDps s n f) := by
  unfold modDps
  simp +contextual (maxDischargeDepth := 30) [*]

@[simp] theorem canon_modPort (s : State) (n : RidgeId) (f : Port → Port) (hc_s : Canonical s) : Canonical (modPort s n f) := by
  unfold modPort
  simp +contextual (maxDischargeDepth := 30) [*]

@[simp] theorem canon_modSq (s : State) (q : Fin 64) (f : Sq → Sq) (hc_s : Canonical s) : Canonical (modSq s q f) := by
  unfold modSq
  simp +contextual (maxDischargeDepth := 30) [*]

@[simp] theorem canon_modCq (s : State) (c : Fin 64) (f : Cq → Cq) (hc_s : Canonical s) : Canonical (modCq s c f) := by
  unfold modCq
  simp +contextual (maxDischargeDepth := 30) [*]

@[simp] theorem canon_modCsp (s : State) (n : Fin 2) (f : Csp → Csp) (hc_s : Canonical s) : Canonical (modCsp s n f) := by
  unfold modCsp
  simp +contextual (maxDischargeDepth := 30) [*]

@[simp] theorem canon_modQ (s : State) (id : ℕ) (f : Queue → Queue) (hc_s : Canonical s) : Canonical (modQ s id f) := by
  unfold modQ
  simp +contextual (maxDischargeDepth := 30) [*]

@[simp] theorem canon_modCol (s : State) (c : ℕ) (f : Col → Col) (hc_s : Canonical s) : Canonical (modCol s c f) := by
  unfold modCol
  simp +contextual (maxDischargeDepth := 30) [*]

@[simp] theorem canon_tickFree (s : State) (hc_s : Canonical s) : Canonical (tickFree s) := by
  unfold tickFree
  simp +contextual (maxDischargeDepth := 30) [*]

@[simp] theorem canon_settle (s : State) (hc_s : Canonical s) : Canonical (settle s) := by
  unfold settle
  simp +contextual (maxDischargeDepth := 30) [*]

@[simp] theorem canon_request (s : State) (c : ℕ) (src : ℕ) (hc_s : Canonical s) : Canonical (request s c src) := by
  unfold request
  simp +contextual (maxDischargeDepth := 30) [*]

@[simp] theorem canon_raise (s : State) (src : ℕ) (payload : ℕ) (hc_s : Canonical s) : Canonical (raise s src payload) := by
  unfold raise
  dsimp only
  generalize colOf src = c
  have h1 : ∀ e, Canonical { s with events := e } := fun _ => hc_s
  cases c
  · exact h1 _
  · dsimp only
    split
    · exact canon_modCol _ _ _ (h1 _)
    · split
      · exact canon_request _ _ _ (h1 _)
      · exact h1 _

@[simp] theorem canon_signalCq (s : State) (c : Fin 64) (hc_s : Canonical s) : Canonical (signalCq s c) := by
  unfold signalCq
  simp +contextual (maxDischargeDepth := 30) [*]

@[simp] theorem canon_cqWrite (s : State) (c : Fin 64) (entry : List Byte) (hc_s : Canonical s) : Canonical (cqWrite s c entry) := by
  unfold cqWrite
  simp +contextual (maxDischargeDepth := 30) [*]

@[simp] theorem canon_postNotice (s : State) (n : Notice) (hc_s : Canonical s) : Canonical (postNotice s n) := by
  unfold postNotice
  simp +contextual (maxDischargeDepth := 30) [*]

@[simp] theorem canon_modRing (s : State) (f : Ring → Ring) (hc_s : Canonical s) : Canonical (modRing s f) := by
  unfold modRing
  simp +contextual (maxDischargeDepth := 30) [*]

@[simp] theorem canon_frameOut (s : State) (portB : Bool) (m : RingMsg) (hc_s : Canonical s) : Canonical (frameOut s portB m) := by
  unfold frameOut
  simp +contextual (maxDischargeDepth := 30) [*]

@[simp] theorem canon_sendRing (s : State) (dest : Option ℕ) (m : RingMsg) (hc_s : Canonical s) : Canonical (sendRing s dest m) := by
  unfold sendRing
  dsimp only
  (repeat' split) <;> simp +contextual (maxDischargeDepth := 30) [*]

@[simp] theorem canon_setTaken (s : State) (q : Fin 64) (l : List Taken) (hc_s : Canonical s) : Canonical (setTaken s q l) := by
  unfold setTaken
  simp +contextual (maxDischargeDepth := 30) [*]

@[simp] theorem canon_modTaken (s : State) (q : Fin 64) (era : ℕ) (seq : Word) (f : Taken → Taken) (hc_s : Canonical s) : Canonical (modTaken s q era seq f) := by
  unfold modTaken
  simp +contextual (maxDischargeDepth := 30) [*]

@[simp] theorem canon_unreserve (s : State) (c : Fin 64) (hc_s : Canonical s) : Canonical (unreserve s c) := by
  unfold unreserve
  simp +contextual (maxDischargeDepth := 30) [*]

@[simp] theorem canon_deliverList (q : Fin 64) (x1 : List Taken) (x2 : State) (hc_x2 : Canonical x2) : Canonical (deliverList q x1 x2) := by
  induction x1 generalizing x2 with
  | nil => exact canon_setTaken _ _ _ hc_x2
  | cons t ts ih =>
    unfold deliverList
    split
    · exact canon_setTaken _ _ _ hc_x2
    · split
      · exact ih _ (canon_unreserve _ _ hc_x2)
      · split
        · exact ih _ (by simp +contextual (maxDischargeDepth := 30) [hc_x2])
        · exact canon_setTaken _ _ _ hc_x2

@[simp] theorem canon_deliver (s : State) (q : Fin 64) (hc_s : Canonical s) : Canonical (deliver s q) := by
  unfold deliver
  simp +contextual (maxDischargeDepth := 30) [*]

@[simp] theorem canon_setReply (s : State) (q : Fin 64) (era : ℕ) (seq : Word) (r : Reply) (hc_s : Canonical s) : Canonical (setReply s q era seq r) := by
  unfold setReply
  simp +contextual (maxDischargeDepth := 30) [*]

@[simp] theorem canon_memberReply (s : State) (q : Fin 64) (era : ℕ) (seq : Word) (pos : ℕ) (r : Reply) (hc_s : Canonical s) : Canonical (memberReply s q era seq pos r) := by
  unfold memberReply
  dsimp only
  (repeat' split) <;> simp +contextual (maxDischargeDepth := 30) [*]

@[simp] theorem canon_answer (s : State) (h : Hdr) (op : ℕ) (st : ℕ) (info : ℕ) (time : T64) (hc_s : Canonical s) : Canonical (answer s h op st info time) := by
  unfold answer
  dsimp only
  (repeat' split) <;> simp +contextual (maxDischargeDepth := 30) [*]

@[simp] theorem canon_replyDone (s : State) (h : Hdr) (op : ℕ) (info : ℕ) (hc_s : Canonical s) : Canonical (replyDone s h op info) := by
  unfold replyDone
  simp +contextual (maxDischargeDepth := 30) [*]

@[simp] theorem canon_replyAccepted (s : State) (h : Hdr) (op : ℕ) (info : ℕ) (t : T64) (hc_s : Canonical s) : Canonical (replyAccepted s h op info t) := by
  unfold replyAccepted
  simp +contextual (maxDischargeDepth := 30) [*]

@[simp] theorem canon_refuse (s : State) (h : Hdr) (op : ℕ) (st : ℕ) (info : ℕ) (hc_s : Canonical s) : Canonical (refuse s h op st info) := by
  unfold refuse
  simp +contextual (maxDischargeDepth := 30) [*]

@[simp] theorem canon_addTaken (s : State) (q : Fin 64) (t : Taken) (hc_s : Canonical s) : Canonical (addTaken s q t) := by
  unfold addTaken
  simp +contextual (maxDischargeDepth := 30) [*]

@[simp] theorem canon_ensureTaken (s : State) (h : Hdr) (op : ℕ) (hc_s : Canonical s) : Canonical (ensureTaken s h op) := by
  unfold ensureTaken
  (repeat' split) <;> simp_all +contextual (maxDischargeDepth := 30) 

@[simp] theorem canon_startLong (s : State) (h : Hdr) (op : ℕ) (job : LongJob) (hc_s : Canonical s) : Canonical (startLong s h op job) := by
  unfold startLong
  simp +contextual (maxDischargeDepth := 30) [*]

@[simp] theorem canon_dropLong (s : State) (l : Long) (hc_s : Canonical s) : Canonical (dropLong s l) := by
  unfold dropLong
  simp +contextual (maxDischargeDepth := 30) [*]

@[simp] theorem canon_dmaWrite (s : State) (addr : ℕ) (data : List Byte) (hc_s : Canonical s) : Canonical (dmaWrite s addr data) := by
  unfold dmaWrite
  simp +contextual (maxDischargeDepth := 30) [*]

@[simp] theorem canon_serveWaits (s : State) (hc_s : Canonical s) : Canonical (serveWaits s) := by
  unfold serveWaits
  simp +contextual (maxDischargeDepth := 30) [*]

@[simp] theorem canon_dataReply (s : State) (h : Hdr) (op : ℕ) (addr : ℕ) (data : List Byte) (hc_s : Canonical s) : Canonical (dataReply s h op addr data) := by
  unfold dataReply
  simp +contextual (maxDischargeDepth := 30) [*]

@[simp] theorem canon_waitFor (s : State) (w : Wait) (hc_s : Canonical s) : Canonical (waitFor s w) := by
  unfold waitFor
  simp +contextual (maxDischargeDepth := 30) [*]

@[simp] theorem canon_doneWhen (s : State) (h : Hdr) (op : ℕ) (on : List WaitOn) (undo : List (ℕ × Word)) (hc_s : Canonical s) : Canonical (doneWhen s h op on undo) := by
  unfold doneWhen
  simp +contextual (maxDischargeDepth := 30) [*]

@[simp] theorem canon_logFault (s : State) (d : Detect) (packets : ℕ) (tickets : ℕ) (hc_s : Canonical s) : Canonical (logFault s d packets tickets) := by
  unfold logFault
  dsimp only
  (repeat' split) <;> simp +contextual (maxDischargeDepth := 30) [*]

@[simp] theorem canon_corrected (s : State) (bit : Fin 64) (det : ℕ) (injected : Bool) (hc_s : Canonical s) : Canonical (corrected s bit det injected) := by
  unfold corrected
  simp +contextual (maxDischargeDepth := 30) [*]

@[simp] theorem canon_contained (s : State) (d : Detect) (rollback : State → State) (h_rollback : ∀ s, Canonical s → Canonical (rollback s)) (hc_s : Canonical s) : Canonical (contained s d rollback) := by
  unfold contained
  simp +contextual (maxDischargeDepth := 30) [*]

@[simp] theorem canon_useInject (s : State) (bit : Fin 64) (hc_s : Canonical s) : Canonical (useInject s bit) := by
  unfold useInject
  simp +contextual (maxDischargeDepth := 30) [*]

@[simp] theorem canon_accessInject (s : State) (bit : Fin 64) (hc_s : Canonical s) : Canonical (accessInject s bit).1 := by
  unfold accessInject
  (repeat' split) <;> simp_all +contextual (maxDischargeDepth := 30) 

/-! ### Akham -/

@[simp] theorem canon_command (s : State) (h : Hdr) (w : Row) (need : List Need) (body : State → State) (h_body : ∀ s, Canonical s → Canonical (body s)) (hc_s : Canonical s) : Canonical (command s h w need body) := by
  unfold command
  dsimp only
  (repeat' split) <;> simp +contextual (maxDischargeDepth := 30) [*]

/-! ### Tree -/

@[simp] theorem canon_modCairn (s : State) (f : Cairn → Cairn) (hc_s : Canonical s) : Canonical (modCairn s f) := by
  unfold modCairn
  simp +contextual (maxDischargeDepth := 30) [*]

@[simp] theorem canon_spreadDly (s : State) (hc_s : Canonical s) : Canonical (spreadDly s) := by
  unfold spreadDly
  simp +contextual (maxDischargeDepth := 30) [*]

/-! ### Queues -/

@[simp] theorem canon_holdEntries (s : State) (id : ℕ) (m : ℕ) (hc_s : Canonical s) : Canonical (holdEntries s id m) := by
  unfold holdEntries
  simp +contextual (maxDischargeDepth := 30) [*]

@[simp] theorem canon_returnEntries (s : State) (id : ℕ) (m : ℕ) (hc_s : Canonical s) : Canonical (returnEntries s id m) := by
  unfold returnEntries
  simp +contextual (maxDischargeDepth := 30) [*]

@[simp] theorem canon_qstoreInject (x0 : ℕ) (x1 : State) (hc_x1 : Canonical x1) : Canonical (qstoreInject x0 x1).1 := by
  induction x0 generalizing x1 with
  | zero => exact hc_x1
  | succ m ih => exact ih _ (canon_accessInject _ _ hc_x1)

@[simp] theorem canon_commitPkt (s : State) (id : ℕ) (typ : BitVec 3) (payload : List (BitVec 96)) (hc_s : Canonical s) : Canonical (commitPkt s id typ payload) := by
  unfold commitPkt
  simp +contextual (maxDischargeDepth := 30) [*]

@[simp] theorem canon_dropTicket (s : State) (num : BitVec 17) (hc_s : Canonical s) : Canonical (dropTicket s num) := by
  unfold dropTicket
  dsimp only
  (repeat' split) <;> simp +contextual (maxDischargeDepth := 30) [*]

@[simp] theorem canon_packetCommitted (s : State) (w : WaitPkt) (hc_s : Canonical s) : Canonical (packetCommitted s w) := by
  unfold packetCommitted
  dsimp only
  (repeat' split) <;> simp +contextual (maxDischargeDepth := 30) [*]

@[simp] theorem canon_submitPkt (s : State) (id : ℕ) (w : WaitPkt) (hc_s : Canonical s) : Canonical (submitPkt s id w) := by
  unfold submitPkt
  simp +contextual (maxDischargeDepth := 30) [*]

@[simp] theorem canon_removeWaiting (s : State) (id : ℕ) (p : WaitPkt → Bool) (hc_s : Canonical s) : Canonical (removeWaiting s id p) := by
  unfold removeWaiting
  simp +contextual (maxDischargeDepth := 30) [*]

/-! ### Store -/

@[simp] theorem canon_allocFrame (s : State) (hc_s : Canonical s) : ∀ x, allocFrame s = some x → Canonical x.2 := by
  unfold allocFrame
  dsimp only
  (repeat' split) <;> simp +contextual (maxDischargeDepth := 30) [*]

@[simp] theorem canon_undoAlloc (s : State) (a : ℕ × ℕ × ℕ) (hc_s : Canonical s) : Canonical (undoAlloc s a) := by
  unfold undoAlloc
  simp +contextual (maxDischargeDepth := 30) [*]

@[simp] theorem canon_allocFrames (x0 : ℕ) (x1 : State) (hc_x1 : Canonical x1) : Canonical (allocFrames x0 x1).2 := by
  induction x0 generalizing x1 with
  | zero => exact hc_x1
  | succ m ih =>
    unfold allocFrames
    split
    · exact hc_x1
    · rename_i f t h
      exact ih _ (canon_allocFrame x1 hc_x1 (f, t) h)

@[simp] theorem canon_freeFramesOf (s : State) (fs : List ℕ) (hc_s : Canonical s) : Canonical (freeFramesOf s fs) := by
  unfold freeFramesOf
  simp +contextual (maxDischargeDepth := 30) [*]

@[simp] theorem canon_putImg (s : State) (h : Handle) (i : Option Image) (hc_s : Canonical s) : Canonical (putImg s h i) := by
  unfold putImg
  simp +contextual (maxDischargeDepth := 30) [*]

@[simp] theorem canon_renewRefs (s : State) (n : RidgeId) (hc_s : Canonical s) : Canonical (renewRefs s n) := by
  unfold renewRefs
  simp +contextual (maxDischargeDepth := 30) [*]

@[simp] theorem canon_dropCopies (s : State) (h : Handle) (hc_s : Canonical s) : Canonical (dropCopies s h) := by
  unfold dropCopies
  simp +contextual (maxDischargeDepth := 30) [*]

@[simp] theorem canon_freeImage (s : State) (h : Handle) (hc_s : Canonical s) : Canonical (freeImage s h) := by
  unfold freeImage
  (repeat' split) <;> simp_all +contextual (maxDischargeDepth := 30) 

@[simp] theorem canon_sweep (s : State) (hc_s : Canonical s) : Canonical (sweep s) := by
  unfold sweep
  simp +contextual (maxDischargeDepth := 30) [*]

@[simp] theorem canon_retireFrame (s : State) (frame : ℕ) (hc_s : Canonical s) : Canonical (retireFrame s frame) := by
  unfold retireFrame
  simp +contextual (maxDischargeDepth := 30) [*]

@[simp] theorem canon_restageOne (s : State) (r : RidgeId) (hc_s : Canonical s) : Canonical (restageOne s r) := by
  unfold restageOne
  simp +contextual (maxDischargeDepth := 30) [*]

@[simp] theorem canon_restage (s : State) (rs : List RidgeId) (hc_s : Canonical s) : Canonical (restage s rs) := by
  unfold restage
  simp +contextual (maxDischargeDepth := 30) [*]

@[simp] theorem canon_reclaimLent (s : State) (hc_s : Canonical s) : Canonical (reclaimLent s) := by
  unfold reclaimLent
  simp +contextual (maxDischargeDepth := 30) [*]

@[simp] theorem canon_endLending (s : State) (hc_s : Canonical s) : Canonical (endLending s) := by
  unfold endLending
  simp +contextual (maxDischargeDepth := 30) [*]

@[simp] theorem canon_lend (x0 : ℕ) (x1 : State) (hc_x1 : Canonical x1) : Canonical (lend x0 x1) := by
  induction x0 generalizing x1 with
  | zero => exact hc_x1
  | succ m ih =>
    unfold lend
    split
    · exact hc_x1
    · split
      · exact hc_x1
      · exact ih _ (canon_modR _ _ _ hc_x1)

@[simp] theorem canon_lendSlots (s : State) (hc_s : Canonical s) : Canonical (lendSlots s) := by
  unfold lendSlots
  simp +contextual (maxDischargeDepth := 30) [*]

@[simp] theorem canon_segLoadEffect (h : Hdr) (handle : Word) (addr : BitVec 64) (s : State) (hc_s : Canonical s) : Canonical (segLoadEffect h handle addr s) := by
  unfold segLoadEffect
  apply canon_command _ _ _ _ _ _ hc_s
  intro s hc_s
  try dsimp only
  split
  · simp +contextual (maxDischargeDepth := 30) [*]
  · split
    · split <;> simp +contextual (maxDischargeDepth := 30) [*]
    · split
      · simp +contextual (maxDischargeDepth := 30) [*]
      · rename_i f t h
        have := canon_allocFrame s hc_s (f, t) h
        simp +contextual (maxDischargeDepth := 30) [*]

@[simp] theorem canon_segLoadDoneEffect (k : Handle) (i : SegImage) (s : State) (hc_s : Canonical s) : Canonical (segLoadDoneEffect k i s) := by
  unfold segLoadDoneEffect
  dsimp only
  (repeat' split) <;> simp +contextual (maxDischargeDepth := 30) [*]

@[simp] theorem canon_segReleaseEffect (h : Hdr) (handle : Word) (s : State) (hc_s : Canonical s) : Canonical (segReleaseEffect h handle s) := by
  unfold segReleaseEffect
  apply canon_command _ _ _ _ _ _ hc_s
  intro s hc_s
  try dsimp only
  (repeat' split) <;> simp +contextual (maxDischargeDepth := 30) [*]

@[simp] theorem canon_segPinEffect (h : Hdr) (handle : Word) (s : State) (hc_s : Canonical s) : Canonical (segPinEffect h handle s) := by
  unfold segPinEffect
  simp +contextual (maxDischargeDepth := 30) [*]

@[simp] theorem canon_segUnpinEffect (h : Hdr) (handle : Word) (s : State) (hc_s : Canonical s) : Canonical (segUnpinEffect h handle s) := by
  unfold segUnpinEffect
  simp +contextual (maxDischargeDepth := 30) [*]

@[simp] theorem canon_progBindEffect (h : Hdr) (handle : Word) (unbind : Bool) (maxBody : Byte) (d : Byte) (targets : List Word) (s : State) (hc_s : Canonical s) : Canonical (progBindEffect h handle unbind maxBody d targets s) := by
  unfold progBindEffect
  apply canon_command _ _ _ _ _ _ hc_s
  intro s hc_s
  try dsimp only
  (repeat' split) <;> simp +contextual (maxDischargeDepth := 30) [*]

/-! ### Tickets -/

@[simp] theorem canon_issue (s : State) (h : Hdr) (queue : ℕ) (booked : Bool) (job : Job) (hc_s : Canonical s) : Canonical (issue s h queue booked job) := by
  unfold issue
  simp +contextual (maxDischargeDepth := 30) [*]

@[simp] theorem canon_setJob (s : State) (num : BitVec 17) (booked : Bool) (j : Job) (hc_s : Canonical s) : Canonical (setJob s num booked j) := by
  unfold setJob
  simp +contextual (maxDischargeDepth := 30) [*]

@[simp] theorem canon_placeOne (s : State) (t : Ticket) (hc_s : Canonical s) : Canonical (placeOne s t) := by
  unfold placeOne
  dsimp only
  (repeat' split) <;> simp +contextual (maxDischargeDepth := 30) [*]

@[simp] theorem canon_replaceJobs (s : State) (hc_s : Canonical s) : Canonical (replaceJobs s) := by
  unfold replaceJobs
  simp +contextual (maxDischargeDepth := 30) [*]

@[simp] theorem canon_releaseJob (s : State) (t : Ticket) (hc_s : Canonical s) : Canonical (releaseJob s t) := by
  unfold releaseJob
  dsimp only
  (repeat' split) <;> simp +contextual (maxDischargeDepth := 30) [*]

@[simp] theorem canon_endTicket (s : State) (num : BitVec 17) (status : ℕ) (hc_s : Canonical s) : Canonical (endTicket s num status) := by
  unfold endTicket
  dsimp only
  (repeat' split) <;> simp +contextual (maxDischargeDepth := 30) [*]

@[simp] theorem canon_endTickets (s : State) (p : Ticket → Bool) (status : ℕ) (hc_s : Canonical s) : Canonical (endTickets s p status) := by
  unfold endTickets
  simp +contextual (maxDischargeDepth := 30) [*]

@[simp] theorem canon_rollbackQueue (s : State) (id : ℕ) (status : ℕ) (hc_s : Canonical s) : Canonical (rollbackQueue s id status) := by
  unfold rollbackQueue
  simp +contextual (maxDischargeDepth := 30) [*]

@[simp] theorem canon_endUnready (s : State) (hc_s : Canonical s) : Canonical (endUnready s) := by
  unfold endUnready
  simp +contextual (maxDischargeDepth := 30) [*]

@[simp] theorem canon_measureEffect (h : Hdr) (selector : BitVec 16) (nMinus1 : BitVec 16) (conv : BitVec 6) (pinned : Bool) (queue : BitVec 16) (s : State) (hc_s : Canonical s) : Canonical (measureEffect h selector nMinus1 conv pinned queue s) := by
  unfold measureEffect
  apply canon_command _ _ _ _ _ _ hc_s
  intro s hc_s
  try dsimp only
  (repeat' split) <;> simp +contextual (maxDischargeDepth := 30) [*]

@[simp] theorem canon_ticketFault (s : State) (bit : Fin 64) (num : BitVec 17) (injected : Bool) (hc_s : Canonical s) : Canonical (ticketFault s bit num injected) := by
  unfold ticketFault
  simp +contextual (maxDischargeDepth := 30) [*]

@[simp] theorem canon_measureStartEffect (num : BitVec 17) (s : State) (hc_s : Canonical s) : Canonical (measureStartEffect num s) := by
  unfold measureStartEffect
  have hp := canon_accessInject s 31 hc_s
  split
  · split
    · split
      · exact hc_s
      · split
        · have := canon_eq1 hp ‹_›
          simp +contextual (maxDischargeDepth := 30) [*]
        · have := canon_eq1 hp ‹_›
          dsimp only
          apply canon_setJob
          split <;> simp +contextual (maxDischargeDepth := 30) [*]
    · exact hc_s
  · exact hc_s

@[simp] theorem canon_commitJob (s : State) (t : Ticket) (typ : BitVec 3) (payload : List (BitVec 96)) (hc_s : Canonical s) : Canonical (commitJob s t typ payload) := by
  unfold commitJob
  simp +contextual (maxDischargeDepth := 30) [*]

@[simp] theorem canon_measureEndEffect (num : BitVec 17) (samples : List ℤ) (atLimit : Bool) (s : State) (hc_s : Canonical s) : Canonical (measureEndEffect num samples atLimit s) := by
  unfold measureEndEffect
  (repeat' split) <;> simp_all +contextual (maxDischargeDepth := 30) 

@[simp] theorem canon_timeMeasureEffect (h : Hdr) (a : TimuArgs) (s : State) (hc_s : Canonical s) : Canonical (timeMeasureEffect h a s) := by
  unfold timeMeasureEffect
  apply canon_command _ _ _ _ _ _ hc_s
  intro s hc_s
  try dsimp only
  (repeat' split) <;> simp +contextual (maxDischargeDepth := 30) [*]

@[simp] theorem canon_timuJobStartEffect (num : BitVec 17) (s : State) (hc_s : Canonical s) : Canonical (timuJobStartEffect num s) := by
  unfold timuJobStartEffect
  have hp := canon_accessInject s 30 hc_s
  split
  · split
    · split
      · exact hc_s
      · split
        · have := canon_eq1 hp ‹_›
          simp +contextual (maxDischargeDepth := 30) [*]
        · have := canon_eq1 hp ‹_›
          dsimp only
          apply canon_setJob
          split <;> simp +contextual (maxDischargeDepth := 30) [*]
    · exact hc_s
  · exact hc_s

@[simp] theorem canon_timuSee (s : State) (p : PinId) (old : Cmp) (new : Cmp) (t : T64) (hc_s : Canonical s) : Canonical (timuSee s p old new t) := by
  unfold timuSee
  simp +contextual (maxDischargeDepth := 30) [*]

@[simp] theorem canon_timuJobEndEffect (num : BitVec 17) (s : State) (hc_s : Canonical s) : Canonical (timuJobEndEffect num s) := by
  unfold timuJobEndEffect
  dsimp only
  (repeat' split) <;> simp +contextual (maxDischargeDepth := 30) [*]

/-! ### Drains -/

@[simp] theorem canon_queueConfigEffect (h : Hdr) (queue : BitVec 16) (c : QConf) (s : State) (hc_s : Canonical s) : Canonical (queueConfigEffect h queue c s) := by
  unfold queueConfigEffect
  apply canon_command _ _ _ _ _ _ hc_s
  intro s hc_s
  try dsimp only
  (repeat' split) <;> simp +contextual (maxDischargeDepth := 30) [*]

@[simp] theorem canon_staleTimerEffect (id : BitVec 14) (s : State) (hc_s : Canonical s) : Canonical (staleTimerEffect id s) := by
  unfold staleTimerEffect
  (repeat' split) <;> simp_all +contextual (maxDischargeDepth := 30) 

@[simp] theorem canon_ringWrite (base : BitVec 64) (n : ℕ) (x2 : List (List Byte)) (x3 : ℕ) (x4 : State) (hc_x4 : Canonical x4) : Canonical (ringWrite base n x2 x3 x4) := by
  induction x2 generalizing x3 x4 with
  | nil => exact hc_x4
  | cons e es ih => exact ih _ _ (canon_dmaWrite _ _ _ hc_x4)

@[simp] theorem canon_drainTake (id : ℕ) (badSeq : List (BitVec 12)) (x2 : List QPacket) (x3 : Drained) (x4 : State) (hc_x4 : Canonical x4) : Canonical (drainTake id badSeq x2 x3 x4).1 := by
  induction x2 generalizing x3 x4 with
  | nil => exact canon_modQ _ _ _ hc_x4
  | cons p ps ih =>
    unfold drainTake
    dsimp only
    split
    · apply ih
      simp +contextual (maxDischargeDepth := 30) [hc_x4]
    · split
      · apply ih
        simp +contextual (maxDischargeDepth := 30) [hc_x4]
      · simp +contextual (maxDischargeDepth := 30) [hc_x4]

@[simp] theorem canon_flushReply (s : State) (id : ℕ) (st : ℕ) (info : ℕ) (hc_s : Canonical s) : Canonical (flushReply s id st info) := by
  unfold flushReply
  dsimp only
  (repeat' split) <;> simp +contextual (maxDischargeDepth := 30) [*]

@[simp] theorem canon_drainStartEffect (id : BitVec 14) (badSeq : List (BitVec 12)) (s : State) (hc_s : Canonical s) : Canonical (drainStartEffect id badSeq s) := by
  unfold drainStartEffect
  dsimp only
  (repeat' split) <;> simp +contextual (maxDischargeDepth := 30) [*]

@[simp] theorem canon_queueWriteback (s : State) (id : ℕ) (seq : BitVec 12) (hc_s : Canonical s) : Canonical (queueWriteback s id seq) := by
  unfold queueWriteback
  simp +contextual (maxDischargeDepth := 30) [*]

@[simp] theorem canon_queueNotice (s : State) (id : ℕ) (hc_s : Canonical s) : Canonical (queueNotice s id) := by
  unfold queueNotice
  dsimp only
  (repeat' split) <;> simp +contextual (maxDischargeDepth := 30) [*]

@[simp] theorem canon_drainDoneEffect (id : BitVec 14) (s : State) (hc_s : Canonical s) : Canonical (drainDoneEffect id s) := by
  unfold drainDoneEffect
  dsimp only
  (repeat' split) <;> simp +contextual (maxDischargeDepth := 30) [*]

@[simp] theorem canon_flushNow (s : State) (i : ℕ) (m : FlushMode) (later : ℕ) (hc_s : Canonical s) : Canonical (flushNow s i m later) := by
  unfold flushNow
  dsimp only
  (repeat' split) <;> simp +contextual (maxDischargeDepth := 30) [*]

@[simp] theorem canon_queueFlushEffect (h : Hdr) (queue : BitVec 16) (mode : Byte) (s : State) (hc_s : Canonical s) : Canonical (queueFlushEffect h queue mode s) := by
  unfold queueFlushEffect
  simp +contextual (maxDischargeDepth := 30) [*]

@[simp] theorem canon_queueFlushBoundaryEffect (id : BitVec 14) (s : State) (hc_s : Canonical s) : Canonical (queueFlushBoundaryEffect id s) := by
  unfold queueFlushBoundaryEffect
  dsimp only
  (repeat' split) <;> simp +contextual (maxDischargeDepth := 30) [*]

@[simp] theorem canon_queueHeadWriteEffect (id : BitVec 14) (v : Word) (s : State) (hc_s : Canonical s) : Canonical (queueHeadWriteEffect id v s) := by
  unfold queueHeadWriteEffect
  simp +contextual (maxDischargeDepth := 30) [*]

/-! ### Supplies -/

@[simp] theorem canon_setLevel (s : State) (n : RidgeId) (v : ℤ) (hc_s : Canonical s) : Canonical (setLevel s n v) := by
  unfold setLevel
  simp +contextual (maxDischargeDepth := 30) [*]

@[simp] theorem canon_dpsMove (s : State) (n : RidgeId) (slewed : Bool) (v : ℤ) (hc_s : Canonical s) : Canonical (dpsMove s n slewed v) := by
  unfold dpsMove
  simp +contextual (maxDischargeDepth := 30) [*]

@[simp] theorem canon_dpsConnect (s : State) (n : RidgeId) (out : DpsOut) (hc_s : Canonical s) : Canonical (dpsConnect s n out) := by
  unfold dpsConnect
  simp +contextual (maxDischargeDepth := 30) [*]

@[simp] theorem canon_dpsDisconnect (s : State) (n : RidgeId) (slewed : Bool) (hc_s : Canonical s) : Canonical (dpsDisconnect s n slewed) := by
  unfold dpsDisconnect
  simp +contextual (maxDischargeDepth := 30) [*]

@[simp] theorem canon_dpsSync (s : State) (n : RidgeId) (hc_s : Canonical s) : Canonical (dpsSync s n) := by
  unfold dpsSync
  simp +contextual (maxDischargeDepth := 30) [*]

@[simp] theorem canon_dpsApply (s : State) (n : RidgeId) (hc_s : Canonical s) : Canonical (dpsApply s n) := by
  unfold dpsApply
  simp +contextual (maxDischargeDepth := 30) [*]

@[simp] theorem canon_dpsFault (s : State) (n : RidgeId) (hc_s : Canonical s) : Canonical (dpsFault s n) := by
  unfold dpsFault
  dsimp only
  (repeat' split) <;> simp +contextual (maxDischargeDepth := 30) [*]

@[simp] theorem canon_dpsSlewUpdateEffect (n : RidgeId) (s : State) (hc_s : Canonical s) : Canonical (dpsSlewUpdateEffect n s) := by
  unfold dpsSlewUpdateEffect
  simp +contextual (maxDischargeDepth := 30) [*]

@[simp] theorem canon_markMeasures (s : State) (hit : BitVec 16 → Bool) (f : MeasJob → MeasJob) (hc_s : Canonical s) : Canonical (markMeasures s hit f) := by
  unfold markMeasures
  simp +contextual (maxDischargeDepth := 30) [*]

@[simp] theorem canon_dpsCurrentLimitEffect (n : RidgeId) (s : State) (hc_s : Canonical s) : Canonical (dpsCurrentLimitEffect n s) := by
  unfold dpsCurrentLimitEffect
  simp +contextual (maxDischargeDepth := 30) [*]

@[simp] theorem canon_dpsComplianceEffect (n : RidgeId) (s : State) (hc_s : Canonical s) : Canonical (dpsComplianceEffect n s) := by
  unfold dpsComplianceEffect
  simp +contextual (maxDischargeDepth := 30) [*]

@[simp] theorem canon_dpsLimitClearEffect (n : RidgeId) (s : State) (hc_s : Canonical s) : Canonical (dpsLimitClearEffect n s) := by
  unfold dpsLimitClearEffect
  simp +contextual (maxDischargeDepth := 30) [*]

@[simp] theorem canon_dpsOpenLoadEffect (n : RidgeId) (s : State) (hc_s : Canonical s) : Canonical (dpsOpenLoadEffect n s) := by
  unfold dpsOpenLoadEffect
  simp +contextual (maxDischargeDepth := 30) [*]

@[simp] theorem canon_dpsSenseOpenEffect (n : RidgeId) (s : State) (hc_s : Canonical s) : Canonical (dpsSenseOpenEffect n s) := by
  unfold dpsSenseOpenEffect
  simp +contextual (maxDischargeDepth := 30) [*]

@[simp] theorem canon_dpsSenseRestoreEffect (n : RidgeId) (s : State) (hc_s : Canonical s) : Canonical (dpsSenseRestoreEffect n s) := by
  unfold dpsSenseRestoreEffect
  simp +contextual (maxDischargeDepth := 30) [*]

@[simp] theorem canon_dpsNcoUpdateEffect (n : RidgeId) (s : State) (hc_s : Canonical s) : Canonical (dpsNcoUpdateEffect n s) := by
  unfold dpsNcoUpdateEffect
  simp +contextual (maxDischargeDepth := 30) [*]

@[simp] theorem canon_dpsPowerWindowEffect (power : List (BitVec 16)) (current : List (BitVec 16)) (s : State) (hc_s : Canonical s) : Canonical (dpsPowerWindowEffect power current s) := by
  unfold dpsPowerWindowEffect
  simp +contextual (maxDischargeDepth := 30) [*]

@[simp] theorem canon_dpsCapReleaseEffect (n : RidgeId) (s : State) (hc_s : Canonical s) : Canonical (dpsCapReleaseEffect n s) := by
  unfold dpsCapReleaseEffect
  (repeat' split) <;> simp_all +contextual (maxDischargeDepth := 30) 

/-! ### Capture -/

@[simp] theorem canon_modStream (s : State) (r : RidgeId) (f : Stream → Stream) (hc_s : Canonical s) : Canonical (modStream s r f) := by
  unfold modStream
  simp +contextual (maxDischargeDepth := 30) [*]

@[simp] theorem canon_offer (s : State) (r : RidgeId) (t : T64) (lane : Fin 16) (c : Cmp) (hc_s : Canonical s) : Canonical (offer s r t lane c) := by
  unfold offer
  (repeat' split) <;> simp_all +contextual (maxDischargeDepth := 30) 

@[simp] theorem canon_offerLog (s : State) (r : RidgeId) (t : T64) (rec : BitVec 64) (hc_s : Canonical s) : Canonical (offerLog s r t rec) := by
  unfold offerLog
  simp +contextual (maxDischargeDepth := 30) [*]

@[simp] theorem canon_writeSpecial (s : State) (r : RidgeId) (t : T64) (recs : List (BitVec 64)) (afterLoss : Bool) (hc_s : Canonical s) : Canonical (writeSpecial s r t recs afterLoss) := by
  unfold writeSpecial
  simp +contextual (maxDischargeDepth := 30) [*]

@[simp] theorem canon_takeDue (s : State) (r : RidgeId) (k : ℕ) (d : Due) (fits : Bool) (hc_s : Canonical s) : Canonical (takeDue s r k d fits) := by
  unfold takeDue
  dsimp only
  (repeat' split) <;> simp +contextual (maxDischargeDepth := 30) [*]

@[simp] theorem canon_takeTick (r : RidgeId) (k : ℕ) (x2 : List Due) (x3 : ℕ) (x4 : ℕ) (x5 : State) (hc_x5 : Canonical x5) : Canonical (takeTick r k x2 x3 x4 x5) := by
  induction x2 generalizing x3 x4 x5 with
  | nil => exact hc_x5
  | cons d ds ih =>
    unfold takeTick
    split
    · exact ih _ _ _ (canon_takeDue _ _ _ _ _ hc_x5)
    · split
      · exact ih _ _ _ (canon_takeDue _ _ _ _ _ hc_x5)
      · exact ih _ _ _ (canon_takeDue _ _ _ _ _ hc_x5)

@[simp] theorem canon_takeTicks (r : RidgeId) (x1 : ℕ) (x2 : List Due) (x3 : State) (hc_x3 : Canonical x3) : Canonical (takeTicks r x1 x2 x3) := by
  induction x1 generalizing x2 x3 with
  | zero => exact hc_x3
  | succ m ih =>
    unfold takeTicks
    split
    · exact ih _ _ (canon_takeTick _ _ _ _ _ _ hc_x3)
    · exact hc_x3

@[simp] theorem canon_settleBefore (s : State) (r : RidgeId) (t : T64) (hc_s : Canonical s) : Canonical (settleBefore s r t) := by
  unfold settleBefore
  dsimp only
  (repeat' split) <;> simp +contextual (maxDischargeDepth := 30) [*]

@[simp] theorem canon_dueAnchor (s : State) (r : RidgeId) (before : T64) (hc_s : Canonical s) : Canonical (dueAnchor s r before) := by
  unfold dueAnchor
  dsimp only
  (repeat' split) <;> simp +contextual (maxDischargeDepth := 30) [*]

@[simp] theorem canon_settleStream (s : State) (r : RidgeId) (hc_s : Canonical s) : Canonical (settleStream s r) := by
  unfold settleStream
  dsimp only
  (repeat' split) <;> simp +contextual (maxDischargeDepth := 30) [*]

@[simp] theorem canon_siteFails (s : State) (n : ℕ) (k : Fin 64) (hc_s : Canonical s) : Canonical (siteFails s n k) := by
  unfold siteFails
  simp +contextual (maxDischargeDepth := 30) [*]

@[simp] theorem canon_logEntry (s : State) (r : RidgeId) (t : T64) (number : ℕ) (period : ℕ) (masked : Bool) (lanes : BitVec 16) (direct : Bool) (hc_s : Canonical s) : Canonical (logEntry s r t number period masked lanes direct) := by
  unfold logEntry
  simp +contextual (maxDischargeDepth := 30) [*]

@[simp] theorem canon_judgeList (r : RidgeId) (t : T64) (x2 : List Entry) (x3 : State) (hc_x3 : Canonical x3) : Canonical (judgeList r t x2 x3) := by
  induction x2 generalizing x3 with
  | nil => exact canon_modR _ _ _ hc_x3
  | cons e es ih =>
    unfold judgeList
    dsimp only
    split
    · apply ih
      split <;> simp +contextual (maxDischargeDepth := 30) [hc_x3]
    · simp +contextual (maxDischargeDepth := 30) [hc_x3]

@[simp] theorem canon_judgeTo (s : State) (r : RidgeId) (t : T64) (hc_s : Canonical s) : Canonical (judgeTo s r t) := by
  unfold judgeTo
  simp +contextual (maxDischargeDepth := 30) [*]

@[simp] theorem canon_judge (s : State) (r : RidgeId) (hc_s : Canonical s) : Canonical (judge s r) := by
  unfold judge
  simp +contextual (maxDischargeDepth := 30) [*]

@[simp] theorem canon_endWindow (s : State) (r : RidgeId) (hc_s : Canonical s) : Canonical (endWindow s r) := by
  unfold endWindow
  dsimp only
  (repeat' split) <;> simp +contextual (maxDischargeDepth := 30) [*]

@[simp] theorem canon_captureWindowEndEffect (r : RidgeId) (s : State) (hc_s : Canonical s) : Canonical (captureWindowEndEffect r s) := by
  unfold captureWindowEndEffect
  dsimp only
  (repeat' split) <;> simp +contextual (maxDischargeDepth := 30) [*]

@[simp] theorem canon_captureBlockTimeoutEffect (r : RidgeId) (s : State) (hc_s : Canonical s) : Canonical (captureBlockTimeoutEffect r s) := by
  unfold captureBlockTimeoutEffect
  dsimp only
  (repeat' split) <;> simp +contextual (maxDischargeDepth := 30) [*]

@[simp] theorem canon_anchorEffect (r : RidgeId) (s : State) (hc_s : Canonical s) : Canonical (anchorEffect r s) := by
  unfold anchorEffect
  simp +contextual (maxDischargeDepth := 30) [*]

@[simp] theorem canon_armStream (a : CapArgs) (num : BitVec 17) (nbr : ℕ) (s : State) (jr : ℕ × RidgeId) (hc_s : Canonical s) : Canonical (armStream a num nbr s jr) := by
  unfold armStream
  simp +contextual (maxDischargeDepth := 30) [*]

@[simp] theorem canon_captureArmEffect (h : Hdr) (a : CapArgs) (s : State) (hc_s : Canonical s) : Canonical (captureArmEffect h a s) := by
  unfold captureArmEffect
  apply canon_command _ _ _ _ _ _ hc_s
  intro s hc_s
  try dsimp only
  split
  · simp +contextual (maxDischargeDepth := 30) [*]
  · apply canon_replyAccepted
    apply canon_foldl
    · intro s a hc_s; simp +contextual (maxDischargeDepth := 30) [*]
    · simp +contextual (maxDischargeDepth := 30) [*]

/-! ### Ports -/

@[simp] theorem canon_ncoReset (s : State) (n : RidgeId) (t : T64) (hc_s : Canonical s) : Canonical (ncoReset s n t) := by
  unfold ncoReset
  simp +contextual (maxDischargeDepth := 30) [*]

@[simp] theorem canon_awgRun (s : State) (n : RidgeId) (hc_s : Canonical s) : Canonical (awgRun s n) := by
  unfold awgRun
  dsimp only
  (repeat' split) <;> simp +contextual (maxDischargeDepth := 30) [*]

@[simp] theorem canon_armAwg (s : State) (n : RidgeId) (t : T64) (withRidge : Bool) (hc_s : Canonical s) : Canonical (armAwg s n t withRidge) := by
  unfold armAwg
  simp +contextual (maxDischargeDepth := 30) [*]

@[simp] theorem canon_stopAwg (s : State) (n : RidgeId) (hc_s : Canonical s) : Canonical (stopAwg s n) := by
  unfold stopAwg
  simp +contextual (maxDischargeDepth := 30) [*]

@[simp] theorem canon_stopWithRidge (s : State) (r : RidgeId) (hc_s : Canonical s) : Canonical (stopWithRidge s r) := by
  unfold stopWithRidge
  simp +contextual (maxDischargeDepth := 30) [*]

@[simp] theorem canon_awgStartEffect (n : RidgeId) (s : State) (hc_s : Canonical s) : Canonical (awgStartEffect n s) := by
  unfold awgStartEffect
  dsimp only
  (repeat' split) <;> simp +contextual (maxDischargeDepth := 30) [*]

@[simp] theorem canon_frameFault (s : State) (frame : ℕ) (rollback : State → State) (h_rollback : ∀ s, Canonical s → Canonical (rollback s)) (hc_s : Canonical s) : Canonical (frameFault s frame rollback) := by
  unfold frameFault
  simp +contextual (maxDischargeDepth := 30) [*]

@[simp] theorem canon_awgRead (s : State) (h : Handle) (read : Secded) (hc_s : Canonical s) : Canonical (awgRead s h read) := by
  unfold awgRead
  (repeat' split) <;> simp_all +contextual (maxDischargeDepth := 30) 

@[simp] theorem canon_awgMove (s : State) (n : RidgeId) (next : Handle) (at_ : T64) (hc_s : Canonical s) : Canonical (awgMove s n next at_) := by
  unfold awgMove
  dsimp only
  (repeat' split) <;> simp +contextual (maxDischargeDepth := 30) [*]

@[simp] theorem canon_awgSegmentEndEffect (n : RidgeId) (read : Secded) (s : State) (hc_s : Canonical s) : Canonical (awgSegmentEndEffect n read s) := by
  unfold awgSegmentEndEffect
  dsimp only
  (repeat' split) <;> simp +contextual (maxDischargeDepth := 30) [*]

@[simp] theorem canon_armAcq (s : State) (h : Hdr) (n : RidgeId) (a : AcqArgs) (t : T64) (hc_s : Canonical s) : Canonical (armAcq s h n a t) := by
  unfold armAcq
  simp +contextual (maxDischargeDepth := 30) [*]

@[simp] theorem canon_acqArmEffect (h : Hdr) (a : AcqArgs) (s : State) (hc_s : Canonical s) : Canonical (acqArmEffect h a s) := by
  unfold acqArmEffect
  apply canon_command _ _ _ _ _ _ hc_s
  intro s hc_s
  try dsimp only
  (repeat' split) <;> simp +contextual (maxDischargeDepth := 30) [*]

@[simp] theorem canon_modAcq (s : State) (n : RidgeId) (f : Acq → Acq) (hc_s : Canonical s) : Canonical (modAcq s n f) := by
  unfold modAcq
  simp +contextual (maxDischargeDepth := 30) [*]

@[simp] theorem canon_markRange (s : State) (n : RidgeId) (l : List (BitVec 16)) (hc_s : Canonical s) : Canonical (markRange s n l) := by
  unfold markRange
  simp +contextual (maxDischargeDepth := 30) [*]

@[simp] theorem canon_acqStartEffect (n : RidgeId) (s : State) (hc_s : Canonical s) : Canonical (acqStartEffect n s) := by
  unfold acqStartEffect
  (repeat' split) <;> simp_all +contextual (maxDischargeDepth := 30) 

@[simp] theorem canon_adcTick (s : State) (n : RidgeId) (hc_s : Canonical s) : Canonical (adcTick s n) := by
  unfold adcTick
  dsimp only
  (repeat' split) <;> simp +contextual (maxDischargeDepth := 30) [*]

@[simp] theorem canon_passOver (s : State) (n : RidgeId) (index : ℕ) (hc_s : Canonical s) : Canonical (passOver s n index) := by
  unfold passOver
  simp +contextual (maxDischargeDepth := 30) [*]

@[simp] theorem canon_acqEvent (s : State) (n : RidgeId) (hc_s : Canonical s) : Canonical (acqEvent s n) := by
  unfold acqEvent
  (repeat' split) <;> simp_all +contextual (maxDischargeDepth := 30) 

@[simp] theorem canon_acceptTrigger (s : State) (n : RidgeId) (a : Acq) (t : T64) (index : ℕ) (interp : Bool) (hc_s : Canonical s) : Canonical (acceptTrigger s n a t index interp) := by
  unfold acceptTrigger
  simp +contextual (maxDischargeDepth := 30) [*]

@[simp] theorem canon_analogTriggerEffect (n : RidgeId) (s0 : BitVec 16) (s1 : BitVec 16) (index : ℕ) (arm : ℕ) (x : BitVec 16) (s : State) (hc_s : Canonical s) : Canonical (analogTriggerEffect n s0 s1 index arm x s) := by
  unfold analogTriggerEffect
  dsimp only
  (repeat' split) <;> simp +contextual (maxDischargeDepth := 30) [*]

@[simp] theorem canon_triggerHoldoffEndEffect (n : RidgeId) (s : State) (hc_s : Canonical s) : Canonical (triggerHoldoffEndEffect n s) := by
  unfold triggerHoldoffEndEffect
  dsimp only
  (repeat' split) <;> simp +contextual (maxDischargeDepth := 30) [*]

@[simp] theorem canon_finishEmpty (s : State) (n : RidgeId) (a : Acq) (hc_s : Canonical s) : Canonical (finishEmpty s n a) := by
  unfold finishEmpty
  (repeat' split) <;> simp_all +contextual (maxDischargeDepth := 30) 

@[simp] theorem canon_recordCompleteEffect (n : RidgeId) (samples : List (BitVec 16)) (s : State) (hc_s : Canonical s) : Canonical (recordCompleteEffect n samples s) := by
  unfold recordCompleteEffect
  dsimp only
  (repeat' split) <;> simp +contextual (maxDischargeDepth := 30) [*]

@[simp] theorem canon_streamBlock (s : State) (n : RidgeId) (a : Acq) (raw : List (BitVec 16)) (ends : Bool) (hc_s : Canonical s) : Canonical (streamBlock s n a raw ends) := by
  unfold streamBlock
  simp +contextual (maxDischargeDepth := 30) [*]

@[simp] theorem canon_acqPostEndEffect (n : RidgeId) (samples : List (BitVec 16)) (s : State) (hc_s : Canonical s) : Canonical (acqPostEndEffect n samples s) := by
  unfold acqPostEndEffect
  dsimp only
  (repeat' split) <;> simp +contextual (maxDischargeDepth := 30) [*]

@[simp] theorem canon_analogBlockCompleteEffect (n : RidgeId) (samples : List (BitVec 16)) (s : State) (hc_s : Canonical s) : Canonical (analogBlockCompleteEffect n samples s) := by
  unfold analogBlockCompleteEffect
  dsimp only
  (repeat' split) <;> simp +contextual (maxDischargeDepth := 30) [*]

@[simp] theorem canon_stopAcq (s : State) (n : RidgeId) (hc_s : Canonical s) : Canonical (stopAcq s n) := by
  unfold stopAcq
  dsimp only
  (repeat' split) <;> simp +contextual (maxDischargeDepth := 30) [*]

@[simp] theorem canon_regionFault (s : State) (frame : ℕ) (num : BitVec 17) (hc_s : Canonical s) : Canonical (regionFault s frame num) := by
  unfold regionFault
  simp +contextual (maxDischargeDepth := 30) [*]

/-! ### Copies -/

@[simp] theorem canon_popBlock (s : State) (r : RidgeId) (num : BitVec 17) (hc_s : Canonical s) : Canonical (popBlock s r num) := by
  unfold popBlock
  simp +contextual (maxDischargeDepth := 30) [*]

@[simp] theorem canon_popAnalog (s : State) (n : RidgeId) (num : BitVec 17) (hc_s : Canonical s) : Canonical (popAnalog s n num) := by
  unfold popAnalog
  simp +contextual (maxDischargeDepth := 30) [*]

@[simp] theorem canon_leaveRegion (s : State) (w : WaitPkt) (hc_s : Canonical s) : Canonical (leaveRegion s w) := by
  unfold leaveRegion
  (repeat' split) <;> simp_all +contextual (maxDischargeDepth := 30) 

@[simp] theorem canon_admitPkt (s : State) (id : ℕ) (w : WaitPkt) (hc_s : Canonical s) : Canonical (admitPkt s id w) := by
  unfold admitPkt
  simp +contextual (maxDischargeDepth := 30) [*]

@[simp] theorem canon_submitBlock (s : State) (id : ℕ) (w : WaitPkt) (hc_s : Canonical s) : Canonical (submitBlock s id w) := by
  unfold submitBlock
  simp +contextual (maxDischargeDepth := 30) [*]

@[simp] theorem canon_packetAdmissionEffect (id : BitVec 14) (s : State) (hc_s : Canonical s) : Canonical (packetAdmissionEffect id s) := by
  unfold packetAdmissionEffect
  (repeat' split) <;> simp_all +contextual (maxDischargeDepth := 30) 

@[simp] theorem canon_regionRead (s : State) (read : Secded) (frame : ℕ) (num : BitVec 17) (go : State → State) (h_go : ∀ s, Canonical s → Canonical (go s)) (hc_s : Canonical s) : Canonical (regionRead s read frame num go) := by
  unfold regionRead
  (repeat' split) <;> simp_all +contextual (maxDischargeDepth := 30) 

@[simp] theorem canon_analogBlockCopyEffect (n : RidgeId) (read : Secded) (s : State) (hc_s : Canonical s) : Canonical (analogBlockCopyEffect n read s) := by
  unfold analogBlockCopyEffect
  dsimp only
  (repeat' split) <;> simp +contextual (maxDischargeDepth := 30) [*]

@[simp] theorem canon_captureBlockCopyEffect (r : RidgeId) (read : Secded) (s : State) (hc_s : Canonical s) : Canonical (captureBlockCopyEffect r read s) := by
  unfold captureBlockCopyEffect
  dsimp only
  (repeat' split) <;> simp +contextual (maxDischargeDepth := 30) [*]

/-! ### Run -/

@[simp] theorem canon_applySwap (s : State) (r : RidgeId) (t : T64) (hc_s : Canonical s) : Canonical (applySwap s r t) := by
  unfold applySwap
  simp +contextual (maxDischargeDepth := 30) [*]

@[simp] theorem canon_idleSwap (s : State) (r : RidgeId) (t : T64) (hc_s : Canonical s) : Canonical (idleSwap s r t) := by
  unfold idleSwap
  simp +contextual (maxDischargeDepth := 30) [*]

@[simp] theorem canon_endRun (s : State) (r : RidgeId) (t : T64) (hc_s : Canonical s) : Canonical (endRun s r t) := by
  unfold endRun
  dsimp only
  (repeat' split) <;> simp +contextual (maxDischargeDepth := 30) [*]

@[simp] theorem canon_cancelLaunch (s : State) (r : RidgeId) (hc_s : Canonical s) : Canonical (cancelLaunch s r) := by
  unfold cancelLaunch
  simp +contextual (maxDischargeDepth := 30) [*]

@[simp] theorem canon_stopRidge (s : State) (r : RidgeId) (hc_s : Canonical s) : Canonical (stopRidge s r) := by
  unfold stopRidge
  (repeat' split) <;> simp_all +contextual (maxDischargeDepth := 30) 

@[simp] theorem canon_rollbackQueues (s : State) (rs : List RidgeId) (status : ℕ) (hc_s : Canonical s) : Canonical (rollbackQueues s rs status) := by
  unfold rollbackQueues
  simp +contextual (maxDischargeDepth := 30) [*]

@[simp] theorem canon_rollbackRidges (s : State) (rs : List RidgeId) (status : ℕ) (hc_s : Canonical s) : Canonical (rollbackRidges s rs status) := by
  unfold rollbackRidges
  simp +contextual (maxDischargeDepth := 30) [*]

@[simp] theorem canon_abortGang (r : RidgeId) (s : State) (hc_s : Canonical s) : Canonical (abortGang r s) := by
  unfold abortGang
  dsimp only
  apply canon_serveWaits
  apply canon_each _ _ _ (fun s a h => canon_stopAwg s a h)
  apply canon_each
  · intro s n h; split <;> simp +contextual (maxDischargeDepth := 30) [*]
  apply canon_rollbackRidges
  apply canon_each
  · intro s n h; split <;> simp +contextual (maxDischargeDepth := 30) [*]
  exact hc_s

@[simp] theorem canon_ridgeFault (s : State) (r : RidgeId) (det : ℕ) (detail : Option ℕ) (injected : Bool) (hc_s : Canonical s) : Canonical (ridgeFault s r det detail injected) := by
  unfold ridgeFault
  simp +contextual (maxDischargeDepth := 30) [*]

@[simp] theorem canon_abortSite (k : Fin 64) (s : State) (hc_s : Canonical s) : Canonical (abortSite k s) := by
  unfold abortSite
  simp +contextual (maxDischargeDepth := 30) [*]

@[simp] theorem canon_releaseBoundary (s : State) (g : List RidgeId) (hc_s : Canonical s) : Canonical (releaseBoundary s g) := by
  unfold releaseBoundary
  simp +contextual (maxDischargeDepth := 30) [*]

@[simp] theorem canon_enterHold (s : State) (g : List RidgeId) (hc_s : Canonical s) : Canonical (enterHold s g) := by
  unfold enterHold
  simp +contextual (maxDischargeDepth := 30) [*]

@[simp] theorem canon_crossBoundary (s : State) (r : RidgeId) (hc_s : Canonical s) : Canonical (crossBoundary s r) := by
  unfold crossBoundary
  dsimp only
  (repeat' split) <;> simp +contextual (maxDischargeDepth := 30) [*]

@[simp] theorem canon_crossIfDue (s : State) (r : RidgeId) (hc_s : Canonical s) : Canonical (crossIfDue s r) := by
  unfold crossIfDue
  simp +contextual (maxDischargeDepth := 30) [*]

@[simp] theorem canon_reachBoundary (s : State) (r : RidgeId) (hc_s : Canonical s) : Canonical (reachBoundary s r) := by
  unfold reachBoundary
  simp +contextual (maxDischargeDepth := 30) [*]

@[simp] theorem canon_goTo (s : State) (r : RidgeId) (a : Addr) (declared : Bool) (hc_s : Canonical s) : Canonical (goTo s r a declared) := by
  unfold goTo
  simp +contextual (maxDischargeDepth := 30) [*]

@[simp] theorem canon_startQuiet (s : State) (hc_s : Canonical s) : Canonical (startQuiet s) := by
  unfold startQuiet
  simp +contextual (maxDischargeDepth := 30) [*]

@[simp] theorem canon_enterSafe (s : State) (hc_s : Canonical s) : Canonical (enterSafe s) := by
  unfold enterSafe
  simp +contextual (maxDischargeDepth := 30) [*]

@[simp] theorem canon_fatal (s : State) (bit : Fin 64) (det : ℕ) (level : Bool) (injected : Bool) (hc_s : Canonical s) : Canonical (fatal s bit det level injected) := by
  unfold fatal
  dsimp only
  (repeat' split) <;> simp +contextual (maxDischargeDepth := 30) [*]

@[simp] theorem canon_parkCheck (s : State) (hc_s : Canonical s) : Canonical (parkCheck s) := by
  unfold parkCheck
  simp +contextual (maxDischargeDepth := 30) [*]

@[simp] theorem canon_fatalDeferred (s : State) (bit : Fin 64) (det : ℕ) (injected : Bool) (hc_s : Canonical s) : Canonical (fatalDeferred s bit det injected) := by
  unfold fatalDeferred
  dsimp only
  (repeat' split) <;> simp +contextual (maxDischargeDepth := 30) [*]

@[simp] theorem canon_parkWaitExpiryEffect (s : State) (hc_s : Canonical s) : Canonical (parkWaitExpiryEffect s) := by
  unfold parkWaitExpiryEffect
  simp +contextual (maxDischargeDepth := 30) [*]

/-! ### Seq -/

@[simp] theorem canon_driveLane (r : RidgeId) (t : TimingSet) (v : Vec) (s : State) (l : Fin 16) (hc_s : Canonical s) : Canonical (driveLane r t v s l) := by
  unfold driveLane
  simp +contextual (maxDischargeDepth := 30) [*]

@[simp] theorem canon_vectorPeriod (s : State) (r : RidgeId) (v : Vec) (isRep : Bool) (hc_s : Canonical s) : Canonical (vectorPeriod s r v isRep) := by
  unfold vectorPeriod
  simp +contextual (maxDischargeDepth := 30) [*]

@[simp] theorem canon_advance (s : State) (r : RidgeId) (v : Vec) (hc_s : Canonical s) : Canonical (advance s r v) := by
  unfold advance
  simp +contextual (maxDischargeDepth := 30) [*]

@[simp] theorem canon_crossLeft (s : State) (x1 : List RidgeId) (hc_s : Canonical s) : Canonical (crossLeft s x1) := by
  unfold crossLeft
  (repeat' split) <;> simp_all +contextual (maxDischargeDepth := 30) 

@[simp] theorem canon_leaveGang (s : State) (r : RidgeId) (hc_s : Canonical s) : Canonical (leaveGang s r) := by
  unfold leaveGang
  simp +contextual (maxDischargeDepth := 30) [*]

@[simp] theorem canon_parkRidge (s : State) (r : RidgeId) (hc_s : Canonical s) : Canonical (parkRidge s r) := by
  unfold parkRidge
  simp +contextual (maxDischargeDepth := 30) [*]

@[simp] theorem canon_vecEnd (s : State) (r : RidgeId) (hc_s : Canonical s) : Canonical (vecEnd s r) := by
  unfold vecEnd
  dsimp only
  (repeat' split) <;> simp +contextual (maxDischargeDepth := 30) [*]

@[simp] theorem canon_endWith (s : State) (r : RidgeId) (a : After) (hc_s : Canonical s) : Canonical (endWith s r a) := by
  unfold endWith
  simp +contextual (maxDischargeDepth := 30) [*]

@[simp] theorem canon_follow (s : State) (r : RidgeId) (f : Flow) (hc_s : Canonical s) : Canonical (follow s r f) := by
  unfold follow
  (repeat' split) <;> simp_all +contextual (maxDischargeDepth := 30) 

@[simp] theorem canon_endMatchOne (timeout : Bool) (s : State) (q : RidgeId) (hc_s : Canonical s) : Canonical (endMatchOne timeout s q) := by
  unfold endMatchOne
  dsimp only
  (repeat' split) <;> simp +contextual (maxDischargeDepth := 30) [*]

@[simp] theorem canon_settleMatch (s : State) (r : RidgeId) (hc_s : Canonical s) : Canonical (settleMatch s r).1 := by
  unfold settleMatch
  dsimp only
  (repeat' split) <;> simp +contextual (maxDischargeDepth := 30) [*]

@[simp] theorem canon_withVector (s : State) (r : RidgeId) (parity : Bool) (op : ℕ → Bool) (body : Vec → State → State) (h_body : ∀ v s, Canonical s → Canonical (body v s)) (hc_s : Canonical s) : Canonical (withVector s r parity op body) := by
  unfold withVector
  split
  · exact hc_s
  · dsimp only
    split
    · exact hc_s
    · split
      · simp +contextual (maxDischargeDepth := 30) [*]
      · split
        · exact hc_s
        · have hp := canon_accessInject s (Fin.castLE (by decide) r) hc_s
          split
          · have := canon_eq1 hp ‹_›
            simp +contextual (maxDischargeDepth := 30) [*]
          · have := canon_eq1 hp ‹_›
            simp +contextual (maxDischargeDepth := 30) [*]

@[simp] theorem canon_plainVector (r : RidgeId) (adv : Bool) (act : Vec → State → State) (flow : Vec → State → Flow) (v : Vec) (s : State) (h_act : ∀ v s, Canonical s → Canonical (act v s)) (hc_s : Canonical s) : Canonical (plainVector r adv act flow v s) := by
  unfold plainVector
  simp +contextual (maxDischargeDepth := 30) [*]

@[simp] theorem canon_noAct (x0 : Vec) (x1 : State) (hc_x1 : Canonical x1) : Canonical (noAct x0 x1) := by
  unfold noAct
  simp +contextual (maxDischargeDepth := 30) [*]

@[simp] theorem canon_nopEffect (r : RidgeId) (parity : Bool) (s : State) (hc_s : Canonical s) : Canonical (nopEffect r parity s) := by
  unfold nopEffect
  simp +contextual (maxDischargeDepth := 30) [*]

@[simp] theorem canon_repeatEffect (r : RidgeId) (s : State) (hc_s : Canonical s) : Canonical (repeatEffect r s) := by
  unfold repeatEffect
  simp +contextual (maxDischargeDepth := 30) [*]

@[simp] theorem canon_stackFault (s : State) (r : RidgeId) (hc_s : Canonical s) : Canonical (stackFault s r) := by
  unfold stackFault
  simp +contextual (maxDischargeDepth := 30) [*]

@[simp] theorem canon_loopBeginEffect (r : RidgeId) (s : State) (hc_s : Canonical s) : Canonical (loopBeginEffect r s) := by
  unfold loopBeginEffect
  simp +contextual (maxDischargeDepth := 30) [*]

@[simp] theorem canon_loopEndEffect (r : RidgeId) (s : State) (hc_s : Canonical s) : Canonical (loopEndEffect r s) := by
  unfold loopEndEffect
  apply canon_withVector _ _ _ _ _ _ hc_s
  intro v s hc_s
  split <;> simp +contextual (maxDischargeDepth := 30) [*]

@[simp] theorem canon_loopExitEffect (r : RidgeId) (s : State) (hc_s : Canonical s) : Canonical (loopExitEffect r s) := by
  unfold loopExitEffect
  simp +contextual (maxDischargeDepth := 30) [*]

@[simp] theorem canon_jumpEffect (r : RidgeId) (s : State) (hc_s : Canonical s) : Canonical (jumpEffect r s) := by
  unfold jumpEffect
  simp +contextual (maxDischargeDepth := 30) [*]

@[simp] theorem canon_callEffect (r : RidgeId) (s : State) (hc_s : Canonical s) : Canonical (callEffect r s) := by
  unfold callEffect
  simp +contextual (maxDischargeDepth := 30) [*]

@[simp] theorem canon_retEffect (r : RidgeId) (s : State) (hc_s : Canonical s) : Canonical (retEffect r s) := by
  unfold retEffect
  apply canon_withVector _ _ _ _ _ _ hc_s
  intro v s hc_s
  split <;> simp +contextual (maxDischargeDepth := 30) [*]

@[simp] theorem canon_jumpFailEffect (r : RidgeId) (s : State) (hc_s : Canonical s) : Canonical (jumpFailEffect r s) := by
  unfold jumpFailEffect
  simp +contextual (maxDischargeDepth := 30) [*]

@[simp] theorem canon_jumpPassEffect (r : RidgeId) (s : State) (hc_s : Canonical s) : Canonical (jumpPassEffect r s) := by
  unfold jumpPassEffect
  simp +contextual (maxDischargeDepth := 30) [*]

@[simp] theorem canon_jumpTimeoutEffect (r : RidgeId) (s : State) (hc_s : Canonical s) : Canonical (jumpTimeoutEffect r s) := by
  unfold jumpTimeoutEffect
  simp +contextual (maxDischargeDepth := 30) [*]

@[simp] theorem canon_clrFailEffect (r : RidgeId) (s : State) (hc_s : Canonical s) : Canonical (clrFailEffect r s) := by
  unfold clrFailEffect
  simp +contextual (maxDischargeDepth := 30) [*]

@[simp] theorem canon_matchEffect (r : RidgeId) (s : State) (hc_s : Canonical s) : Canonical (matchEffect r s) := by
  unfold matchEffect
  simp +contextual (maxDischargeDepth := 30) [*]

@[simp] theorem canon_matchEndEffect (r : RidgeId) (s : State) (hc_s : Canonical s) : Canonical (matchEndEffect r s) := by
  unfold matchEndEffect
  simp +contextual (maxDischargeDepth := 30) [*]

@[simp] theorem canon_apgLoadEffect (r : RidgeId) (s : State) (hc_s : Canonical s) : Canonical (apgLoadEffect r s) := by
  unfold apgLoadEffect
  simp +contextual (maxDischargeDepth := 30) [*]

@[simp] theorem canon_apgOpEffect (r : RidgeId) (s : State) (hc_s : Canonical s) : Canonical (apgOpEffect r s) := by
  unfold apgOpEffect
  simp +contextual (maxDischargeDepth := 30) [*]

@[simp] theorem canon_signalEffect (r : RidgeId) (s : State) (hc_s : Canonical s) : Canonical (signalEffect r s) := by
  unfold signalEffect
  simp +contextual (maxDischargeDepth := 30) [*]

@[simp] theorem canon_checkpointEffect (r : RidgeId) (s : State) (hc_s : Canonical s) : Canonical (checkpointEffect r s) := by
  unfold checkpointEffect
  apply canon_withVector _ _ _ _ _ _ hc_s
  intro v s hc_s
  dsimp only
  split
  · simp +contextual (maxDischargeDepth := 30) [*]
  · split <;> simp +contextual (maxDischargeDepth := 30) [*]

@[simp] theorem canon_haltOpcodeEffect (r : RidgeId) (s : State) (hc_s : Canonical s) : Canonical (haltOpcodeEffect r s) := by
  unfold haltOpcodeEffect
  simp +contextual (maxDischargeDepth := 30) [*]

@[simp] theorem canon_illegalOpcodeEffect (r : RidgeId) (s : State) (hc_s : Canonical s) : Canonical (illegalOpcodeEffect r s) := by
  unfold illegalOpcodeEffect
  simp +contextual (maxDischargeDepth := 30) [*]

/-! ### Launch -/

@[simp] theorem canon_armLaunch (s : State) (g : List RidgeId) (resume : Bool) (t : T64) (hc_s : Canonical s) : Canonical (armLaunch s g resume t) := by
  unfold armLaunch
  simp +contextual (maxDischargeDepth := 30) [*]

@[simp] theorem canon_launchEffect (h : Hdr) (resume : Bool) (bySite : Bool) (site : Byte) (mask : BitVec 16) (s : State) (hc_s : Canonical s) : Canonical (launchEffect h resume bySite site mask s) := by
  unfold launchEffect
  apply canon_command _ _ _ _ _ _ hc_s
  intro s hc_s
  try dsimp only
  (repeat' split) <;> simp +contextual (maxDischargeDepth := 30) [*]

@[simp] theorem canon_startOne (k : ℕ) (s : State) (r : RidgeId) (hc_s : Canonical s) : Canonical (startOne k s r) := by
  unfold startOne
  dsimp only
  (repeat' split) <;> simp +contextual (maxDischargeDepth := 30) [*]

@[simp] theorem canon_launchTickEffect (r : RidgeId) (s : State) (hc_s : Canonical s) : Canonical (launchTickEffect r s) := by
  unfold launchTickEffect
  simp +contextual (maxDischargeDepth := 30) [*]

@[simp] theorem canon_postPark (s : State) (r : RidgeId) (hc_s : Canonical s) : Canonical (postPark s r) := by
  unfold postPark
  simp +contextual (maxDischargeDepth := 30) [*]

@[simp] theorem canon_haltNow (s : State) (r : RidgeId) (hc_s : Canonical s) : Canonical (haltNow s r) := by
  unfold haltNow
  (repeat' split) <;> simp_all +contextual (maxDischargeDepth := 30) 

@[simp] theorem canon_haltEffect (h : Hdr) (park : Bool) (bySite : Bool) (site : Byte) (mask : BitVec 16) (s : State) (hc_s : Canonical s) : Canonical (haltEffect h park bySite site mask s) := by
  unfold haltEffect
  apply canon_command _ _ _ _ _ _ hc_s
  intro s hc_s
  try dsimp only
  (repeat' split) <;> simp +contextual (maxDischargeDepth := 30) [*]

@[simp] theorem canon_haltAtBoundaryEffect (r : RidgeId) (s : State) (hc_s : Canonical s) : Canonical (haltAtBoundaryEffect r s) := by
  unfold haltAtBoundaryEffect
  dsimp only
  (repeat' split) <;> simp +contextual (maxDischargeDepth := 30) [*]

@[simp] theorem canon_eventJumpArmEffect (h : Hdr) (source : Byte) (disarm : Bool) (target : Word) (s : State) (hc_s : Canonical s) : Canonical (eventJumpArmEffect h source disarm target s) := by
  unfold eventJumpArmEffect
  apply canon_command _ _ _ _ _ _ hc_s
  intro s hc_s
  try dsimp only
  (repeat' split) <;> simp +contextual (maxDischargeDepth := 30) [*]

@[simp] theorem canon_ridgeEvent (s : State) (src : ℕ) (r : RidgeId) (hc_s : Canonical s) : Canonical (ridgeEvent s src r) := by
  unfold ridgeEvent
  (repeat' split) <;> simp_all +contextual (maxDischargeDepth := 30) 

@[simp] theorem canon_eventJumpLatchEffect (r : RidgeId) (s : State) (hc_s : Canonical s) : Canonical (eventJumpLatchEffect r s) := by
  unfold eventJumpLatchEffect
  dsimp only
  (repeat' split) <;> simp +contextual (maxDischargeDepth := 30) [*]

@[simp] theorem canon_eventJumpEffect (r : RidgeId) (s : State) (hc_s : Canonical s) : Canonical (eventJumpEffect r s) := by
  unfold eventJumpEffect
  simp +contextual (maxDischargeDepth := 30) [*]

@[simp] theorem canon_putSets (s : State) (r : RidgeId) (bank : Fin 2) (first : ℕ) (ts : List SetRecord) (hc_s : Canonical s) : Canonical (putSets s r bank first ts) := by
  unfold putSets
  exact canon_foldl _ _ _ (fun s a h => canon_modR _ _ _ h) hc_s

@[simp] theorem canon_pedieInject (s : State) (r : RidgeId) (hc_s : Canonical s) : Canonical (pedieInject s r) := by
  unfold pedieInject
  dsimp only
  have hp := canon_accessInject s (Fin.ofNat 64 (16 + r.val / 4)) hc_s
  split
  · exact canon_eq1 hp ‹_›
  · have := canon_eq1 hp ‹_›
    simp +contextual (maxDischargeDepth := 30) [*]
  · have := canon_eq1 hp ‹_›
    simp +contextual (maxDischargeDepth := 30) [*]

@[simp] theorem canon_timingWriteEffect (h : Hdr) (bank : Byte) (first : Byte) (count : Byte) (records : List SetRecord) (s : State) (hc_s : Canonical s) : Canonical (timingWriteEffect h bank first count records s) := by
  unfold timingWriteEffect
  dsimp only
  (repeat' split) <;> simp +contextual (maxDischargeDepth := 30) [*]

@[simp] theorem canon_timingSwapEffect (h : Hdr) (s : State) (hc_s : Canonical s) : Canonical (timingSwapEffect h s) := by
  unfold timingSwapEffect
  simp +contextual (maxDischargeDepth := 30) [*]

@[simp] theorem canon_timingSwapApplyEffect (r : RidgeId) (s : State) (hc_s : Canonical s) : Canonical (timingSwapApplyEffect r s) := by
  unfold timingSwapApplyEffect
  simp +contextual (maxDischargeDepth := 30) [*]

@[simp] theorem canon_timingCopyDoneEffect (r : RidgeId) (s : State) (hc_s : Canonical s) : Canonical (timingCopyDoneEffect r s) := by
  unfold timingCopyDoneEffect
  simp +contextual (maxDischargeDepth := 30) [*]

@[simp] theorem canon_owlFactorApplyEffect (r : RidgeId) (s : State) (hc_s : Canonical s) : Canonical (owlFactorApplyEffect r s) := by
  unfold owlFactorApplyEffect
  simp +contextual (maxDischargeDepth := 30) [*]

@[simp] theorem canon_copyArrives (s : State) (r : RidgeId) (h : Handle) (due : ℕ) (hc_s : Canonical s) : Canonical (copyArrives s r h due) := by
  unfold copyArrives
  simp +contextual (maxDischargeDepth := 30) [*]

@[simp] theorem canon_fetchFails (s : State) (r : RidgeId) (h : Handle) (injected : Bool) (hc_s : Canonical s) : Canonical (fetchFails s r h injected) := by
  unfold fetchFails
  simp +contextual (maxDischargeDepth := 30) [*]

@[simp] theorem canon_slotWrite (s : State) (r : RidgeId) (h : Handle) (due : ℕ) (hc_s : Canonical s) : Canonical (slotWrite s r h due) := by
  unfold slotWrite
  have hp := canon_accessInject s 23 hc_s
  split
  · have := canon_eq1 hp ‹_›
    simp +contextual (maxDischargeDepth := 30) [*]
  · have := canon_eq1 hp ‹_›
    simp +contextual (maxDischargeDepth := 30) [*]
  · have := canon_eq1 hp ‹_›
    simp +contextual (maxDischargeDepth := 30) [*]

@[simp] theorem canon_stageRead (s : State) (r : RidgeId) (h : Handle) (due : ℕ) (read : Secded) (hc_s : Canonical s) : Canonical (stageRead s r h due read) := by
  unfold stageRead
  dsimp only
  have hp := canon_accessInject s 20 hc_s
  split
  · exact canon_fetchFails _ _ _ _ (canon_eq1 hp ‹_›)
  · exact canon_slotWrite _ _ _ _ (canon_corrected _ _ _ _ (canon_eq1 hp ‹_›))
  · rename_i s1 h1
    have e1 := canon_eq1 hp h1
    have hq := canon_accessInject s1 21 e1
    split
    · exact canon_fetchFails _ _ _ _ (canon_eq1 hq ‹_›)
    · exact canon_slotWrite _ _ _ _ (canon_corrected _ _ _ _ (canon_eq1 hq ‹_›))
    · have e2 := canon_eq1 hq ‹_›
      split
      · exact canon_slotWrite _ _ _ _ e2
      · exact canon_slotWrite _ _ _ _ (canon_corrected _ _ _ _ e2)
      · exact canon_fetchFails _ _ _ _ e2

@[simp] theorem canon_stagingFetchDoneEffect (r : RidgeId) (h : Handle) (read : Secded) (s : State) (hc_s : Canonical s) : Canonical (stagingFetchDoneEffect r h read s) := by
  unfold stagingFetchDoneEffect
  dsimp only
  (repeat' split) <;> simp +contextual (maxDischargeDepth := 30) [*]

@[simp] theorem canon_holdResumeEffect (r : RidgeId) (s : State) (hc_s : Canonical s) : Canonical (holdResumeEffect r s) := by
  unfold holdResumeEffect
  dsimp only
  (repeat' split) <;> simp +contextual (maxDischargeDepth := 30) [*]

@[simp] theorem canon_holdTimeoutEffect (r : RidgeId) (s : State) (hc_s : Canonical s) : Canonical (holdTimeoutEffect r s) := by
  unfold holdTimeoutEffect
  simp +contextual (maxDischargeDepth := 30) [*]

/-! ### Pins -/

@[simp] theorem canon_pullAsSet (s : State) (p : PinId) (hc_s : Canonical s) : Canonical (pullAsSet s p) := by
  unfold pullAsSet
  simp +contextual (maxDischargeDepth := 30) [*]

@[simp] theorem canon_startModeChange (s : State) (p : PinId) (from_ : ℕ) (hc_s : Canonical s) : Canonical (startModeChange s p from_) := by
  unfold startModeChange
  simp +contextual (maxDischargeDepth := 30) [*]

@[simp] theorem canon_compareAt (s : State) (p : PinId) (v : ℤ) (hc_s : Canonical s) : Canonical (compareAt s p v).2 := by
  unfold compareAt
  simp +contextual (maxDischargeDepth := 30) [*]

@[simp] theorem canon_pinModeDoneEffect (p : PinId) (v : ℤ) (s : State) (hc_s : Canonical s) : Canonical (pinModeDoneEffect p v s) := by
  unfold pinModeDoneEffect
  dsimp only
  (repeat' split) <;> simp +contextual (maxDischargeDepth := 30) [*]

@[simp] theorem canon_driverOvercurrentEffect (p : PinId) (s : State) (hc_s : Canonical s) : Canonical (driverOvercurrentEffect p s) := by
  unfold driverOvercurrentEffect
  dsimp only
  (repeat' split) <;> simp +contextual (maxDischargeDepth := 30) [*]

@[simp] theorem canon_pmuComplianceEffect (p : PinId) (s : State) (hc_s : Canonical s) : Canonical (pmuComplianceEffect p s) := by
  unfold pmuComplianceEffect
  simp +contextual (maxDischargeDepth := 30) [*]

@[simp] theorem canon_pmuComplianceEndEffect (p : PinId) (s : State) (hc_s : Canonical s) : Canonical (pmuComplianceEndEffect p s) := by
  unfold pmuComplianceEndEffect
  simp +contextual (maxDischargeDepth := 30) [*]

@[simp] theorem canon_comparatorTransitionEffect (p : PinId) (v : ℤ) (t : T64) (s : State) (hc_s : Canonical s) : Canonical (comparatorTransitionEffect p v t s) := by
  unfold comparatorTransitionEffect
  dsimp only
  (repeat' split) <;> simp +contextual (maxDischargeDepth := 30) [*]

@[simp] theorem canon_boosterFaultEffect (n : RidgeId) (s : State) (hc_s : Canonical s) : Canonical (boosterFaultEffect n s) := by
  unfold boosterFaultEffect
  simp +contextual (maxDischargeDepth := 30) [*]

/-! ### Inject -/

@[simp] theorem canon_strike (s : State) (b : Fin 64) (double : State → State) (h_double : ∀ s, Canonical s → Canonical (double s)) (hc_s : Canonical s) : Canonical (strike s b double) := by
  unfold strike
  have hp := canon_accessInject s b hc_s
  split
  · exact canon_eq1 hp ‹_›
  · exact canon_corrected _ _ _ _ (canon_eq1 hp ‹_›)
  · exact h_double _ (canon_eq1 hp ‹_›)

@[simp] theorem canon_ticketWrite (s : State) (t : State) (hc_s : Canonical s) (hc_t : Canonical t) : Canonical (ticketWrite s t) := by
  unfold ticketWrite
  simp +contextual (maxDischargeDepth := 30) [*]

@[simp] theorem canon_martenWrite (s : State) (t : State) (hc_s : Canonical s) (hc_t : Canonical t) : Canonical (martenWrite s t) := by
  unfold martenWrite
  simp +contextual (maxDischargeDepth := 30) [*]

@[simp] theorem canon_phyCommand (s : State) (t : State) (hc_s : Canonical s) (hc_t : Canonical t) : Canonical (phyCommand s t) := by
  unfold phyCommand
  (repeat' split) <;> simp_all +contextual (maxDischargeDepth := 30) 

/-! ### Resets -/

@[simp] theorem canon_peerResetB (s : State) (cs : List ℕ) (hc_s : Canonical s) : Canonical (peerResetB s cs) := by
  unfold peerResetB
  simp +contextual (maxDischargeDepth := 30) [*]

@[simp] theorem canon_peerResetA (s : State) (cs : List ℕ) (hc_s : Canonical s) : Canonical (peerResetA s cs) := by
  unfold peerResetA
  simp +contextual (maxDischargeDepth := 30) [*]

@[simp] theorem canon_idleCol (s : State) (c : ℕ) (hc_s : Canonical s) : Canonical (idleCol s c) := by
  unfold idleCol
  simp +contextual (maxDischargeDepth := 30) [*]

@[simp] theorem canon_idleCols (s : State) (cs : List ℕ) (hc_s : Canonical s) : Canonical (idleCols s cs) := by
  unfold idleCols
  simp +contextual (maxDischargeDepth := 30) [*]

@[simp] theorem canon_loseEvents (s : State) (cs : List ℕ) (hc_s : Canonical s) : Canonical (loseEvents s cs) := by
  unfold loseEvents
  simp +contextual (maxDischargeDepth := 30) [*]

@[simp] theorem canon_strapWords (s : State) (hc_s : Canonical s) : Canonical (strapWords s) := by
  unfold strapWords
  simp +contextual (maxDischargeDepth := 30) [*]

@[simp] theorem canon_senseFuses (s : State) (hc_s : Canonical s) : Canonical (senseFuses s) := by
  unfold senseFuses
  simp +contextual (maxDischargeDepth := 30) [*]

@[simp] theorem canon_hostReset (s : State) (straps : Straps) (hc_s : Canonical s) : Canonical (hostReset s straps) := by
  unfold hostReset
  split
  · exact hc_s
  · dsimp only
    apply canon_strapWords
    apply canon_peerResetB
    apply canon_senseFuses
    exact ⟨hc_s.1, rfl, rfl, rfl⟩

@[simp] theorem canon_porNAssertEffect (s : State) (hc_s : Canonical s) : Canonical (porNAssertEffect s) := by
  unfold porNAssertEffect
  exact ⟨hc_s.1, rfl, rfl, rfl⟩

@[simp] theorem canon_porReleaseEffect (z : Straps) (f : Fuses) (s : State) (hc_s : Canonical s) : Canonical (porReleaseEffect z f s) := by
  unfold porReleaseEffect
  simp +contextual (maxDischargeDepth := 30) [*]

@[simp] theorem canon_resetRidge (s : State) (r : RidgeId) (hc_s : Canonical s) : Canonical (resetRidge s r) := by
  unfold resetRidge
  simp +contextual (maxDischargeDepth := 30) [*]

@[simp] theorem canon_ridgeResetReleaseEffect (r : RidgeId) (s : State) (hc_s : Canonical s) : Canonical (ridgeResetReleaseEffect r s) := by
  unfold ridgeResetReleaseEffect
  simp +contextual (maxDischargeDepth := 30) [*]

/-! ### ParamRead -/

@[simp] theorem canon_clearOnRead (s : State) (i : ℕ) (hc_s : Canonical s) : Canonical (clearOnRead s i) := by
  unfold clearOnRead
  dsimp only
  (repeat' split) <;> simp +contextual (maxDischargeDepth := 30) [*]

@[simp] theorem canon_readWord (s : State) (k : ℕ) (i : ℕ) (hc_s : Canonical s) : Canonical (readWord s k i).2 := by
  unfold readWord
  dsimp only
  (repeat' split) <;> simp +contextual (maxDischargeDepth := 30) [*]

@[simp] theorem canon_readWords (k : ℕ) (x1 : ℕ) (x2 : ℕ) (x3 : State) (hc_x3 : Canonical x3) : Canonical (readWords k x1 x2 x3).2 := by
  induction x1 generalizing x2 x3 with
  | zero => exact hc_x3
  | succ m ih => exact ih _ _ (canon_readWord _ _ _ hc_x3)

@[simp] theorem canon_windowRead (s : State) (k : ℕ) (i : ℕ) (hc_s : Canonical s) : Canonical (windowRead s k i).2 := by
  unfold windowRead
  (repeat' split) <;> simp_all +contextual (maxDischargeDepth := 30) 

/-! ### Params -/

@[simp] theorem canon_markSat (s : State) (p : PinId) (items : List ℕ) (hc_s : Canonical s) : Canonical (markSat s p items) := by
  unfold markSat
  simp +contextual (maxDischargeDepth := 30) [*]

@[simp] theorem canon_pinLevelWrite (s : State) (p : PinId) (w : ℕ) (v : ℕ) (hc_s : Canonical s) : Canonical (pinLevelWrite s p w v) := by
  unfold pinLevelWrite
  simp +contextual (maxDischargeDepth := 30) [*]

@[simp] theorem canon_pinPmuCfgWrite (s : State) (p : PinId) (v : ℕ) (hc_s : Canonical s) : Canonical (pinPmuCfgWrite s p v) := by
  unfold pinPmuCfgWrite
  simp +contextual (maxDischargeDepth := 30) [*]

@[simp] theorem canon_pinWrite (s : State) (p : PinId) (w : ℕ) (v : ℕ) (hc_s : Canonical s) : Canonical (pinWrite s p w v) := by
  unfold pinWrite
  simp +contextual (maxDischargeDepth := 30) [*]

@[simp] theorem canon_dpsLevelWrite (s : State) (n : RidgeId) (v : ℕ) (hc_s : Canonical s) : Canonical (dpsLevelWrite s n v) := by
  unfold dpsLevelWrite
  simp +contextual (maxDischargeDepth := 30) [*]

@[simp] theorem canon_dpsRecode (s : State) (n : RidgeId) (a : ℕ × ℕ) (b : ℕ × ℕ) (level : Bool) (hc_s : Canonical s) : Canonical (dpsRecode s n a b level) := by
  unfold dpsRecode
  simp +contextual (maxDischargeDepth := 30) [*]

@[simp] theorem canon_dpsCfgWrite (s : State) (n : RidgeId) (v : ℕ) (hc_s : Canonical s) : Canonical (dpsCfgWrite s n v) := by
  unfold dpsCfgWrite
  simp +contextual (maxDischargeDepth := 30) [*]

@[simp] theorem canon_dpsWrite (s : State) (n : RidgeId) (w : ℕ) (v : ℕ) (hc_s : Canonical s) : Canonical (dpsWrite s n w v) := by
  unfold dpsWrite
  simp +contextual (maxDischargeDepth := 30) [*]

@[simp] theorem canon_ridgeWrite (s : State) (r : RidgeId) (w : ℕ) (v : ℕ) (hc_s : Canonical s) : Canonical (ridgeWrite s r w v) := by
  unfold ridgeWrite
  simp +contextual (maxDischargeDepth := 30) [*]

@[simp] theorem canon_portWrite (s : State) (n : RidgeId) (w : ℕ) (v : ℕ) (hc_s : Canonical s) : Canonical (portWrite s n w v) := by
  unfold portWrite
  simp +contextual (maxDischargeDepth := 30) [*]

@[simp] theorem canon_martenCfg (s : State) (was : Bool) (v : ℕ) (hc_s : Canonical s) : Canonical (martenCfg s was v) := by
  unfold martenCfg
  simp +contextual (maxDischargeDepth := 30) [*]

@[simp] theorem canon_cspCfg (s : State) (n : Fin 2) (hc_s : Canonical s) : Canonical (cspCfg s n) := by
  unfold cspCfg
  simp +contextual (maxDischargeDepth := 30) [*]

@[simp] theorem canon_globalWrite (s : State) (i : ℕ) (v : ℕ) (hc_s : Canonical s) : Canonical (globalWrite s i v) := by
  unfold globalWrite
  simp +contextual (maxDischargeDepth := 30) [*]

@[simp] theorem canon_applyWord (s : State) (i : ℕ) (v : ℕ) (hc_s : Canonical s) : Canonical (applyWord s i v) := by
  unfold applyWord
  (repeat' split) <;> simp_all +contextual (maxDischargeDepth := 30) 

@[simp] theorem canon_unblock (s : State) (hc_s : Canonical s) : Canonical (unblock s) := by
  unfold unblock
  simp +contextual (maxDischargeDepth := 30) [*]

@[simp] theorem canon_clearLatch (s : State) (m : BitVec 64) (hc_s : Canonical s) : Canonical (clearLatch s m) := by
  unfold clearLatch
  dsimp only
  (repeat' split) <;> simp +contextual (maxDischargeDepth := 30) [*]

@[simp] theorem canon_clearBits (s : State) (i : ℕ) (m : ℕ) (hc_s : Canonical s) : Canonical (clearBits s i m) := by
  unfold clearBits
  dsimp only
  (repeat' split) <;> simp +contextual (maxDischargeDepth := 30) [*]

@[simp] theorem canon_reclaimFrames (s : State) (hc_s : Canonical s) : Canonical (reclaimFrames s) := by
  unfold reclaimFrames
  simp +contextual (maxDischargeDepth := 30) [*]

@[simp] theorem canon_act (s : State) (i : ℕ) (v : ℕ) (hc_s : Canonical s) : Canonical (act s i v) := by
  unfold act
  dsimp only
  (repeat' split) <;> simp +contextual (maxDischargeDepth := 30) [*]

@[simp] theorem canon_writeEffect (s : State) (i : ℕ) (v : ℕ) (hc_s : Canonical s) : Canonical (writeEffect s i v) := by
  unfold writeEffect
  split
  · exact hc_s
  · dsimp only
    split
    · exact hc_s
    · exact hc_s
    · simp +contextual (maxDischargeDepth := 30) [*]
    · simp +contextual (maxDischargeDepth := 30) [*]
    all_goals
      have hp := canon_accessInject (applyWord s i (v &&& ‹WordInfo›.mask)) 26 (canon_applyWord _ _ _ hc_s)
      split
      · exact canon_eq1 hp ‹_›
      · exact canon_corrected _ _ _ _ (canon_eq1 hp ‹_›)

@[simp] theorem canon_tryWrite (s : State) (i : ℕ) (v : ℕ) (hc_s : Canonical s) : Canonical (tryWrite s i v).1 := by
  unfold tryWrite
  (repeat' split) <;> simp_all +contextual (maxDischargeDepth := 30) 

@[simp] theorem canon_writeAll (x0 : ℕ) (x1 : List (ℕ × ℕ)) (x2 : State) (hc_x2 : Canonical x2) : Canonical (writeAll x0 x1 x2).1 := by
  induction x1 generalizing x0 x2 with
  | nil => exact hc_x2
  | cons e es ih =>
    obtain ⟨i, v⟩ := e
    have h1 := canon_tryWrite x2 i v hc_x2
    unfold writeAll
    split
    · exact ih _ _ (canon_eq1 h1 ‹_›)
    · exact canon_eq1 h1 ‹_›

@[simp] theorem canon_packetWrites (h : Hdr) (op : ℕ) (l : List (ℕ × ℕ)) (s : State) (hc_s : Canonical s) : Canonical (packetWrites h op l s) := by
  unfold packetWrites
  have hw := canon_writeAll 0 l s hc_s
  split
  · exact canon_refuse _ _ _ _ _ hc_s
  · split
    · exact canon_refuse _ _ _ _ _ hc_s
    · have := canon_eq1 hw ‹_›
      split <;> simp +contextual (maxDischargeDepth := 30) [*]

@[simp] theorem canon_addTimed (t : T64) (s : State) (x : ℕ × ℕ) (hc_s : Canonical s) : Canonical (addTimed t s x) := by
  unfold addTimed
  simp +contextual (maxDischargeDepth := 30) [*]

@[simp] theorem canon_timedWrites (h : Hdr) (op : ℕ) (l : List (ℕ × ℕ)) (t : T64) (s : State) (hc_s : Canonical s) : Canonical (timedWrites h op l t s) := by
  unfold timedWrites
  split
  · simp +contextual (maxDischargeDepth := 30) [*]
  · split
    · simp +contextual (maxDischargeDepth := 30) [*]
    · apply canon_replyAccepted
      apply canon_foldl
      · intro s a hc_s; simp +contextual (maxDischargeDepth := 30) [*]
      · exact hc_s

@[simp] theorem canon_dropTimed (s : State) (i : ℕ) (st : ℕ) (hc_s : Canonical s) : Canonical (dropTimed s i st) := by
  unfold dropTimed
  simp +contextual (maxDischargeDepth := 30) [*]

@[simp] theorem canon_timedPhase (s : State) (x : Timed) (hc_s : Canonical s) : Canonical (timedPhase s x) := by
  unfold timedPhase
  (repeat' split) <;> simp_all +contextual (maxDischargeDepth := 30) 

@[simp] theorem canon_applyTimed (s : State) (x : Timed) (hc_s : Canonical s) : Canonical (applyTimed s x) := by
  unfold applyTimed
  dsimp only
  have hw := canon_tryWrite { s with link := { s.link with timed := s.link.timed.erase x } } x.index x.value.toNat hc_s
  split
  · exact canon_timedPhase _ _ (canon_eq1 hw ‹_›)
  · exact canon_dropTimed _ _ _ (canon_eq1 hw ‹_›)

@[simp] theorem canon_timedWriteApplyEffect (s : State) (hc_s : Canonical s) : Canonical (timedWriteApplyEffect s) := by
  unfold timedWriteApplyEffect
  (repeat' split) <;> simp_all +contextual (maxDischargeDepth := 30) 

@[simp] theorem canon_paramWriteEffect (h : Hdr) (index : BitVec 16) (value : Word) (s : State) (hc_s : Canonical s) : Canonical (paramWriteEffect h index value s) := by
  unfold paramWriteEffect
  apply canon_command _ _ _ _ _ _ hc_s
  intro s hc_s
  try dsimp only
  (repeat' split) <;> simp +contextual (maxDischargeDepth := 30) [*]

@[simp] theorem canon_paramWriteMultiEffect (h : Hdr) (count : BitVec 16) (pairs : List (BitVec 16 × Word)) (s : State) (hc_s : Canonical s) : Canonical (paramWriteMultiEffect h count pairs s) := by
  unfold paramWriteMultiEffect
  apply canon_command _ _ _ _ _ _ hc_s
  intro s hc_s
  try dsimp only
  (repeat' split) <;> simp +contextual (maxDischargeDepth := 30) [*]

@[simp] theorem canon_packetRead (h : Hdr) (first : BitVec 16) (count : BitVec 16) (addr : BitVec 64) (s : State) (hc_s : Canonical s) : Canonical (packetRead h first count addr s) := by
  unfold packetRead
  simp +contextual (maxDischargeDepth := 30) [*]

@[simp] theorem canon_windowWrite (s : State) (i : ℕ) (v : ℕ) (hc_s : Canonical s) : Canonical (windowWrite s i v) := by
  unfold windowWrite
  have hw := canon_tryWrite s i v hc_s
  split
  · exact hc_s
  · split
    · exact canon_putWord _ _ _ hc_s
    · split
      · exact canon_serveWaits _ (canon_eq1 hw ‹_›)
      · exact canon_putWord _ _ _ (canon_eq1 hw ‹_›)

@[simp] theorem canon_windowReadEffect (i : ℕ) (s : State) (hc_s : Canonical s) : Canonical (windowReadEffect i s) := by
  unfold windowReadEffect
  simp +contextual (maxDischargeDepth := 30) [*]

/-! ### Csp -/

@[simp] theorem canon_stickyFlags (s : State) (n : Fin 2) (fl : FrameFlags) (hc_s : Canonical s) : Canonical (stickyFlags s n fl) := by
  unfold stickyFlags
  simp +contextual (maxDischargeDepth := 30) [*]

@[simp] theorem canon_frameEnd (s : State) (n : Fin 2) (cmd : ℕ) (f : CspFrame) (ws : List Word) (fl : FrameFlags) (hc_s : Canonical s) : Canonical (frameEnd s n cmd f ws fl) := by
  unfold frameEnd
  simp +contextual (maxDischargeDepth := 30) [*]

@[simp] theorem canon_cspWriteEffect (n : Fin 2) (f : CspFrame) (s : State) (hc_s : Canonical s) : Canonical (cspWriteEffect n f s) := by
  unfold cspWriteEffect
  simp +contextual (maxDischargeDepth := 30) [*]

@[simp] theorem canon_slaveRefused (s : State) (n : Fin 2) (hc_s : Canonical s) : Canonical (slaveRefused s n) := by
  unfold slaveRefused
  simp +contextual (maxDischargeDepth := 30) [*]

@[simp] theorem canon_slaveApply (s : State) (n : Fin 2) (a : ℕ) (ws : List ℕ) (hc_s : Canonical s) : Canonical (slaveApply s n a ws) := by
  unfold slaveApply
  dsimp only
  split
  · exact hc_s
  · split
    · exact canon_slaveRefused _ _ hc_s
    · have hw := canon_writeAll 0 (ws.zipIdx.map fun x => (a + x.2, x.1)) s hc_s
      split
      · exact canon_serveWaits _ (canon_eq1 hw ‹_›)
      · exact canon_slaveRefused _ _ hc_s

@[simp] theorem canon_cspWriteApplyEffect (n : Fin 2) (s : State) (hc_s : Canonical s) : Canonical (cspWriteApplyEffect n s) := by
  unfold cspWriteApplyEffect
  (repeat' split) <;> simp_all +contextual (maxDischargeDepth := 30) 

@[simp] theorem canon_slaveWords (n : Fin 2) (x1 : ℕ) (x2 : ℕ) (x3 : State) (hc_x3 : Canonical x3) : Canonical (slaveWords n x1 x2 x3).2 := by
  induction x1 generalizing x2 x3 with
  | zero => exact hc_x3
  | succ m ih => exact ih _ _ (canon_windowRead _ _ _ hc_x3)

@[simp] theorem canon_cspReadEffect (n : Fin 2) (f : CspFrame) (s : State) (hc_s : Canonical s) : Canonical (cspReadEffect n f s) := by
  unfold cspReadEffect
  dsimp only
  (repeat' split) <;> simp +contextual (maxDischargeDepth := 30) [*]

@[simp] theorem canon_slaveReadEffect (n : Fin 2) (count : ℕ) (first : ℕ) (s : State) (hc_s : Canonical s) : Canonical (slaveReadEffect n count first s) := by
  unfold slaveReadEffect
  simp +contextual (maxDischargeDepth := 30) [*]

@[simp] theorem canon_cspStatusEffect (n : Fin 2) (f : CspFrame) (s : State) (hc_s : Canonical s) : Canonical (cspStatusEffect n f s) := by
  unfold cspStatusEffect
  simp +contextual (maxDischargeDepth := 30) [*]

@[simp] theorem canon_badCmdFrameEffect (n : Fin 2) (f : CspFrame) (s : State) (hc_s : Canonical s) : Canonical (badCmdFrameEffect n f s) := by
  unfold badCmdFrameEffect
  simp +contextual (maxDischargeDepth := 30) [*]

@[simp] theorem canon_assertSelect (s : State) (hc_s : Canonical s) : Canonical (assertSelect s) := by
  unfold assertSelect
  simp +contextual (maxDischargeDepth := 30) [*]

@[simp] theorem canon_flashRead (s : State) (hc_s : Canonical s) : Canonical (flashRead s) := by
  unfold flashRead
  simp +contextual (maxDischargeDepth := 30) [*]

@[simp] theorem canon_flashCommand (s : State) (lo : ℕ) (size : ℕ) (hc_s : Canonical s) : Canonical (flashCommand s lo size) := by
  unfold flashCommand
  simp +contextual (maxDischargeDepth := 30) [*]

@[simp] theorem canon_xipMissEffect (addr : BitVec 32) (s : State) (hc_s : Canonical s) : Canonical (xipMissEffect addr s) := by
  unfold xipMissEffect
  simp +contextual (maxDischargeDepth := 30) [*]

@[simp] theorem canon_xipLineFillEffect (addr : BitVec 32) (s : State) (hc_s : Canonical s) : Canonical (xipLineFillEffect addr s) := by
  unfold xipLineFillEffect
  dsimp only
  (repeat' split) <;> simp +contextual (maxDischargeDepth := 30) [*]

/-! ### Image -/

@[simp] theorem canon_applyCal (s : State) (i : Retained) (hc_s : Canonical s) : Canonical (applyCal s i) := by
  unfold applyCal
  simp +contextual (maxDischargeDepth := 30) [*]

@[simp] theorem canon_applyImageWord (img : Sparse Word) (s : State) (i : ℕ) (hc_s : Canonical s) : Canonical (applyImageWord img s i) := by
  unfold applyImageWord
  dsimp only
  (repeat' split) <;> simp +contextual (maxDischargeDepth := 30) [*]

@[simp] theorem canon_applyWords (s : State) (img : Sparse Word) (hc_s : Canonical s) : Canonical (applyWords s img) := by
  unfold applyWords
  simp +contextual (maxDischargeDepth := 30) [*]

@[simp] theorem canon_applySets (s : State) (sets : List (Vector TimingSet 32)) (hc_s : Canonical s) : Canonical (applySets s sets) := by
  unfold applySets
  apply canon_each _ _ _ _ hc_s
  intro s r hc_s
  split
  · exact hc_s
  · dsimp only
    split <;> simp +contextual (maxDischargeDepth := 30) [*]

@[simp] theorem canon_applySites (s : State) (m : Vector (BitVec 256) 64) (hc_s : Canonical s) : Canonical (applySites s m) := by
  unfold applySites
  simp +contextual (maxDischargeDepth := 30) [*]

@[simp] theorem canon_applyQueues (s : State) (l : List QueueKeep) (hc_s : Canonical s) : Canonical (applyQueues s l) := by
  unfold applyQueues
  simp +contextual (maxDischargeDepth := 30) [*]

@[simp] theorem canon_applyRing (s : State) (i : Retained) (hc_s : Canonical s) : Canonical (applyRing s i) := by
  unfold applyRing
  simp +contextual (maxDischargeDepth := 30) [*]

@[simp] theorem canon_dpsPowerUp (s : State) (hc_s : Canonical s) : Canonical (dpsPowerUp s) := by
  unfold dpsPowerUp
  simp +contextual (maxDischargeDepth := 30) [*]

@[simp] theorem canon_applyImage (s : State) (i : Retained) (hc_s : Canonical s) : Canonical (applyImage s i) := by
  unfold applyImage
  simp +contextual (maxDischargeDepth := 30) [*]

@[simp] theorem canon_imageApplied (s : State) (source : BitVec 2) (gen : ℕ) (i : Option Retained) (hc_s : Canonical s) : Canonical (imageApplied s source gen i) := by
  unfold imageApplied
  simp +contextual (maxDischargeDepth := 30) [*]

@[simp] theorem canon_rsiApplyEffect (newerOk : Bool) (otherOk : Bool) (s : State) (hc_s : Canonical s) : Canonical (rsiApplyEffect newerOk otherOk s) := by
  unfold rsiApplyEffect
  dsimp only
  (repeat' split) <;> simp +contextual (maxDischargeDepth := 30) [*]

@[simp] theorem canon_eraseSlot (s : State) (k : Fin 3) (hc_s : Canonical s) : Canonical (eraseSlot s k) := by
  unfold eraseSlot
  simp +contextual (maxDischargeDepth := 30) [*]

@[simp] theorem canon_saveStateEffect (h : Hdr) (s : State) (hc_s : Canonical s) : Canonical (saveStateEffect h s) := by
  unfold saveStateEffect
  simp +contextual (maxDischargeDepth := 30) [*]

@[simp] theorem canon_saveStateDoneEffect (ok : Bool) (s : State) (hc_s : Canonical s) : Canonical (saveStateDoneEffect ok s) := by
  unfold saveStateDoneEffect
  dsimp only
  (repeat' split) <;> simp +contextual (maxDischargeDepth := 30) [*]

@[simp] theorem canon_restoreStateEffect (h : Hdr) (source : Byte) (crcOk : Bool) (s : State) (hc_s : Canonical s) : Canonical (restoreStateEffect h source crcOk s) := by
  unfold restoreStateEffect
  apply canon_command _ _ _ _ _ _ hc_s
  intro s hc_s
  try dsimp only
  (repeat' split) <;> simp +contextual (maxDischargeDepth := 30) [*]

/-! ### Cmds -/

@[simp] theorem canon_identifyEffect (h : Hdr) (addr : BitVec 64) (s : State) (hc_s : Canonical s) : Canonical (identifyEffect h addr s) := by
  unfold identifyEffect
  simp +contextual (maxDischargeDepth := 30) [*]

@[simp] theorem canon_echoEffect (h : Hdr) (addr : BitVec 64) (data : List Byte) (s : State) (hc_s : Canonical s) : Canonical (echoEffect h addr data s) := by
  unfold echoEffect
  simp +contextual (maxDischargeDepth := 30) [*]

@[simp] theorem canon_siteMapEffect (h : Hdr) (site : Byte) (clear : Bool) (mask : BitVec 256) (s : State) (hc_s : Canonical s) : Canonical (siteMapEffect h site clear mask s) := by
  unfold siteMapEffect
  dsimp only
  (repeat' split) <;> simp +contextual (maxDischargeDepth := 30) [*]

@[simp] theorem canon_eventRouteEffect (h : Hdr) (source : Byte) (action : Byte) (enable : Bool) (s : State) (hc_s : Canonical s) : Canonical (eventRouteEffect h source action enable s) := by
  unfold eventRouteEffect
  simp +contextual (maxDischargeDepth := 30) [*]

@[simp] theorem canon_calRunEffect (h : Hdr) (scope : Byte) (s : State) (hc_s : Canonical s) : Canonical (calRunEffect h scope s) := by
  unfold calRunEffect
  simp +contextual (maxDischargeDepth := 30) [*]

@[simp] theorem canon_putCal (s : State) (cls : ℕ) (unit : ℕ) (item : ℕ) (v : ℕ) (hc_s : Canonical s) : Canonical (putCal s cls unit item v) := by
  unfold putCal
  simp +contextual (maxDischargeDepth := 30) [*]

@[simp] theorem canon_applyCalResult (s : State) (x : CalResult) (hc_s : Canonical s) : Canonical (applyCalResult s x) := by
  unfold applyCalResult
  dsimp only
  (repeat' split) <;> simp +contextual (maxDischargeDepth := 30) [*]

@[simp] theorem canon_calRidgeEnd (scope : ℕ) (s : State) (r : RidgeId) (hc_s : Canonical s) : Canonical (calRidgeEnd scope s r) := by
  unfold calRidgeEnd
  simp +contextual (maxDischargeDepth := 30) [*]

@[simp] theorem canon_calNoise (s : State) (c : ℕ) (hc_s : Canonical s) : Canonical (calNoise s c) := by
  unfold calNoise
  simp +contextual (maxDischargeDepth := 30) [*]

@[simp] theorem canon_calRunDoneEffect (results : List CalResult) (s : State) (hc_s : Canonical s) : Canonical (calRunDoneEffect results s) := by
  unfold calRunDoneEffect
  dsimp only
  (repeat' split) <;> simp +contextual (maxDischargeDepth := 30) [*]

@[simp] theorem canon_eraseImage (s : State) (patch : Bool) (hc_s : Canonical s) : Canonical (eraseImage s patch) := by
  unfold eraseImage
  simp +contextual (maxDischargeDepth := 30) [*]

@[simp] theorem canon_fwUpdateEffect (h : Hdr) (target : Byte) (len : Word) (addr : BitVec 64) (img : FwImage) (s : State) (hc_s : Canonical s) : Canonical (fwUpdateEffect h target len addr img s) := by
  unfold fwUpdateEffect
  simp +contextual (maxDischargeDepth := 30) [*]

@[simp] theorem canon_fwUpdateDoneEffect (s : State) (hc_s : Canonical s) : Canonical (fwUpdateDoneEffect s) := by
  unfold fwUpdateDoneEffect
  dsimp only
  (repeat' split) <;> simp +contextual (maxDischargeDepth := 30) [*]

/-! ### Boot -/

@[simp] theorem canon_modBoot (s : State) (f : Boot → Boot) (hc_s : Canonical s) : Canonical (modBoot s f) := by
  unfold modBoot
  simp +contextual (maxDischargeDepth := 30) [*]

@[simp] theorem canon_toLoader (s : State) (result : BitVec 3) (hc_s : Canonical s) : Canonical (toLoader s result) := by
  unfold toLoader
  simp +contextual (maxDischargeDepth := 30) [*]

@[simp] theorem canon_foxReleaseEffect (s : State) (hc_s : Canonical s) : Canonical (foxReleaseEffect s) := by
  unfold foxReleaseEffect
  simp +contextual (maxDischargeDepth := 30) [*]

@[simp] theorem canon_sfdpReadEffect (valid : Bool) (profile : Bool) (sizeOk : Bool) (continuous : Bool) (s : State) (hc_s : Canonical s) : Canonical (sfdpReadEffect valid profile sizeOk continuous s) := by
  unfold sfdpReadEffect
  simp +contextual (maxDischargeDepth := 30) [*]

@[simp] theorem canon_firmwareVerifyEffect (i : Option FwImage) (s : State) (hc_s : Canonical s) : Canonical (firmwareVerifyEffect i s) := by
  unfold firmwareVerifyEffect
  dsimp only
  (repeat' split) <;> simp +contextual (maxDischargeDepth := 30) [*]

@[simp] theorem canon_patchLoadEffect (i : Option FwImage) (s : State) (hc_s : Canonical s) : Canonical (patchLoadEffect i s) := by
  unfold patchLoadEffect
  simp +contextual (maxDischargeDepth := 30) [*]

@[simp] theorem canon_pcieLinkUpEffect (s : State) (hc_s : Canonical s) : Canonical (pcieLinkUpEffect s) := by
  unfold pcieLinkUpEffect
  simp +contextual (maxDischargeDepth := 30) [*]

@[simp] theorem canon_powerupCalDoneEffect (s : State) (hc_s : Canonical s) : Canonical (powerupCalDoneEffect s) := by
  unfold powerupCalDoneEffect
  simp +contextual (maxDischargeDepth := 30) [*]

@[simp] theorem canon_hbmTrainingDoneEffect (ok : List Bool) (s : State) (hc_s : Canonical s) : Canonical (hbmTrainingDoneEffect ok s) := by
  unfold hbmTrainingDoneEffect
  simp +contextual (maxDischargeDepth := 30) [*]

@[simp] theorem canon_foxWatchdogEffect (s : State) (hc_s : Canonical s) : Canonical (foxWatchdogEffect s) := by
  unfold foxWatchdogEffect
  simp +contextual (maxDischargeDepth := 30) [*]

@[simp] theorem canon_refclkLossEffect (s : State) (hc_s : Canonical s) : Canonical (refclkLossEffect s) := by
  unfold refclkLossEffect
  simp +contextual (maxDischargeDepth := 30) [*]

@[simp] theorem canon_refclkPresentEffect (s : State) (hc_s : Canonical s) : Canonical (refclkPresentEffect s) := by
  unfold refclkPresentEffect
  simp +contextual (maxDischargeDepth := 30) [*]

@[simp] theorem canon_clockRevertEffect (s : State) (hc_s : Canonical s) : Canonical (clockRevertEffect s) := by
  unfold clockRevertEffect
  simp +contextual (maxDischargeDepth := 30) [*]

@[simp] theorem canon_tcompUpdateEffect (s : State) (hc_s : Canonical s) : Canonical (tcompUpdateEffect s) := by
  unfold tcompUpdateEffect
  simp +contextual (maxDischargeDepth := 30) [*]

@[simp] theorem canon_ageUpdateEffect (residual : ℤ) (s : State) (hc_s : Canonical s) : Canonical (ageUpdateEffect residual s) := by
  unfold ageUpdateEffect
  simp +contextual (maxDischargeDepth := 30) [*]

@[simp] theorem canon_trackPin (s : State) (p : ℕ) (kind : ℕ) (hc_s : Canonical s) : Canonical (trackPin s p kind).1 := by
  unfold trackPin
  simp +contextual (maxDischargeDepth := 30) [*]

@[simp] theorem canon_trackPins (x0 : List ℕ) (x1 : State) (hc_x1 : Canonical x1) : Canonical (trackPins x0 x1).1 := by
  induction x0 generalizing x1 with
  | nil => exact hc_x1
  | cons p ps ih => exact ih _ (canon_trackPin _ _ _ (canon_trackPin _ _ _ hc_x1))

@[simp] theorem canon_bgCalEffect (conv : Fin 64) (gain : ℤ) (offset : ℤ) (s : State) (hc_s : Canonical s) : Canonical (bgCalEffect conv gain offset s) := by
  unfold bgCalEffect
  simp +contextual (maxDischargeDepth := 30) [*]

/-! ### Monitors -/

@[simp] theorem canon_modOwl (s : State) (f : Owl → Owl) (hc_s : Canonical s) : Canonical (modOwl s f) := by
  unfold modOwl
  simp +contextual (maxDischargeDepth := 30) [*]

@[simp] theorem canon_askFactor (s : State) (k : ℕ) (hc_s : Canonical s) : Canonical (askFactor s k) := by
  unfold askFactor
  simp +contextual (maxDischargeDepth := 30) [*]

@[simp] theorem canon_owlStep (s : State) (st : OwlState) (more : BitVec 16) (hc_s : Canonical s) : Canonical (owlStep s st more) := by
  unfold owlStep
  simp +contextual (maxDischargeDepth := 30) [*]

@[simp] theorem canon_owlSee (s : State) (hc_s : Canonical s) : Canonical (owlSee s) := by
  unfold owlSee
  dsimp only
  (repeat' split) <;> simp +contextual (maxDischargeDepth := 30) [*]

@[simp] theorem canon_owlGraceExpiryEffect (s : State) (hc_s : Canonical s) : Canonical (owlGraceExpiryEffect s) := by
  unfold owlGraceExpiryEffect
  dsimp only
  (repeat' split) <;> simp +contextual (maxDischargeDepth := 30) [*]

@[simp] theorem canon_owlReleaseEffect (s : State) (hc_s : Canonical s) : Canonical (owlReleaseEffect s) := by
  unfold owlReleaseEffect
  simp +contextual (maxDischargeDepth := 30) [*]

@[simp] theorem canon_modSensor (s : State) (k : Fin 24) (f : Sensor → Sensor) (hc_s : Canonical s) : Canonical (modSensor s k f) := by
  unfold modSensor
  simp +contextual (maxDischargeDepth := 30) [*]

@[simp] theorem canon_sensorBreaks (s : State) (k : Fin 24) (hc_s : Canonical s) : Canonical (sensorBreaks s k) := by
  unfold sensorBreaks
  simp +contextual (maxDischargeDepth := 30) [*]

@[simp] theorem canon_tempConversionEffect (k : Fin 24) (v : ℤ) (s : State) (hc_s : Canonical s) : Canonical (tempConversionEffect k v s) := by
  unfold tempConversionEffect
  simp +contextual (maxDischargeDepth := 30) [*]

@[simp] theorem canon_sensorRecoverEffect (k : Fin 24) (s : State) (hc_s : Canonical s) : Canonical (sensorRecoverEffect k s) := by
  unfold sensorRecoverEffect
  simp +contextual (maxDischargeDepth := 30) [*]

@[simp] theorem canon_thermalShutdownEffect (k : Fin 24) (s : State) (hc_s : Canonical s) : Canonical (thermalShutdownEffect k s) := by
  unfold thermalShutdownEffect
  simp +contextual (maxDischargeDepth := 30) [*]

@[simp] theorem canon_modSmon (s : State) (m : Fin 12) (f : Smon → Smon) (hc_s : Canonical s) : Canonical (modSmon s m f) := by
  unfold modSmon
  simp +contextual (maxDischargeDepth := 30) [*]

@[simp] theorem canon_deassert (s : State) (b : Fin 64) (hc_s : Canonical s) : Canonical (deassert s b) := by
  unfold deassert
  simp +contextual (maxDischargeDepth := 30) [*]

@[simp] theorem canon_supplyResetFaultEffect (m : Fin 12) (s : State) (hc_s : Canonical s) : Canonical (supplyResetFaultEffect m s) := by
  unfold supplyResetFaultEffect
  simp +contextual (maxDischargeDepth := 30) [*]

@[simp] theorem canon_supplyDipEffect (m : Fin 12) (s : State) (hc_s : Canonical s) : Canonical (supplyDipEffect m s) := by
  unfold supplyDipEffect
  simp +contextual (maxDischargeDepth := 30) [*]

@[simp] theorem canon_suspectWindowEndEffect (m : Fin 12) (s : State) (hc_s : Canonical s) : Canonical (suspectWindowEndEffect m s) := by
  unfold suspectWindowEndEffect
  simp +contextual (maxDischargeDepth := 30) [*]

@[simp] theorem canon_monitorReleaseEffect (m : MonitorId) (s : State) (hc_s : Canonical s) : Canonical (monitorReleaseEffect m s) := by
  unfold monitorReleaseEffect
  dsimp only
  (repeat' split) <;> simp +contextual (maxDischargeDepth := 30) [*]

@[simp] theorem canon_monitorTimeoutEffect (m : Fin 12) (s : State) (hc_s : Canonical s) : Canonical (monitorTimeoutEffect m s) := by
  unfold monitorTimeoutEffect
  simp +contextual (maxDischargeDepth := 30) [*]

@[simp] theorem canon_pmonGateEffect (counts : List (BitVec 20)) (s : State) (hc_s : Canonical s) : Canonical (pmonGateEffect counts s) := by
  unfold pmonGateEffect
  simp +contextual (maxDischargeDepth := 30) [*]

@[simp] theorem canon_hostNotice (s : State) (src : ℕ) (e : EvtSrc) (hc_s : Canonical s) : Canonical (hostNotice s src e) := by
  unfold hostNotice
  dsimp only
  (repeat' split) <;> simp +contextual (maxDischargeDepth := 30) [*]

@[simp] theorem canon_fireAction (src : ℕ) (e : EvtSrc) (s : State) (a : ℕ) (hc_s : Canonical s) : Canonical (fireAction src e s a) := by
  unfold fireAction
  simp +contextual (maxDischargeDepth := 30) [*]

@[simp] theorem canon_deliverEvent (s : State) (src : ℕ) (e : EvtSrc) (hc_s : Canonical s) : Canonical (deliverEvent s src e) := by
  unfold deliverEvent
  simp +contextual (maxDischargeDepth := 30) [*]

@[simp] theorem canon_nextRequest (s : State) (c : Fin 47) (hc_s : Canonical s) : Canonical (nextRequest s c) := by
  unfold nextRequest
  dsimp only
  (repeat' split) <;> simp +contextual (maxDischargeDepth := 30) [*]

@[simp] theorem canon_eventDeliveryEffect (c : Option (Fin 47)) (s : State) (hc_s : Canonical s) : Canonical (eventDeliveryEffect c s) := by
  unfold eventDeliveryEffect
  dsimp only
  (repeat' split) <;> simp +contextual (maxDischargeDepth := 30) [*]

/-! ### Bear -/

@[simp] theorem canon_hbmTrainingLossEffect (s : State) (hc_s : Canonical s) : Canonical (hbmTrainingLossEffect s) := by
  unfold hbmTrainingLossEffect
  simp +contextual (maxDischargeDepth := 30) [*]

@[simp] theorem canon_multiplierLockLossEffect (s : State) (hc_s : Canonical s) : Canonical (multiplierLockLossEffect s) := by
  unfold multiplierLockLossEffect
  simp +contextual (maxDischargeDepth := 30) [*]

@[simp] theorem canon_fatalSourceDeassertsEffect (b : Fin 64) (s : State) (hc_s : Canonical s) : Canonical (fatalSourceDeassertsEffect b s) := by
  unfold fatalSourceDeassertsEffect
  simp +contextual (maxDischargeDepth := 30) [*]

@[simp] theorem canon_undoWords (s : State) (l : List (ℕ × Word)) (hc_s : Canonical s) : Canonical (undoWords s l) := by
  unfold undoWords
  simp +contextual (maxDischargeDepth := 30) [*]

@[simp] theorem canon_undoWait (s : State) (w : Wait) (hc_s : Canonical s) : Canonical (undoWait s w) := by
  unfold undoWait
  dsimp only
  split <;> simp +contextual (maxDischargeDepth := 30) [*]

@[simp] theorem canon_abortCommands (s : State) (hc_s : Canonical s) : Canonical (abortCommands s) := by
  unfold abortCommands
  dsimp only
  repeat' (refine canon_each _ _ _ (fun s a h => ?_) ?_)
  all_goals (first | simp +contextual (maxDischargeDepth := 30) [*] | (split <;> simp +contextual (maxDischargeDepth := 30) [*]))

@[simp] theorem canon_applyOverdue (x0 : ℕ) (x1 : State) (hc_x1 : Canonical x1) : Canonical (applyOverdue x0 x1) := by
  induction x0 generalizing x1 with
  | zero => exact hc_x1
  | succ m ih =>
    unfold applyOverdue
    split
    · exact hc_x1
    · split
      · exact ih _ (canon_applyTimed _ _ hc_x1)
      · exact hc_x1

@[simp] theorem canon_recover (s : State) (hc_s : Canonical s) : Canonical (recover s) := by
  unfold recover
  simp +contextual (maxDischargeDepth := 30) [*]

@[simp] theorem canon_quietPeriodEndEffect (s : State) (hc_s : Canonical s) : Canonical (quietPeriodEndEffect s) := by
  unfold quietPeriodEndEffect
  dsimp only
  (repeat' split) <;> simp +contextual (maxDischargeDepth := 30) [*]

@[simp] theorem canon_recoveryCompleteEffect (s : State) (hc_s : Canonical s) : Canonical (recoveryCompleteEffect s) := by
  unfold recoveryCompleteEffect
  simp +contextual (maxDischargeDepth := 30) [*]

@[simp] theorem canon_faultReadEffect (h : Hdr) (addr : BitVec 64) (s : State) (hc_s : Canonical s) : Canonical (faultReadEffect h addr s) := by
  unfold faultReadEffect
  simp +contextual (maxDischargeDepth := 30) [*]

@[simp] theorem canon_faultClearEffect (h : Hdr) (mask : BitVec 64) (s : State) (hc_s : Canonical s) : Canonical (faultClearEffect h mask s) := by
  unfold faultClearEffect
  simp +contextual (maxDischargeDepth := 30) [*]

@[simp] theorem canon_faultInjectEffect (h : Hdr) (bit_ : Byte) (count : Byte) (s : State) (hc_s : Canonical s) : Canonical (faultInjectEffect h bit_ count s) := by
  unfold faultInjectEffect
  simp +contextual (maxDischargeDepth := 30) [*]

/-! ### HostLink -/

@[simp] theorem canon_stopRing (s : State) (q : Fin 64) (p : Packet) (st : ℕ) (info : ℕ) (mark : Sq → Sq) (hc_s : Canonical s) : Canonical (stopRing s q p st info mark) := by
  unfold stopRing
  simp +contextual (maxDischargeDepth := 30) [*]

@[simp] theorem canon_takeLocal (s : State) (p : Packet) (h : Hdr) (hc_s : Canonical s) : Canonical (takeLocal s p h) := by
  unfold takeLocal
  dsimp only
  (repeat' split) <;> simp +contextual (maxDischargeDepth := 30) [*]

@[simp] theorem canon_routePacket (s : State) (q : Fin 64) (p : Packet) (h : Hdr) (hc_s : Canonical s) : Canonical (routePacket s q p h) := by
  unfold routePacket
  simp +contextual (maxDischargeDepth := 30) [*]

@[simp] theorem canon_cstoreStrike (s : State) (hc_s : Canonical s) : Canonical (cstoreStrike s) := by
  unfold cstoreStrike
  have hp := canon_accessInject s 27 hc_s
  split
  · exact canon_eq1 hp ‹_›
  · exact canon_corrected _ _ _ _ (canon_eq1 hp ‹_›)
  · have := canon_eq1 hp ‹_›
    split <;> simp +contextual (maxDischargeDepth := 30) [*]

@[simp] theorem canon_packetFetchEffect (q : Fin 64) (p : Packet) (readError : Bool) (s : State) (hc_s : Canonical s) : Canonical (packetFetchEffect q p readError s) := by
  unfold packetFetchEffect
  simp +contextual (maxDischargeDepth := 30) [*]

@[simp] theorem canon_sqRefused (s : State) (q : Fin 64) (hc_s : Canonical s) : Canonical (sqRefused s q) := by
  unfold sqRefused
  simp +contextual (maxDischargeDepth := 30) [*]

@[simp] theorem canon_cqRefused (s : State) (c : Fin 64) (hc_s : Canonical s) : Canonical (cqRefused s c) := by
  unfold cqRefused
  simp +contextual (maxDischargeDepth := 30) [*]

@[simp] theorem canon_doorbellWrite (s : State) (q : Fin 64) (v : Word) (hc_s : Canonical s) : Canonical (doorbellWrite s q v) := by
  unfold doorbellWrite
  simp +contextual (maxDischargeDepth := 30) [*]

@[simp] theorem canon_sqCtrlWrite (s : State) (q : Fin 64) (v : Word) (hc_s : Canonical s) : Canonical (sqCtrlWrite s q v) := by
  unfold sqCtrlWrite
  simp +contextual (maxDischargeDepth := 30) [*]

@[simp] theorem canon_sqResumeWrite (s : State) (q : Fin 64) (v : Word) (hc_s : Canonical s) : Canonical (sqResumeWrite s q v) := by
  unfold sqResumeWrite
  split
  · exact canon_modSq _ _ _ hc_s
  · exact hc_s

@[simp] theorem canon_sqWrite (s : State) (q : Fin 64) (off : ℕ) (v : Word) (hc_s : Canonical s) : Canonical (sqWrite s q off v) := by
  unfold sqWrite
  dsimp only
  (repeat' split) <;> simp +contextual (maxDischargeDepth := 30) [*]

@[simp] theorem canon_deliverNotices (c : Fin 64) (x1 : ℕ) (x2 : State) (hc_x2 : Canonical x2) : Canonical (deliverNotices c x1 x2) := by
  induction x1 generalizing x2 with
  | zero => exact hc_x2
  | succ m ih =>
    unfold deliverNotices
    split
    · exact hc_x2
    · split
      · apply ih; simp +contextual (maxDischargeDepth := 30) [hc_x2]
      · exact hc_x2

@[simp] theorem canon_cqCfgWrite (s : State) (c : Fin 64) (v : Word) (hc_s : Canonical s) : Canonical (cqCfgWrite s c v) := by
  unfold cqCfgWrite
  simp +contextual (maxDischargeDepth := 30) [*]

@[simp] theorem canon_cqHeadReg (s : State) (c : Fin 64) (v : Word) (hc_s : Canonical s) : Canonical (cqHeadReg s c v) := by
  unfold cqHeadReg
  simp +contextual (maxDischargeDepth := 30) [*]

@[simp] theorem canon_cqWriteReg (s : State) (c : Fin 64) (off : ℕ) (v : Word) (hc_s : Canonical s) : Canonical (cqWriteReg s c off v) := by
  unfold cqWriteReg
  dsimp only
  (repeat' split) <;> simp +contextual (maxDischargeDepth := 30) [*]

@[simp] theorem canon_doorbellEffect (q : Fin 64) (v : Word) (s : State) (hc_s : Canonical s) : Canonical (doorbellEffect q v s) := by
  unfold doorbellEffect
  simp +contextual (maxDischargeDepth := 30) [*]

@[simp] theorem canon_sqEnableEffect (q : Fin 64) (v : Word) (s : State) (hc_s : Canonical s) : Canonical (sqEnableEffect q v s) := by
  unfold sqEnableEffect
  simp +contextual (maxDischargeDepth := 30) [*]

@[simp] theorem canon_sqResumeEffect (q : Fin 64) (v : Word) (s : State) (hc_s : Canonical s) : Canonical (sqResumeEffect q v s) := by
  unfold sqResumeEffect
  simp +contextual (maxDischargeDepth := 30) [*]

@[simp] theorem canon_cqEnableEffect (c : Fin 64) (v : Word) (s : State) (hc_s : Canonical s) : Canonical (cqEnableEffect c v s) := by
  unfold cqEnableEffect
  simp +contextual (maxDischargeDepth := 30) [*]

@[simp] theorem canon_cqHeadWriteEffect (c : Fin 64) (v : Word) (s : State) (hc_s : Canonical s) : Canonical (cqHeadWriteEffect c v s) := by
  unfold cqHeadWriteEffect
  simp +contextual (maxDischargeDepth := 30) [*]

@[simp] theorem canon_pendingNoticeWriteEffect (c : Fin 64) (s : State) (hc_s : Canonical s) : Canonical (pendingNoticeWriteEffect c s) := by
  unfold pendingNoticeWriteEffect
  (repeat' split) <;> simp_all +contextual (maxDischargeDepth := 30) 

@[simp] theorem canon_cqIrqTimerEffect (c : Fin 64) (s : State) (hc_s : Canonical s) : Canonical (cqIrqTimerEffect c s) := by
  unfold cqIrqTimerEffect
  simp +contextual (maxDischargeDepth := 30) [*]

@[simp] theorem canon_dmaWriteErrorEffect (t : DmaTarget) (again : Bool) (s : State) (hc_s : Canonical s) : Canonical (dmaWriteErrorEffect t again s) := by
  unfold dmaWriteErrorEffect
  (repeat' split) <;> simp_all +contextual (maxDischargeDepth := 30) 

@[simp] theorem canon_configWrite (s : State) (off : ℕ) (v : Word) (hc_s : Canonical s) : Canonical (configWrite s off v) := by
  unfold configWrite
  simp +contextual (maxDischargeDepth := 30) [*]

@[simp] theorem canon_msixWrite (s : State) (v : Fin 64) (w : ℕ) (x : Word) (hc_s : Canonical s) : Canonical (msixWrite s v w x) := by
  unfold msixWrite
  simp +contextual (maxDischargeDepth := 30) [*]

@[simp] theorem canon_queueWindowWrite (s : State) (id : ℕ) (w : ℕ) (v : Word) (hc_s : Canonical s) : Canonical (queueWindowWrite s id w v) := by
  unfold queueWindowWrite
  (repeat' split) <;> simp_all +contextual (maxDischargeDepth := 30) 

@[simp] theorem canon_bar0Write (s : State) (off : ℕ) (v : Word) (hc_s : Canonical s) : Canonical (bar0Write s off v) := by
  unfold bar0Write
  simp +contextual (maxDischargeDepth := 30) [*]

@[simp] theorem canon_bar0Read (s : State) (off : ℕ) (hc_s : Canonical s) : Canonical (bar0Read s off).2 := by
  unfold bar0Read
  dsimp only
  (repeat' split) <;> simp +contextual (maxDischargeDepth := 30) [*]

@[simp] theorem canon_configReadEffect (off : ℕ) (s : State) (hc_s : Canonical s) : Canonical (configReadEffect off s) := by
  unfold configReadEffect
  simp +contextual (maxDischargeDepth := 30) [*]

@[simp] theorem canon_bar0ReadEffect (off : ℕ) (s : State) (hc_s : Canonical s) : Canonical (bar0ReadEffect off s) := by
  unfold bar0ReadEffect
  simp +contextual (maxDischargeDepth := 30) [*]

/-! ### Ring -/

@[simp] theorem canon_linkFrameResendEffect (portB : Bool) (s : State) (hc_s : Canonical s) : Canonical (linkFrameResendEffect portB s) := by
  unfold linkFrameResendEffect
  dsimp only
  (repeat' split) <;> simp +contextual (maxDischargeDepth := 30) [*]

@[simp] theorem canon_ackTick (s : State) (portB : Bool) (hc_s : Canonical s) : Canonical (ackTick s portB) := by
  unfold ackTick
  (repeat' split) <;> simp_all +contextual (maxDischargeDepth := 30) 

@[simp] theorem canon_received (s : State) (v : Via) (hc_s : Canonical s) : Canonical (received s v) := by
  unfold received
  simp +contextual (maxDischargeDepth := 30) [*]

@[simp] theorem canon_passOn (s : State) (v : Via) (m : RingMsg) (hc_s : Canonical s) : Canonical (passOn s v m) := by
  unfold passOn
  simp +contextual (maxDischargeDepth := 30) [*]

@[simp] theorem canon_sendHeld (s : State) (hc_s : Canonical s) : Canonical (sendHeld s) := by
  unfold sendHeld
  simp +contextual (maxDischargeDepth := 30) [*]

@[simp] theorem canon_setRingState (s : State) (hc_s : Canonical s) : Canonical (setRingState s) := by
  unfold setRingState
  simp +contextual (maxDischargeDepth := 30) [*]

@[simp] theorem canon_splitPacket (bound : ℕ) (q : Fin 64) (s : State) (t : Taken) (hc_s : Canonical s) : Canonical (splitPacket bound q s t) := by
  unfold splitPacket
  (repeat' split) <;> simp_all +contextual (maxDischargeDepth := 30) 

@[simp] theorem canon_splitPackets (bound : ℕ) (s : State) (hc_s : Canonical s) : Canonical (splitPackets bound s) := by
  unfold splitPackets
  simp +contextual (maxDischargeDepth := 30) [*]

@[simp] theorem canon_rerouteFrames (portB : Bool) (s : State) (hc_s : Canonical s) : Canonical (rerouteFrames portB s) := by
  unfold rerouteFrames
  simp +contextual (maxDischargeDepth := 30) [*]

@[simp] theorem canon_linkDownEffect (l : RingLink) (unlocked : ℕ) (s : State) (hc_s : Canonical s) : Canonical (linkDownEffect l unlocked s) := by
  unfold linkDownEffect
  dsimp only
  (repeat' split) <;> simp +contextual (maxDischargeDepth := 30) [*]

@[simp] theorem canon_linkRestoredEffect (l : RingLink) (up : ℕ) (s : State) (hc_s : Canonical s) : Canonical (linkRestoredEffect l up s) := by
  unfold linkRestoredEffect
  simp +contextual (maxDischargeDepth := 30) [*]

@[simp] theorem canon_sendToken (s : State) (hc_s : Canonical s) : Canonical (sendToken s) := by
  unfold sendToken
  simp +contextual (maxDischargeDepth := 30) [*]

@[simp] theorem canon_enumStartEffect (s : State) (hc_s : Canonical s) : Canonical (enumStartEffect s) := by
  unfold enumStartEffect
  simp +contextual (maxDischargeDepth := 30) [*]

@[simp] theorem canon_ringAnswer (s : State) (h : Hdr) (addr : BitVec 64) (code : ℕ) (hc_s : Canonical s) : Canonical (ringAnswer s h addr code) := by
  unfold ringAnswer
  simp +contextual (maxDischargeDepth := 30) [*]

@[simp] theorem canon_ringEnumEnds (s : State) (code : ℕ) (hc_s : Canonical s) : Canonical (ringEnumEnds s code) := by
  unfold ringEnumEnds
  (repeat' split) <;> simp_all +contextual (maxDischargeDepth := 30) 

@[simp] theorem canon_enumRetryEffect (s : State) (hc_s : Canonical s) : Canonical (enumRetryEffect s) := by
  unfold enumRetryEffect
  simp +contextual (maxDischargeDepth := 30) [*]

@[simp] theorem canon_tokenReturns (es : List Member) (s : State) (hc_s : Canonical s) : Canonical (tokenReturns es s) := by
  unfold tokenReturns
  simp +contextual (maxDischargeDepth := 30) [*]

@[simp] theorem canon_foreignToken (s : State) (hc_s : Canonical s) : Canonical (foreignToken s) := by
  unfold foreignToken
  simp +contextual (maxDischargeDepth := 30) [*]

@[simp] theorem canon_tokenPasses (count : BitVec 8) (es : List Member) (s : State) (hc_s : Canonical s) : Canonical (tokenPasses count es s) := by
  unfold tokenPasses
  simp +contextual (maxDischargeDepth := 30) [*]

@[simp] theorem canon_learnMembers (ms : List Member) (s : State) (hc_s : Canonical s) : Canonical (learnMembers ms s) := by
  unfold learnMembers
  simp +contextual (maxDischargeDepth := 30) [*]

@[simp] theorem canon_enumTokenEffect (v : Via) (count : BitVec 8) (own : Bool) (closed : Bool) (es : List Member) (s : State) (hc_s : Canonical s) : Canonical (enumTokenEffect v count own closed es s) := by
  unfold enumTokenEffect
  simp +contextual (maxDischargeDepth := 30) [*]

@[simp] theorem canon_ringEnumEffect (h : Hdr) (addr : BitVec 64) (s : State) (hc_s : Canonical s) : Canonical (ringEnumEffect h addr s) := by
  unfold ringEnumEffect
  simp +contextual (maxDischargeDepth := 30) [*]

@[simp] theorem canon_packetArrives (v : Via) (entry : BitVec 7) (q : Fin 64) (era : ℕ) (p : Packet) (s : State) (hc_s : Canonical s) : Canonical (packetArrives v entry q era p s) := by
  unfold packetArrives
  simp +contextual (maxDischargeDepth := 30) [*]

@[simp] theorem canon_ringPacketArrivalEffect (v : Via) (l : RingLoad) (s : State) (hc_s : Canonical s) : Canonical (ringPacketArrivalEffect v l s) := by
  unfold ringPacketArrivalEffect
  dsimp only
  (repeat' split) <;> simp +contextual (maxDischargeDepth := 30) [*]

@[simp] theorem canon_ringReplyArrivalEffect (v : Via) (entry : BitVec 7) (q : Fin 64) (era : ℕ) (seq : Word) (sender : BitVec 7) (r : Reply) (s : State) (hc_s : Canonical s) : Canonical (ringReplyArrivalEffect v entry q era seq sender r s) := by
  unfold ringReplyArrivalEffect
  simp +contextual (maxDischargeDepth := 30) [*]

@[simp] theorem canon_ringEventReceiveEffect (v : Via) (k : Fin 8) (position : BitVec 7) (s : State) (hc_s : Canonical s) : Canonical (ringEventReceiveEffect v k position s) := by
  unfold ringEventReceiveEffect
  simp +contextual (maxDischargeDepth := 30) [*]

/-! ### Cairn -/

@[simp] theorem canon_adoptDly (s : State) (hc_s : Canonical s) : Canonical (adoptDly s) := by
  unfold adoptDly
  dsimp only
  (repeat' split) <;> simp +contextual (maxDischargeDepth := 30) [*]

@[simp] theorem canon_syncReply (s : State) (hc_s : Canonical s) : Canonical (syncReply s) := by
  unfold syncReply
  (repeat' split) <;> simp_all +contextual (maxDischargeDepth := 30) 

@[simp] theorem canon_putFrame (s : State) (f : CairnFrame) (hc_s : Canonical s) : Canonical (putFrame s f) := by
  unfold putFrame
  simp +contextual (maxDischargeDepth := 30) [*]

@[simp] theorem canon_cairnFrameSendEffect (s : State) (hc_s : Canonical s) : Canonical (cairnFrameSendEffect s) := by
  unfold cairnFrameSendEffect
  simp +contextual (maxDischargeDepth := 30) [*]

@[simp] theorem canon_cairnPairs (s : State) (stamp : T64) (e : BitVec 48) (hc_s : Canonical s) : Canonical (cairnPairs s stamp e) := by
  unfold cairnPairs
  simp +contextual (maxDischargeDepth := 30) [*]

@[simp] theorem canon_cairnFrameReceiveEffect (f : CairnFrame) (reserved : BitVec 2) (stamp : T64) (s : State) (hc_s : Canonical s) : Canonical (cairnFrameReceiveEffect f reserved stamp s) := by
  unfold cairnFrameReceiveEffect
  simp +contextual (maxDischargeDepth := 30) [*]

@[simp] theorem canon_cairnLoadEffect (bad : Option RidgeId) (s : State) (hc_s : Canonical s) : Canonical (cairnLoadEffect bad s) := by
  unfold cairnLoadEffect
  dsimp only
  (repeat' split) <;> simp +contextual (maxDischargeDepth := 30) [*]

@[simp] theorem canon_cairnRelaunchEffect (s : State) (hc_s : Canonical s) : Canonical (cairnRelaunchEffect s) := by
  unfold cairnRelaunchEffect
  (repeat' split) <;> simp_all +contextual (maxDischargeDepth := 30) 

@[simp] theorem canon_cairnMissedEffect (s : State) (hc_s : Canonical s) : Canonical (cairnMissedEffect s) := by
  unfold cairnMissedEffect
  simp +contextual (maxDischargeDepth := 30) [*]

@[simp] theorem canon_modMember (s : State) (k : ℕ) (f : Member → Member) (hc_s : Canonical s) : Canonical (modMember s k f) := by
  unfold modMember
  simp +contextual (maxDischargeDepth := 30) [*]

@[simp] theorem canon_drivePulse (s : State) (k : Bool) (t : T64) (hc_s : Canonical s) : Canonical (drivePulse s k t) := by
  unfold drivePulse
  simp +contextual (maxDischargeDepth := 30) [*]

@[simp] theorem canon_seePulse (parent : Byte) (output : Byte) (s : State) (hc_s : Canonical s) : Canonical (seePulse parent output s) := by
  unfold seePulse
  simp +contextual (maxDischargeDepth := 30) [*]

@[simp] theorem canon_discoveryPulseEffect (parent : Byte) (output : Byte) (s : State) (hc_s : Canonical s) : Canonical (discoveryPulseEffect parent output s) := by
  unfold discoveryPulseEffect
  dsimp only
  (repeat' split) <;> simp +contextual (maxDischargeDepth := 30) [*]

@[simp] theorem canon_echoPulseEffect (stamp : T64) (s : State) (hc_s : Canonical s) : Canonical (echoPulseEffect stamp s) := by
  unfold echoPulseEffect
  simp +contextual (maxDischargeDepth := 30) [*]

@[simp] theorem canon_echoTurnaroundEffect (s : State) (hc_s : Canonical s) : Canonical (echoTurnaroundEffect s) := by
  unfold echoTurnaroundEffect
  dsimp only
  (repeat' split) <;> simp +contextual (maxDischargeDepth := 30) [*]

@[simp] theorem canon_echoReturnEffect (output : Bool) (driven : T64) (returned : T64) (s : State) (hc_s : Canonical s) : Canonical (echoReturnEffect output driven returned s) := by
  unfold echoReturnEffect
  simp +contextual (maxDischargeDepth := 30) [*]

@[simp] theorem canon_gatherHops (s : State) (hops : List Word) (hc_s : Canonical s) : Canonical (gatherHops s hops) := by
  unfold gatherHops
  simp +contextual (maxDischargeDepth := 30) [*]

@[simp] theorem canon_learnTree (is : List SyncInfo) (s : State) (hc_s : Canonical s) : Canonical (learnTree is s) := by
  unfold learnTree
  simp +contextual (maxDischargeDepth := 30) [*]

@[simp] theorem canon_newDly (d : ℤ) (s : State) (hc_s : Canonical s) : Canonical (newDly d s) := by
  unfold newDly
  simp +contextual (maxDischargeDepth := 30) [*]

@[simp] theorem canon_bgTrackEchoEffect (hops : List Word) (dly : List Word) (s : State) (hc_s : Canonical s) : Canonical (bgTrackEchoEffect hops dly s) := by
  unfold bgTrackEchoEffect
  dsimp only
  (repeat' split) <;> simp +contextual (maxDischargeDepth := 30) [*]

@[simp] theorem canon_syncCalEffect (h : Hdr) (options : Byte) (s : State) (hc_s : Canonical s) : Canonical (syncCalEffect h options s) := by
  unfold syncCalEffect
  simp +contextual (maxDischargeDepth := 30) [*]

@[simp] theorem canon_syncCollect (is : List SyncInfo) (o : Byte) (s : State) (hc_s : Canonical s) : Canonical (syncCollect is o s) := by
  unfold syncCollect
  dsimp only
  (repeat' split) <;> simp +contextual (maxDischargeDepth := 30) [*]

@[simp] theorem canon_syncCalDoneEffect (is : List SyncInfo) (vals : List Word) (s : State) (hc_s : Canonical s) : Canonical (syncCalDoneEffect is vals s) := by
  unfold syncCalDoneEffect
  dsimp only
  (repeat' split) <;> simp +contextual (maxDischargeDepth := 30) [*]

/-! ### Regs -/

@[simp] theorem canon_regWrite (p : Path) (i : ℕ) (v : Word) (s : State) (hc_s : Canonical s) : Canonical (regWrite p i v s) := by
  unfold regWrite
  (repeat' split) <;> simp_all +contextual (maxDischargeDepth := 30) 

@[simp] theorem canon_pinCfgEffect (path : Path) (p : PinId) (v : Word) (s : State) (hc_s : Canonical s) : Canonical (pinCfgEffect path p v s) := by
  unfold pinCfgEffect
  simp +contextual (maxDischargeDepth := 30) [*]

@[simp] theorem canon_pinPmuCfgEffect (path : Path) (p : PinId) (v : Word) (s : State) (hc_s : Canonical s) : Canonical (pinPmuCfgEffect path p v s) := by
  unfold pinPmuCfgEffect
  simp +contextual (maxDischargeDepth := 30) [*]

@[simp] theorem canon_dpsCfgEffect (path : Path) (n : RidgeId) (v : Word) (s : State) (hc_s : Canonical s) : Canonical (dpsCfgEffect path n v s) := by
  unfold dpsCfgEffect
  simp +contextual (maxDischargeDepth := 30) [*]

@[simp] theorem canon_dpsLevelEffect (path : Path) (n : RidgeId) (v : Word) (s : State) (hc_s : Canonical s) : Canonical (dpsLevelEffect path n v s) := by
  unfold dpsLevelEffect
  simp +contextual (maxDischargeDepth := 30) [*]

@[simp] theorem canon_dpsNcoFreqEffect (path : Path) (n : RidgeId) (v : Word) (s : State) (hc_s : Canonical s) : Canonical (dpsNcoFreqEffect path n v s) := by
  unfold dpsNcoFreqEffect
  simp +contextual (maxDischargeDepth := 30) [*]

@[simp] theorem canon_dpsNcoPhaseEffect (path : Path) (n : RidgeId) (v : Word) (s : State) (hc_s : Canonical s) : Canonical (dpsNcoPhaseEffect path n v s) := by
  unfold dpsNcoPhaseEffect
  simp +contextual (maxDischargeDepth := 30) [*]

@[simp] theorem canon_dpsStatusEffect (path : Path) (n : RidgeId) (v : Word) (s : State) (hc_s : Canonical s) : Canonical (dpsStatusEffect path n v s) := by
  unfold dpsStatusEffect
  simp +contextual (maxDischargeDepth := 30) [*]

@[simp] theorem canon_stopAwgWriteEffect (path : Path) (n : RidgeId) (s : State) (hc_s : Canonical s) : Canonical (stopAwgWriteEffect path n s) := by
  unfold stopAwgWriteEffect
  simp +contextual (maxDischargeDepth := 30) [*]

@[simp] theorem canon_stopAcqWriteEffect (path : Path) (n : RidgeId) (s : State) (hc_s : Canonical s) : Canonical (stopAcqWriteEffect path n s) := by
  unfold stopAcqWriteEffect
  simp +contextual (maxDischargeDepth := 30) [*]

@[simp] theorem canon_aptNcoFreqEffect (path : Path) (n : RidgeId) (v : Word) (s : State) (hc_s : Canonical s) : Canonical (aptNcoFreqEffect path n v s) := by
  unfold aptNcoFreqEffect
  simp +contextual (maxDischargeDepth := 30) [*]

@[simp] theorem canon_aptNcoPhaseEffect (path : Path) (n : RidgeId) (v : Word) (s : State) (hc_s : Canonical s) : Canonical (aptNcoPhaseEffect path n v s) := by
  unfold aptNcoPhaseEffect
  simp +contextual (maxDischargeDepth := 30) [*]

@[simp] theorem canon_aptHostRdEffect (path : Path) (n : RidgeId) (v : Word) (s : State) (hc_s : Canonical s) : Canonical (aptHostRdEffect path n v s) := by
  unfold aptHostRdEffect
  simp +contextual (maxDischargeDepth := 30) [*]

@[simp] theorem canon_rdgCapHostRdEffect (path : Path) (r : RidgeId) (v : Word) (s : State) (hc_s : Canonical s) : Canonical (rdgCapHostRdEffect path r v s) := by
  unfold rdgCapHostRdEffect
  simp +contextual (maxDischargeDepth := 30) [*]

@[simp] theorem canon_replayEffect (path : Path) (v : Word) (s : State) (hc_s : Canonical s) : Canonical (replayEffect path v s) := by
  unfold replayEffect
  simp +contextual (maxDischargeDepth := 30) [*]

@[simp] theorem canon_reclaimEffect (path : Path) (v : Word) (s : State) (hc_s : Canonical s) : Canonical (reclaimEffect path v s) := by
  unfold reclaimEffect
  simp +contextual (maxDischargeDepth := 30) [*]

@[simp] theorem canon_glbEvtFireEffect (path : Path) (v : Word) (s : State) (hc_s : Canonical s) : Canonical (glbEvtFireEffect path v s) := by
  unfold glbEvtFireEffect
  simp +contextual (maxDischargeDepth := 30) [*]

@[simp] theorem canon_resetEffect (path : Path) (r : RidgeId) (s : State) (hc_s : Canonical s) : Canonical (resetEffect path r s) := by
  unfold resetEffect
  simp +contextual (maxDischargeDepth := 30) [*]

@[simp] theorem canon_hostResetEffect (path : Option Path) (z : Straps) (s : State) (hc_s : Canonical s) : Canonical (hostResetEffect path z s) := by
  unfold hostResetEffect
  (repeat' split) <;> simp_all +contextual (maxDischargeDepth := 30) 

@[simp] theorem canon_registerWriteEffect (path : Path) (loc : RegLoc) (v : Word) (s : State) (hc_s : Canonical s) : Canonical (registerWriteEffect path loc v s) := by
  unfold registerWriteEffect
  (repeat' split) <;> simp_all +contextual (maxDischargeDepth := 30) 

@[simp] theorem canon_paramReadEffect (path : Path) (first : BitVec 16) (count : BitVec 16) (addr : BitVec 64) (s : State) (hc_s : Canonical s) : Canonical (paramReadEffect path first count addr s) := by
  unfold paramReadEffect
  (repeat' split) <;> simp_all +contextual (maxDischargeDepth := 30) 

@[simp] theorem canon_tickPort (s : State) (n : RidgeId) (hc_s : Canonical s) : Canonical (tickPort s n) := by
  unfold tickPort
  simp +contextual (maxDischargeDepth := 30) [*]

@[simp] theorem canon_tickRidge (s : State) (r : RidgeId) (hc_s : Canonical s) : Canonical (tickRidge s r) := by
  unfold tickRidge
  simp +contextual (maxDischargeDepth := 30) [*]

@[simp] theorem canon_clockTick (s : State) (hc_s : Canonical s) : Canonical (clockTick s) := by
  unfold clockTick
  simp +contextual (maxDischargeDepth := 30) [*]

end Sys2Proof.Machine
end

