-- ==== Sys2Proof/Laws/State.lean ====
section
/-! SUPPORT. What each update of one unit leaves in every field of the state, and what a vector holds after the update of one
element. -/

namespace Sys2Proof.Machine

@[simp] theorem vmod_same {α : Type} {n : Nat} (v : Vector α n) (i : Fin n) (f : α → α) : (vmod v i f)[i] = f v[i] := by
  simp [vmod]

theorem vmod_other {α : Type} {n : Nat} (v : Vector α n) (i j : Fin n) (f : α → α) (h : i ≠ j) : (vmod v i f)[j] = v[j] := by
  simp [vmod, Fin.val_ne_of_ne h]

/-- An element after an update. -/
theorem vmod_get {α : Type} {n : Nat} (v : Vector α n) (i j : Fin n) (f : α → α) :
    (vmod v i f)[j] = if i = j then f v[i] else v[j] := by
  split
  · subst ‹i = j›; exact vmod_same ..
  · exact vmod_other _ _ _ _ ‹_›

@[simp] theorem modR_fields (s : State) (r : RidgeId) (f : Ridge → Ridge) :
    (modR s r f).now = s.now ∧ (modR s r f).ticks = s.ticks ∧ (modR s r f).free = s.free ∧ (modR s r f).host = s.host ∧
    (modR s r f).params = s.params ∧ (modR s r f).boot = s.boot ∧ (modR s r f).flash = s.flash ∧
    (modR s r f).working = s.working ∧ (modR s r f).link = s.link ∧ (modR s r f).sq = s.sq ∧ (modR s r f).cq = s.cq ∧
    (modR s r f).msix = s.msix ∧ (modR s r f).ridges = vmod s.ridges r f ∧ (modR s r f).pins = s.pins ∧
    (modR s r f).dps = s.dps ∧ (modR s r f).ports = s.ports ∧ (modR s r f).store = s.store ∧ (modR s r f).tickets = s.tickets ∧
    (modR s r f).lastTicket = s.lastTicket ∧ (modR s r f).convPtr = s.convPtr ∧ (modR s r f).timuPtr = s.timuPtr ∧
    (modR s r f).queues = s.queues ∧ (modR s r f).lastQueue = s.lastQueue ∧ (modR s r f).sites = s.sites ∧
    (modR s r f).cal = s.cal ∧ (modR s r f).sensors = s.sensors ∧ (modR s r f).smons = s.smons ∧ (modR s r f).pmons = s.pmons ∧
    (modR s r f).owl = s.owl ∧ (modR s r f).events = s.events ∧ (modR s r f).bear = s.bear ∧ (modR s r f).cols = s.cols ∧
    (modR s r f).ring = s.ring ∧ (modR s r f).cairn = s.cairn ∧ (modR s r f).csps = s.csps ∧ (modR s r f).xip = s.xip ∧
    (modR s r f).pending = s.pending :=
  ⟨rfl, rfl, rfl, rfl, rfl, rfl, rfl, rfl, rfl, rfl, rfl, rfl, rfl, rfl, rfl, rfl, rfl, rfl, rfl, rfl, rfl, rfl, rfl, rfl, rfl, rfl, rfl, rfl, rfl, rfl, rfl, rfl, rfl, rfl, rfl, rfl, rfl⟩

@[simp] theorem modPin_fields (s : State) (p : PinId) (f : Pin → Pin) :
    (modPin s p f).now = s.now ∧ (modPin s p f).ticks = s.ticks ∧ (modPin s p f).free = s.free ∧ (modPin s p f).host = s.host ∧
    (modPin s p f).params = s.params ∧ (modPin s p f).boot = s.boot ∧ (modPin s p f).flash = s.flash ∧
    (modPin s p f).working = s.working ∧ (modPin s p f).link = s.link ∧ (modPin s p f).sq = s.sq ∧ (modPin s p f).cq = s.cq ∧
    (modPin s p f).msix = s.msix ∧ (modPin s p f).ridges = s.ridges ∧ (modPin s p f).pins = vmod s.pins p f ∧
    (modPin s p f).dps = s.dps ∧ (modPin s p f).ports = s.ports ∧ (modPin s p f).store = s.store ∧
    (modPin s p f).tickets = s.tickets ∧ (modPin s p f).lastTicket = s.lastTicket ∧ (modPin s p f).convPtr = s.convPtr ∧
    (modPin s p f).timuPtr = s.timuPtr ∧ (modPin s p f).queues = s.queues ∧ (modPin s p f).lastQueue = s.lastQueue ∧
    (modPin s p f).sites = s.sites ∧ (modPin s p f).cal = s.cal ∧ (modPin s p f).sensors = s.sensors ∧
    (modPin s p f).smons = s.smons ∧ (modPin s p f).pmons = s.pmons ∧ (modPin s p f).owl = s.owl ∧
    (modPin s p f).events = s.events ∧ (modPin s p f).bear = s.bear ∧ (modPin s p f).cols = s.cols ∧
    (modPin s p f).ring = s.ring ∧ (modPin s p f).cairn = s.cairn ∧ (modPin s p f).csps = s.csps ∧ (modPin s p f).xip = s.xip ∧
    (modPin s p f).pending = s.pending :=
  ⟨rfl, rfl, rfl, rfl, rfl, rfl, rfl, rfl, rfl, rfl, rfl, rfl, rfl, rfl, rfl, rfl, rfl, rfl, rfl, rfl, rfl, rfl, rfl, rfl, rfl, rfl, rfl, rfl, rfl, rfl, rfl, rfl, rfl, rfl, rfl, rfl, rfl⟩

@[simp] theorem modDps_fields (s : State) (n : RidgeId) (f : Dps → Dps) :
    (modDps s n f).now = s.now ∧ (modDps s n f).ticks = s.ticks ∧ (modDps s n f).free = s.free ∧ (modDps s n f).host = s.host ∧
    (modDps s n f).params = s.params ∧ (modDps s n f).boot = s.boot ∧ (modDps s n f).flash = s.flash ∧
    (modDps s n f).working = s.working ∧ (modDps s n f).link = s.link ∧ (modDps s n f).sq = s.sq ∧ (modDps s n f).cq = s.cq ∧
    (modDps s n f).msix = s.msix ∧ (modDps s n f).ridges = s.ridges ∧ (modDps s n f).pins = s.pins ∧
    (modDps s n f).dps = vmod s.dps n f ∧ (modDps s n f).ports = s.ports ∧ (modDps s n f).store = s.store ∧
    (modDps s n f).tickets = s.tickets ∧ (modDps s n f).lastTicket = s.lastTicket ∧ (modDps s n f).convPtr = s.convPtr ∧
    (modDps s n f).timuPtr = s.timuPtr ∧ (modDps s n f).queues = s.queues ∧ (modDps s n f).lastQueue = s.lastQueue ∧
    (modDps s n f).sites = s.sites ∧ (modDps s n f).cal = s.cal ∧ (modDps s n f).sensors = s.sensors ∧
    (modDps s n f).smons = s.smons ∧ (modDps s n f).pmons = s.pmons ∧ (modDps s n f).owl = s.owl ∧
    (modDps s n f).events = s.events ∧ (modDps s n f).bear = s.bear ∧ (modDps s n f).cols = s.cols ∧
    (modDps s n f).ring = s.ring ∧ (modDps s n f).cairn = s.cairn ∧ (modDps s n f).csps = s.csps ∧ (modDps s n f).xip = s.xip ∧
    (modDps s n f).pending = s.pending :=
  ⟨rfl, rfl, rfl, rfl, rfl, rfl, rfl, rfl, rfl, rfl, rfl, rfl, rfl, rfl, rfl, rfl, rfl, rfl, rfl, rfl, rfl, rfl, rfl, rfl, rfl, rfl, rfl, rfl, rfl, rfl, rfl, rfl, rfl, rfl, rfl, rfl, rfl⟩

@[simp] theorem modPort_fields (s : State) (n : RidgeId) (f : Port → Port) :
    (modPort s n f).now = s.now ∧ (modPort s n f).ticks = s.ticks ∧ (modPort s n f).free = s.free ∧
    (modPort s n f).host = s.host ∧ (modPort s n f).params = s.params ∧ (modPort s n f).boot = s.boot ∧
    (modPort s n f).flash = s.flash ∧ (modPort s n f).working = s.working ∧ (modPort s n f).link = s.link ∧
    (modPort s n f).sq = s.sq ∧ (modPort s n f).cq = s.cq ∧ (modPort s n f).msix = s.msix ∧ (modPort s n f).ridges = s.ridges ∧
    (modPort s n f).pins = s.pins ∧ (modPort s n f).dps = s.dps ∧ (modPort s n f).ports = vmod s.ports n f ∧
    (modPort s n f).store = s.store ∧ (modPort s n f).tickets = s.tickets ∧ (modPort s n f).lastTicket = s.lastTicket ∧
    (modPort s n f).convPtr = s.convPtr ∧ (modPort s n f).timuPtr = s.timuPtr ∧ (modPort s n f).queues = s.queues ∧
    (modPort s n f).lastQueue = s.lastQueue ∧ (modPort s n f).sites = s.sites ∧ (modPort s n f).cal = s.cal ∧
    (modPort s n f).sensors = s.sensors ∧ (modPort s n f).smons = s.smons ∧ (modPort s n f).pmons = s.pmons ∧
    (modPort s n f).owl = s.owl ∧ (modPort s n f).events = s.events ∧ (modPort s n f).bear = s.bear ∧
    (modPort s n f).cols = s.cols ∧ (modPort s n f).ring = s.ring ∧ (modPort s n f).cairn = s.cairn ∧
    (modPort s n f).csps = s.csps ∧ (modPort s n f).xip = s.xip ∧ (modPort s n f).pending = s.pending :=
  ⟨rfl, rfl, rfl, rfl, rfl, rfl, rfl, rfl, rfl, rfl, rfl, rfl, rfl, rfl, rfl, rfl, rfl, rfl, rfl, rfl, rfl, rfl, rfl, rfl, rfl, rfl, rfl, rfl, rfl, rfl, rfl, rfl, rfl, rfl, rfl, rfl, rfl⟩

@[simp] theorem modSq_fields (s : State) (q : Fin 64) (f : Sq → Sq) :
    (modSq s q f).now = s.now ∧ (modSq s q f).ticks = s.ticks ∧ (modSq s q f).free = s.free ∧ (modSq s q f).host = s.host ∧
    (modSq s q f).params = s.params ∧ (modSq s q f).boot = s.boot ∧ (modSq s q f).flash = s.flash ∧
    (modSq s q f).working = s.working ∧ (modSq s q f).link = s.link ∧ (modSq s q f).sq = vmod s.sq q f ∧
    (modSq s q f).cq = s.cq ∧ (modSq s q f).msix = s.msix ∧ (modSq s q f).ridges = s.ridges ∧ (modSq s q f).pins = s.pins ∧
    (modSq s q f).dps = s.dps ∧ (modSq s q f).ports = s.ports ∧ (modSq s q f).store = s.store ∧
    (modSq s q f).tickets = s.tickets ∧ (modSq s q f).lastTicket = s.lastTicket ∧ (modSq s q f).convPtr = s.convPtr ∧
    (modSq s q f).timuPtr = s.timuPtr ∧ (modSq s q f).queues = s.queues ∧ (modSq s q f).lastQueue = s.lastQueue ∧
    (modSq s q f).sites = s.sites ∧ (modSq s q f).cal = s.cal ∧ (modSq s q f).sensors = s.sensors ∧
    (modSq s q f).smons = s.smons ∧ (modSq s q f).pmons = s.pmons ∧ (modSq s q f).owl = s.owl ∧
    (modSq s q f).events = s.events ∧ (modSq s q f).bear = s.bear ∧ (modSq s q f).cols = s.cols ∧ (modSq s q f).ring = s.ring ∧
    (modSq s q f).cairn = s.cairn ∧ (modSq s q f).csps = s.csps ∧ (modSq s q f).xip = s.xip ∧ (modSq s q f).pending = s.pending :=
  ⟨rfl, rfl, rfl, rfl, rfl, rfl, rfl, rfl, rfl, rfl, rfl, rfl, rfl, rfl, rfl, rfl, rfl, rfl, rfl, rfl, rfl, rfl, rfl, rfl, rfl, rfl, rfl, rfl, rfl, rfl, rfl, rfl, rfl, rfl, rfl, rfl, rfl⟩

@[simp] theorem modCq_fields (s : State) (c : Fin 64) (f : Cq → Cq) :
    (modCq s c f).now = s.now ∧ (modCq s c f).ticks = s.ticks ∧ (modCq s c f).free = s.free ∧ (modCq s c f).host = s.host ∧
    (modCq s c f).params = s.params ∧ (modCq s c f).boot = s.boot ∧ (modCq s c f).flash = s.flash ∧
    (modCq s c f).working = s.working ∧ (modCq s c f).link = s.link ∧ (modCq s c f).sq = s.sq ∧
    (modCq s c f).cq = vmod s.cq c f ∧ (modCq s c f).msix = s.msix ∧ (modCq s c f).ridges = s.ridges ∧
    (modCq s c f).pins = s.pins ∧ (modCq s c f).dps = s.dps ∧ (modCq s c f).ports = s.ports ∧ (modCq s c f).store = s.store ∧
    (modCq s c f).tickets = s.tickets ∧ (modCq s c f).lastTicket = s.lastTicket ∧ (modCq s c f).convPtr = s.convPtr ∧
    (modCq s c f).timuPtr = s.timuPtr ∧ (modCq s c f).queues = s.queues ∧ (modCq s c f).lastQueue = s.lastQueue ∧
    (modCq s c f).sites = s.sites ∧ (modCq s c f).cal = s.cal ∧ (modCq s c f).sensors = s.sensors ∧
    (modCq s c f).smons = s.smons ∧ (modCq s c f).pmons = s.pmons ∧ (modCq s c f).owl = s.owl ∧
    (modCq s c f).events = s.events ∧ (modCq s c f).bear = s.bear ∧ (modCq s c f).cols = s.cols ∧ (modCq s c f).ring = s.ring ∧
    (modCq s c f).cairn = s.cairn ∧ (modCq s c f).csps = s.csps ∧ (modCq s c f).xip = s.xip ∧ (modCq s c f).pending = s.pending :=
  ⟨rfl, rfl, rfl, rfl, rfl, rfl, rfl, rfl, rfl, rfl, rfl, rfl, rfl, rfl, rfl, rfl, rfl, rfl, rfl, rfl, rfl, rfl, rfl, rfl, rfl, rfl, rfl, rfl, rfl, rfl, rfl, rfl, rfl, rfl, rfl, rfl, rfl⟩

@[simp] theorem modQ_fields (s : State) (id : Nat) (f : Queue → Queue) :
    (modQ s id f).now = s.now ∧ (modQ s id f).ticks = s.ticks ∧ (modQ s id f).free = s.free ∧ (modQ s id f).host = s.host ∧
    (modQ s id f).params = s.params ∧ (modQ s id f).boot = s.boot ∧ (modQ s id f).flash = s.flash ∧
    (modQ s id f).working = s.working ∧ (modQ s id f).link = s.link ∧ (modQ s id f).sq = s.sq ∧ (modQ s id f).cq = s.cq ∧
    (modQ s id f).msix = s.msix ∧ (modQ s id f).ridges = s.ridges ∧ (modQ s id f).pins = s.pins ∧ (modQ s id f).dps = s.dps ∧
    (modQ s id f).ports = s.ports ∧ (modQ s id f).store = s.store ∧ (modQ s id f).tickets = s.tickets ∧
    (modQ s id f).lastTicket = s.lastTicket ∧ (modQ s id f).convPtr = s.convPtr ∧ (modQ s id f).timuPtr = s.timuPtr ∧
    (modQ s id f).queues = sput qDflt s.queues id (f (getQ s id)).shrink ∧ (modQ s id f).lastQueue = s.lastQueue ∧
    (modQ s id f).sites = s.sites ∧ (modQ s id f).cal = s.cal ∧ (modQ s id f).sensors = s.sensors ∧
    (modQ s id f).smons = s.smons ∧ (modQ s id f).pmons = s.pmons ∧ (modQ s id f).owl = s.owl ∧
    (modQ s id f).events = s.events ∧ (modQ s id f).bear = s.bear ∧ (modQ s id f).cols = s.cols ∧ (modQ s id f).ring = s.ring ∧
    (modQ s id f).cairn = s.cairn ∧ (modQ s id f).csps = s.csps ∧ (modQ s id f).xip = s.xip ∧ (modQ s id f).pending = s.pending :=
  ⟨rfl, rfl, rfl, rfl, rfl, rfl, rfl, rfl, rfl, rfl, rfl, rfl, rfl, rfl, rfl, rfl, rfl, rfl, rfl, rfl, rfl, rfl, rfl, rfl, rfl, rfl, rfl, rfl, rfl, rfl, rfl, rfl, rfl, rfl, rfl, rfl, rfl⟩

@[simp] theorem modCol_fields (s : State) (c : Nat) (f : Col → Col) :
    (modCol s c f).now = s.now ∧ (modCol s c f).ticks = s.ticks ∧ (modCol s c f).free = s.free ∧ (modCol s c f).host = s.host ∧
    (modCol s c f).params = s.params ∧ (modCol s c f).boot = s.boot ∧ (modCol s c f).flash = s.flash ∧
    (modCol s c f).working = s.working ∧ (modCol s c f).link = s.link ∧ (modCol s c f).sq = s.sq ∧ (modCol s c f).cq = s.cq ∧
    (modCol s c f).msix = s.msix ∧ (modCol s c f).ridges = s.ridges ∧ (modCol s c f).pins = s.pins ∧
    (modCol s c f).dps = s.dps ∧ (modCol s c f).ports = s.ports ∧ (modCol s c f).store = s.store ∧
    (modCol s c f).tickets = s.tickets ∧ (modCol s c f).lastTicket = s.lastTicket ∧ (modCol s c f).convPtr = s.convPtr ∧
    (modCol s c f).timuPtr = s.timuPtr ∧ (modCol s c f).queues = s.queues ∧ (modCol s c f).lastQueue = s.lastQueue ∧
    (modCol s c f).sites = s.sites ∧ (modCol s c f).cal = s.cal ∧ (modCol s c f).sensors = s.sensors ∧
    (modCol s c f).smons = s.smons ∧ (modCol s c f).pmons = s.pmons ∧ (modCol s c f).owl = s.owl ∧
    (modCol s c f).events = s.events ∧ (modCol s c f).bear = s.bear ∧
    (modCol s c f).cols = sput colDflt s.cols c (f (sget colDflt s.cols c)) ∧ (modCol s c f).ring = s.ring ∧
    (modCol s c f).cairn = s.cairn ∧ (modCol s c f).csps = s.csps ∧ (modCol s c f).xip = s.xip ∧
    (modCol s c f).pending = s.pending :=
  ⟨rfl, rfl, rfl, rfl, rfl, rfl, rfl, rfl, rfl, rfl, rfl, rfl, rfl, rfl, rfl, rfl, rfl, rfl, rfl, rfl, rfl, rfl, rfl, rfl, rfl, rfl, rfl, rfl, rfl, rfl, rfl, rfl, rfl, rfl, rfl, rfl, rfl⟩

@[simp] theorem modBoot_fields (s : State) (f : Boot → Boot) :
    (modBoot s f).now = s.now ∧ (modBoot s f).ticks = s.ticks ∧ (modBoot s f).free = s.free ∧ (modBoot s f).host = s.host ∧
    (modBoot s f).params = s.params ∧ (modBoot s f).boot = f s.boot ∧ (modBoot s f).flash = s.flash ∧
    (modBoot s f).working = s.working ∧ (modBoot s f).link = s.link ∧ (modBoot s f).sq = s.sq ∧ (modBoot s f).cq = s.cq ∧
    (modBoot s f).msix = s.msix ∧ (modBoot s f).ridges = s.ridges ∧ (modBoot s f).pins = s.pins ∧ (modBoot s f).dps = s.dps ∧
    (modBoot s f).ports = s.ports ∧ (modBoot s f).store = s.store ∧ (modBoot s f).tickets = s.tickets ∧
    (modBoot s f).lastTicket = s.lastTicket ∧ (modBoot s f).convPtr = s.convPtr ∧ (modBoot s f).timuPtr = s.timuPtr ∧
    (modBoot s f).queues = s.queues ∧ (modBoot s f).lastQueue = s.lastQueue ∧ (modBoot s f).sites = s.sites ∧
    (modBoot s f).cal = s.cal ∧ (modBoot s f).sensors = s.sensors ∧ (modBoot s f).smons = s.smons ∧
    (modBoot s f).pmons = s.pmons ∧ (modBoot s f).owl = s.owl ∧ (modBoot s f).events = s.events ∧ (modBoot s f).bear = s.bear ∧
    (modBoot s f).cols = s.cols ∧ (modBoot s f).ring = s.ring ∧ (modBoot s f).cairn = s.cairn ∧ (modBoot s f).csps = s.csps ∧
    (modBoot s f).xip = s.xip ∧ (modBoot s f).pending = s.pending :=
  ⟨rfl, rfl, rfl, rfl, rfl, rfl, rfl, rfl, rfl, rfl, rfl, rfl, rfl, rfl, rfl, rfl, rfl, rfl, rfl, rfl, rfl, rfl, rfl, rfl, rfl, rfl, rfl, rfl, rfl, rfl, rfl, rfl, rfl, rfl, rfl, rfl, rfl⟩

@[simp] theorem modOwl_fields (s : State) (f : Owl → Owl) :
    (modOwl s f).now = s.now ∧ (modOwl s f).ticks = s.ticks ∧ (modOwl s f).free = s.free ∧ (modOwl s f).host = s.host ∧
    (modOwl s f).params = s.params ∧ (modOwl s f).boot = s.boot ∧ (modOwl s f).flash = s.flash ∧
    (modOwl s f).working = s.working ∧ (modOwl s f).link = s.link ∧ (modOwl s f).sq = s.sq ∧ (modOwl s f).cq = s.cq ∧
    (modOwl s f).msix = s.msix ∧ (modOwl s f).ridges = s.ridges ∧ (modOwl s f).pins = s.pins ∧ (modOwl s f).dps = s.dps ∧
    (modOwl s f).ports = s.ports ∧ (modOwl s f).store = s.store ∧ (modOwl s f).tickets = s.tickets ∧
    (modOwl s f).lastTicket = s.lastTicket ∧ (modOwl s f).convPtr = s.convPtr ∧ (modOwl s f).timuPtr = s.timuPtr ∧
    (modOwl s f).queues = s.queues ∧ (modOwl s f).lastQueue = s.lastQueue ∧ (modOwl s f).sites = s.sites ∧
    (modOwl s f).cal = s.cal ∧ (modOwl s f).sensors = s.sensors ∧ (modOwl s f).smons = s.smons ∧ (modOwl s f).pmons = s.pmons ∧
    (modOwl s f).owl = f s.owl ∧ (modOwl s f).events = s.events ∧ (modOwl s f).bear = s.bear ∧ (modOwl s f).cols = s.cols ∧
    (modOwl s f).ring = s.ring ∧ (modOwl s f).cairn = s.cairn ∧ (modOwl s f).csps = s.csps ∧ (modOwl s f).xip = s.xip ∧
    (modOwl s f).pending = s.pending :=
  ⟨rfl, rfl, rfl, rfl, rfl, rfl, rfl, rfl, rfl, rfl, rfl, rfl, rfl, rfl, rfl, rfl, rfl, rfl, rfl, rfl, rfl, rfl, rfl, rfl, rfl, rfl, rfl, rfl, rfl, rfl, rfl, rfl, rfl, rfl, rfl, rfl, rfl⟩

@[simp] theorem modSensor_fields (s : State) (k : Fin 24) (f : Sensor → Sensor) :
    (modSensor s k f).now = s.now ∧ (modSensor s k f).ticks = s.ticks ∧ (modSensor s k f).free = s.free ∧
    (modSensor s k f).host = s.host ∧ (modSensor s k f).params = s.params ∧ (modSensor s k f).boot = s.boot ∧
    (modSensor s k f).flash = s.flash ∧ (modSensor s k f).working = s.working ∧ (modSensor s k f).link = s.link ∧
    (modSensor s k f).sq = s.sq ∧ (modSensor s k f).cq = s.cq ∧ (modSensor s k f).msix = s.msix ∧
    (modSensor s k f).ridges = s.ridges ∧ (modSensor s k f).pins = s.pins ∧ (modSensor s k f).dps = s.dps ∧
    (modSensor s k f).ports = s.ports ∧ (modSensor s k f).store = s.store ∧ (modSensor s k f).tickets = s.tickets ∧
    (modSensor s k f).lastTicket = s.lastTicket ∧ (modSensor s k f).convPtr = s.convPtr ∧
    (modSensor s k f).timuPtr = s.timuPtr ∧ (modSensor s k f).queues = s.queues ∧ (modSensor s k f).lastQueue = s.lastQueue ∧
    (modSensor s k f).sites = s.sites ∧ (modSensor s k f).cal = s.cal ∧ (modSensor s k f).sensors = vmod s.sensors k f ∧
    (modSensor s k f).smons = s.smons ∧ (modSensor s k f).pmons = s.pmons ∧ (modSensor s k f).owl = s.owl ∧
    (modSensor s k f).events = s.events ∧ (modSensor s k f).bear = s.bear ∧ (modSensor s k f).cols = s.cols ∧
    (modSensor s k f).ring = s.ring ∧ (modSensor s k f).cairn = s.cairn ∧ (modSensor s k f).csps = s.csps ∧
    (modSensor s k f).xip = s.xip ∧ (modSensor s k f).pending = s.pending :=
  ⟨rfl, rfl, rfl, rfl, rfl, rfl, rfl, rfl, rfl, rfl, rfl, rfl, rfl, rfl, rfl, rfl, rfl, rfl, rfl, rfl, rfl, rfl, rfl, rfl, rfl, rfl, rfl, rfl, rfl, rfl, rfl, rfl, rfl, rfl, rfl, rfl, rfl⟩

@[simp] theorem modSmon_fields (s : State) (m : Fin 12) (f : Smon → Smon) :
    (modSmon s m f).now = s.now ∧ (modSmon s m f).ticks = s.ticks ∧ (modSmon s m f).free = s.free ∧
    (modSmon s m f).host = s.host ∧ (modSmon s m f).params = s.params ∧ (modSmon s m f).boot = s.boot ∧
    (modSmon s m f).flash = s.flash ∧ (modSmon s m f).working = s.working ∧ (modSmon s m f).link = s.link ∧
    (modSmon s m f).sq = s.sq ∧ (modSmon s m f).cq = s.cq ∧ (modSmon s m f).msix = s.msix ∧ (modSmon s m f).ridges = s.ridges ∧
    (modSmon s m f).pins = s.pins ∧ (modSmon s m f).dps = s.dps ∧ (modSmon s m f).ports = s.ports ∧
    (modSmon s m f).store = s.store ∧ (modSmon s m f).tickets = s.tickets ∧ (modSmon s m f).lastTicket = s.lastTicket ∧
    (modSmon s m f).convPtr = s.convPtr ∧ (modSmon s m f).timuPtr = s.timuPtr ∧ (modSmon s m f).queues = s.queues ∧
    (modSmon s m f).lastQueue = s.lastQueue ∧ (modSmon s m f).sites = s.sites ∧ (modSmon s m f).cal = s.cal ∧
    (modSmon s m f).sensors = s.sensors ∧ (modSmon s m f).smons = vmod s.smons m f ∧ (modSmon s m f).pmons = s.pmons ∧
    (modSmon s m f).owl = s.owl ∧ (modSmon s m f).events = s.events ∧ (modSmon s m f).bear = s.bear ∧
    (modSmon s m f).cols = s.cols ∧ (modSmon s m f).ring = s.ring ∧ (modSmon s m f).cairn = s.cairn ∧
    (modSmon s m f).csps = s.csps ∧ (modSmon s m f).xip = s.xip ∧ (modSmon s m f).pending = s.pending :=
  ⟨rfl, rfl, rfl, rfl, rfl, rfl, rfl, rfl, rfl, rfl, rfl, rfl, rfl, rfl, rfl, rfl, rfl, rfl, rfl, rfl, rfl, rfl, rfl, rfl, rfl, rfl, rfl, rfl, rfl, rfl, rfl, rfl, rfl, rfl, rfl, rfl, rfl⟩

@[simp] theorem modRing_fields (s : State) (f : Ring → Ring) :
    (modRing s f).now = s.now ∧ (modRing s f).ticks = s.ticks ∧ (modRing s f).free = s.free ∧ (modRing s f).host = s.host ∧
    (modRing s f).params = s.params ∧ (modRing s f).boot = s.boot ∧ (modRing s f).flash = s.flash ∧
    (modRing s f).working = s.working ∧ (modRing s f).link = s.link ∧ (modRing s f).sq = s.sq ∧ (modRing s f).cq = s.cq ∧
    (modRing s f).msix = s.msix ∧ (modRing s f).ridges = s.ridges ∧ (modRing s f).pins = s.pins ∧ (modRing s f).dps = s.dps ∧
    (modRing s f).ports = s.ports ∧ (modRing s f).store = s.store ∧ (modRing s f).tickets = s.tickets ∧
    (modRing s f).lastTicket = s.lastTicket ∧ (modRing s f).convPtr = s.convPtr ∧ (modRing s f).timuPtr = s.timuPtr ∧
    (modRing s f).queues = s.queues ∧ (modRing s f).lastQueue = s.lastQueue ∧ (modRing s f).sites = s.sites ∧
    (modRing s f).cal = s.cal ∧ (modRing s f).sensors = s.sensors ∧ (modRing s f).smons = s.smons ∧
    (modRing s f).pmons = s.pmons ∧ (modRing s f).owl = s.owl ∧ (modRing s f).events = s.events ∧ (modRing s f).bear = s.bear ∧
    (modRing s f).cols = s.cols ∧ (modRing s f).ring = f s.ring ∧ (modRing s f).cairn = s.cairn ∧ (modRing s f).csps = s.csps ∧
    (modRing s f).xip = s.xip ∧ (modRing s f).pending = s.pending :=
  ⟨rfl, rfl, rfl, rfl, rfl, rfl, rfl, rfl, rfl, rfl, rfl, rfl, rfl, rfl, rfl, rfl, rfl, rfl, rfl, rfl, rfl, rfl, rfl, rfl, rfl, rfl, rfl, rfl, rfl, rfl, rfl, rfl, rfl, rfl, rfl, rfl, rfl⟩

@[simp] theorem modCairn_fields (s : State) (f : Cairn → Cairn) :
    (modCairn s f).now = s.now ∧ (modCairn s f).ticks = s.ticks ∧ (modCairn s f).free = s.free ∧ (modCairn s f).host = s.host ∧
    (modCairn s f).params = s.params ∧ (modCairn s f).boot = s.boot ∧ (modCairn s f).flash = s.flash ∧
    (modCairn s f).working = s.working ∧ (modCairn s f).link = s.link ∧ (modCairn s f).sq = s.sq ∧ (modCairn s f).cq = s.cq ∧
    (modCairn s f).msix = s.msix ∧ (modCairn s f).ridges = s.ridges ∧ (modCairn s f).pins = s.pins ∧
    (modCairn s f).dps = s.dps ∧ (modCairn s f).ports = s.ports ∧ (modCairn s f).store = s.store ∧
    (modCairn s f).tickets = s.tickets ∧ (modCairn s f).lastTicket = s.lastTicket ∧ (modCairn s f).convPtr = s.convPtr ∧
    (modCairn s f).timuPtr = s.timuPtr ∧ (modCairn s f).queues = s.queues ∧ (modCairn s f).lastQueue = s.lastQueue ∧
    (modCairn s f).sites = s.sites ∧ (modCairn s f).cal = s.cal ∧ (modCairn s f).sensors = s.sensors ∧
    (modCairn s f).smons = s.smons ∧ (modCairn s f).pmons = s.pmons ∧ (modCairn s f).owl = s.owl ∧
    (modCairn s f).events = s.events ∧ (modCairn s f).bear = s.bear ∧ (modCairn s f).cols = s.cols ∧
    (modCairn s f).ring = s.ring ∧ (modCairn s f).cairn = f s.cairn ∧ (modCairn s f).csps = s.csps ∧
    (modCairn s f).xip = s.xip ∧ (modCairn s f).pending = s.pending :=
  ⟨rfl, rfl, rfl, rfl, rfl, rfl, rfl, rfl, rfl, rfl, rfl, rfl, rfl, rfl, rfl, rfl, rfl, rfl, rfl, rfl, rfl, rfl, rfl, rfl, rfl, rfl, rfl, rfl, rfl, rfl, rfl, rfl, rfl, rfl, rfl, rfl, rfl⟩

@[simp] theorem modCsp_fields (s : State) (n : Fin 2) (f : Csp → Csp) :
    (modCsp s n f).now = s.now ∧ (modCsp s n f).ticks = s.ticks ∧ (modCsp s n f).free = s.free ∧ (modCsp s n f).host = s.host ∧
    (modCsp s n f).params = s.params ∧ (modCsp s n f).boot = s.boot ∧ (modCsp s n f).flash = s.flash ∧
    (modCsp s n f).working = s.working ∧ (modCsp s n f).link = s.link ∧ (modCsp s n f).sq = s.sq ∧ (modCsp s n f).cq = s.cq ∧
    (modCsp s n f).msix = s.msix ∧ (modCsp s n f).ridges = s.ridges ∧ (modCsp s n f).pins = s.pins ∧
    (modCsp s n f).dps = s.dps ∧ (modCsp s n f).ports = s.ports ∧ (modCsp s n f).store = s.store ∧
    (modCsp s n f).tickets = s.tickets ∧ (modCsp s n f).lastTicket = s.lastTicket ∧ (modCsp s n f).convPtr = s.convPtr ∧
    (modCsp s n f).timuPtr = s.timuPtr ∧ (modCsp s n f).queues = s.queues ∧ (modCsp s n f).lastQueue = s.lastQueue ∧
    (modCsp s n f).sites = s.sites ∧ (modCsp s n f).cal = s.cal ∧ (modCsp s n f).sensors = s.sensors ∧
    (modCsp s n f).smons = s.smons ∧ (modCsp s n f).pmons = s.pmons ∧ (modCsp s n f).owl = s.owl ∧
    (modCsp s n f).events = s.events ∧ (modCsp s n f).bear = s.bear ∧ (modCsp s n f).cols = s.cols ∧
    (modCsp s n f).ring = s.ring ∧ (modCsp s n f).cairn = s.cairn ∧ (modCsp s n f).csps = vmod s.csps n f ∧
    (modCsp s n f).xip = s.xip ∧ (modCsp s n f).pending = s.pending :=
  ⟨rfl, rfl, rfl, rfl, rfl, rfl, rfl, rfl, rfl, rfl, rfl, rfl, rfl, rfl, rfl, rfl, rfl, rfl, rfl, rfl, rfl, rfl, rfl, rfl, rfl, rfl, rfl, rfl, rfl, rfl, rfl, rfl, rfl, rfl, rfl, rfl, rfl⟩

@[simp] theorem tickFree_fields (s : State) :
    (tickFree s).now = s.now ∧ (tickFree s).ticks = s.ticks ∧ (tickFree s).free = s.free + 1 ∧ (tickFree s).host = s.host ∧
    (tickFree s).params = s.params ∧ (tickFree s).boot = s.boot ∧ (tickFree s).flash = s.flash ∧
    (tickFree s).working = s.working ∧ (tickFree s).link = s.link ∧ (tickFree s).sq = s.sq ∧ (tickFree s).cq = s.cq ∧
    (tickFree s).msix = s.msix ∧ (tickFree s).ridges = s.ridges ∧ (tickFree s).pins = s.pins ∧ (tickFree s).dps = s.dps ∧
    (tickFree s).ports = s.ports ∧ (tickFree s).store = s.store ∧ (tickFree s).tickets = s.tickets ∧
    (tickFree s).lastTicket = s.lastTicket ∧ (tickFree s).convPtr = s.convPtr ∧ (tickFree s).timuPtr = s.timuPtr ∧
    (tickFree s).queues = s.queues ∧ (tickFree s).lastQueue = s.lastQueue ∧ (tickFree s).sites = s.sites ∧
    (tickFree s).cal = s.cal ∧ (tickFree s).sensors = s.sensors ∧ (tickFree s).smons = s.smons ∧ (tickFree s).pmons = s.pmons ∧
    (tickFree s).owl = s.owl ∧ (tickFree s).events = s.events ∧ (tickFree s).bear = s.bear ∧ (tickFree s).cols = s.cols ∧
    (tickFree s).ring = s.ring ∧ (tickFree s).cairn = s.cairn ∧ (tickFree s).csps = s.csps ∧ (tickFree s).xip = s.xip ∧
    (tickFree s).pending = s.pending :=
  ⟨rfl, rfl, rfl, rfl, rfl, rfl, rfl, rfl, rfl, rfl, rfl, rfl, rfl, rfl, rfl, rfl, rfl, rfl, rfl, rfl, rfl, rfl, rfl, rfl, rfl, rfl, rfl, rfl, rfl, rfl, rfl, rfl, rfl, rfl, rfl, rfl, rfl⟩

@[simp] theorem putWord_fields (s : State) (i v : Nat) :
    (putWord s i v).now = s.now ∧ (putWord s i v).ticks = s.ticks ∧ (putWord s i v).free = s.free ∧
    (putWord s i v).host = s.host ∧ (putWord s i v).params = sput resetWord s.params i (BitVec.ofNat 32 v) ∧
    (putWord s i v).boot = s.boot ∧ (putWord s i v).flash = s.flash ∧ (putWord s i v).working = s.working ∧
    (putWord s i v).link = s.link ∧ (putWord s i v).sq = s.sq ∧ (putWord s i v).cq = s.cq ∧ (putWord s i v).msix = s.msix ∧
    (putWord s i v).ridges = s.ridges ∧ (putWord s i v).pins = s.pins ∧ (putWord s i v).dps = s.dps ∧
    (putWord s i v).ports = s.ports ∧ (putWord s i v).store = s.store ∧ (putWord s i v).tickets = s.tickets ∧
    (putWord s i v).lastTicket = s.lastTicket ∧ (putWord s i v).convPtr = s.convPtr ∧ (putWord s i v).timuPtr = s.timuPtr ∧
    (putWord s i v).queues = s.queues ∧ (putWord s i v).lastQueue = s.lastQueue ∧ (putWord s i v).sites = s.sites ∧
    (putWord s i v).cal = s.cal ∧ (putWord s i v).sensors = s.sensors ∧ (putWord s i v).smons = s.smons ∧
    (putWord s i v).pmons = s.pmons ∧ (putWord s i v).owl = s.owl ∧ (putWord s i v).events = s.events ∧
    (putWord s i v).bear = s.bear ∧ (putWord s i v).cols = s.cols ∧ (putWord s i v).ring = s.ring ∧
    (putWord s i v).cairn = s.cairn ∧ (putWord s i v).csps = s.csps ∧ (putWord s i v).xip = s.xip ∧
    (putWord s i v).pending = s.pending :=
  ⟨rfl, rfl, rfl, rfl, rfl, rfl, rfl, rfl, rfl, rfl, rfl, rfl, rfl, rfl, rfl, rfl, rfl, rfl, rfl, rfl, rfl, rfl, rfl, rfl, rfl, rfl, rfl, rfl, rfl, rfl, rfl, rfl, rfl, rfl, rfl, rfl, rfl⟩

@[simp] theorem putImg_fields (s : State) (h : Handle) (i : Option Image) :
    (putImg s h i).now = s.now ∧ (putImg s h i).ticks = s.ticks ∧ (putImg s h i).free = s.free ∧ (putImg s h i).host = s.host ∧
    (putImg s h i).params = s.params ∧ (putImg s h i).boot = s.boot ∧ (putImg s h i).flash = s.flash ∧
    (putImg s h i).working = s.working ∧ (putImg s h i).link = s.link ∧ (putImg s h i).sq = s.sq ∧ (putImg s h i).cq = s.cq ∧
    (putImg s h i).msix = s.msix ∧ (putImg s h i).ridges = s.ridges ∧ (putImg s h i).pins = s.pins ∧
    (putImg s h i).dps = s.dps ∧ (putImg s h i).ports = s.ports ∧
    (putImg s h i).store = { s.store with images := sput imgDflt s.store.images h.toNat i } ∧
    (putImg s h i).tickets = s.tickets ∧ (putImg s h i).lastTicket = s.lastTicket ∧ (putImg s h i).convPtr = s.convPtr ∧
    (putImg s h i).timuPtr = s.timuPtr ∧ (putImg s h i).queues = s.queues ∧ (putImg s h i).lastQueue = s.lastQueue ∧
    (putImg s h i).sites = s.sites ∧ (putImg s h i).cal = s.cal ∧ (putImg s h i).sensors = s.sensors ∧
    (putImg s h i).smons = s.smons ∧ (putImg s h i).pmons = s.pmons ∧ (putImg s h i).owl = s.owl ∧
    (putImg s h i).events = s.events ∧ (putImg s h i).bear = s.bear ∧ (putImg s h i).cols = s.cols ∧
    (putImg s h i).ring = s.ring ∧ (putImg s h i).cairn = s.cairn ∧ (putImg s h i).csps = s.csps ∧ (putImg s h i).xip = s.xip ∧
    (putImg s h i).pending = s.pending :=
  ⟨rfl, rfl, rfl, rfl, rfl, rfl, rfl, rfl, rfl, rfl, rfl, rfl, rfl, rfl, rfl, rfl, rfl, rfl, rfl, rfl, rfl, rfl, rfl, rfl, rfl, rfl, rfl, rfl, rfl, rfl, rfl, rfl, rfl, rfl, rfl, rfl, rfl⟩

@[simp] theorem setTaken_fields (s : State) (q : Fin 64) (l : List Taken) :
    (setTaken s q l).now = s.now ∧ (setTaken s q l).ticks = s.ticks ∧ (setTaken s q l).free = s.free ∧
    (setTaken s q l).host = s.host ∧ (setTaken s q l).params = s.params ∧ (setTaken s q l).boot = s.boot ∧
    (setTaken s q l).flash = s.flash ∧ (setTaken s q l).working = s.working ∧ (setTaken s q l).link = s.link ∧
    (setTaken s q l).sq = (vmod s.sq q fun x => { x with taken := l }) ∧ (setTaken s q l).cq = s.cq ∧
    (setTaken s q l).msix = s.msix ∧ (setTaken s q l).ridges = s.ridges ∧ (setTaken s q l).pins = s.pins ∧
    (setTaken s q l).dps = s.dps ∧ (setTaken s q l).ports = s.ports ∧ (setTaken s q l).store = s.store ∧
    (setTaken s q l).tickets = s.tickets ∧ (setTaken s q l).lastTicket = s.lastTicket ∧ (setTaken s q l).convPtr = s.convPtr ∧
    (setTaken s q l).timuPtr = s.timuPtr ∧ (setTaken s q l).queues = s.queues ∧ (setTaken s q l).lastQueue = s.lastQueue ∧
    (setTaken s q l).sites = s.sites ∧ (setTaken s q l).cal = s.cal ∧ (setTaken s q l).sensors = s.sensors ∧
    (setTaken s q l).smons = s.smons ∧ (setTaken s q l).pmons = s.pmons ∧ (setTaken s q l).owl = s.owl ∧
    (setTaken s q l).events = s.events ∧ (setTaken s q l).bear = s.bear ∧ (setTaken s q l).cols = s.cols ∧
    (setTaken s q l).ring = s.ring ∧ (setTaken s q l).cairn = s.cairn ∧ (setTaken s q l).csps = s.csps ∧
    (setTaken s q l).xip = s.xip ∧ (setTaken s q l).pending = s.pending :=
  ⟨rfl, rfl, rfl, rfl, rfl, rfl, rfl, rfl, rfl, rfl, rfl, rfl, rfl, rfl, rfl, rfl, rfl, rfl, rfl, rfl, rfl, rfl, rfl, rfl, rfl, rfl, rfl, rfl, rfl, rfl, rfl, rfl, rfl, rfl, rfl, rfl, rfl⟩

@[simp] theorem modStream_fields (s : State) (r : RidgeId) (f : Stream → Stream) :
    (modStream s r f).now = s.now ∧ (modStream s r f).ticks = s.ticks ∧ (modStream s r f).free = s.free ∧
    (modStream s r f).host = s.host ∧ (modStream s r f).params = s.params ∧ (modStream s r f).boot = s.boot ∧
    (modStream s r f).flash = s.flash ∧ (modStream s r f).working = s.working ∧ (modStream s r f).link = s.link ∧
    (modStream s r f).sq = s.sq ∧ (modStream s r f).cq = s.cq ∧ (modStream s r f).msix = s.msix ∧
    (modStream s r f).ridges = (vmod s.ridges r fun x => { x with stream := x.stream.map f }) ∧
    (modStream s r f).pins = s.pins ∧ (modStream s r f).dps = s.dps ∧ (modStream s r f).ports = s.ports ∧
    (modStream s r f).store = s.store ∧ (modStream s r f).tickets = s.tickets ∧ (modStream s r f).lastTicket = s.lastTicket ∧
    (modStream s r f).convPtr = s.convPtr ∧ (modStream s r f).timuPtr = s.timuPtr ∧ (modStream s r f).queues = s.queues ∧
    (modStream s r f).lastQueue = s.lastQueue ∧ (modStream s r f).sites = s.sites ∧ (modStream s r f).cal = s.cal ∧
    (modStream s r f).sensors = s.sensors ∧ (modStream s r f).smons = s.smons ∧ (modStream s r f).pmons = s.pmons ∧
    (modStream s r f).owl = s.owl ∧ (modStream s r f).events = s.events ∧ (modStream s r f).bear = s.bear ∧
    (modStream s r f).cols = s.cols ∧ (modStream s r f).ring = s.ring ∧ (modStream s r f).cairn = s.cairn ∧
    (modStream s r f).csps = s.csps ∧ (modStream s r f).xip = s.xip ∧ (modStream s r f).pending = s.pending :=
  ⟨rfl, rfl, rfl, rfl, rfl, rfl, rfl, rfl, rfl, rfl, rfl, rfl, rfl, rfl, rfl, rfl, rfl, rfl, rfl, rfl, rfl, rfl, rfl, rfl, rfl, rfl, rfl, rfl, rfl, rfl, rfl, rfl, rfl, rfl, rfl, rfl, rfl⟩

@[simp] theorem modAcq_fields (s : State) (n : RidgeId) (f : Acq → Acq) :
    (modAcq s n f).now = s.now ∧ (modAcq s n f).ticks = s.ticks ∧ (modAcq s n f).free = s.free ∧ (modAcq s n f).host = s.host ∧
    (modAcq s n f).params = s.params ∧ (modAcq s n f).boot = s.boot ∧ (modAcq s n f).flash = s.flash ∧
    (modAcq s n f).working = s.working ∧ (modAcq s n f).link = s.link ∧ (modAcq s n f).sq = s.sq ∧ (modAcq s n f).cq = s.cq ∧
    (modAcq s n f).msix = s.msix ∧ (modAcq s n f).ridges = s.ridges ∧ (modAcq s n f).pins = s.pins ∧
    (modAcq s n f).dps = s.dps ∧ (modAcq s n f).ports = (vmod s.ports n fun p => { p with acq := p.acq.map f }) ∧
    (modAcq s n f).store = s.store ∧ (modAcq s n f).tickets = s.tickets ∧ (modAcq s n f).lastTicket = s.lastTicket ∧
    (modAcq s n f).convPtr = s.convPtr ∧ (modAcq s n f).timuPtr = s.timuPtr ∧ (modAcq s n f).queues = s.queues ∧
    (modAcq s n f).lastQueue = s.lastQueue ∧ (modAcq s n f).sites = s.sites ∧ (modAcq s n f).cal = s.cal ∧
    (modAcq s n f).sensors = s.sensors ∧ (modAcq s n f).smons = s.smons ∧ (modAcq s n f).pmons = s.pmons ∧
    (modAcq s n f).owl = s.owl ∧ (modAcq s n f).events = s.events ∧ (modAcq s n f).bear = s.bear ∧
    (modAcq s n f).cols = s.cols ∧ (modAcq s n f).ring = s.ring ∧ (modAcq s n f).cairn = s.cairn ∧
    (modAcq s n f).csps = s.csps ∧ (modAcq s n f).xip = s.xip ∧ (modAcq s n f).pending = s.pending :=
  ⟨rfl, rfl, rfl, rfl, rfl, rfl, rfl, rfl, rfl, rfl, rfl, rfl, rfl, rfl, rfl, rfl, rfl, rfl, rfl, rfl, rfl, rfl, rfl, rfl, rfl, rfl, rfl, rfl, rfl, rfl, rfl, rfl, rfl, rfl, rfl, rfl, rfl⟩

@[simp] theorem unreserve_fields (s : State) (c : Fin 64) :
    (unreserve s c).now = s.now ∧ (unreserve s c).ticks = s.ticks ∧ (unreserve s c).free = s.free ∧
    (unreserve s c).host = s.host ∧ (unreserve s c).params = s.params ∧ (unreserve s c).boot = s.boot ∧
    (unreserve s c).flash = s.flash ∧ (unreserve s c).working = s.working ∧ (unreserve s c).link = s.link ∧
    (unreserve s c).sq = s.sq ∧ (unreserve s c).cq = (vmod s.cq c fun x => { x with reserved := x.reserved - 1 }) ∧
    (unreserve s c).msix = s.msix ∧ (unreserve s c).ridges = s.ridges ∧ (unreserve s c).pins = s.pins ∧
    (unreserve s c).dps = s.dps ∧ (unreserve s c).ports = s.ports ∧ (unreserve s c).store = s.store ∧
    (unreserve s c).tickets = s.tickets ∧ (unreserve s c).lastTicket = s.lastTicket ∧ (unreserve s c).convPtr = s.convPtr ∧
    (unreserve s c).timuPtr = s.timuPtr ∧ (unreserve s c).queues = s.queues ∧ (unreserve s c).lastQueue = s.lastQueue ∧
    (unreserve s c).sites = s.sites ∧ (unreserve s c).cal = s.cal ∧ (unreserve s c).sensors = s.sensors ∧
    (unreserve s c).smons = s.smons ∧ (unreserve s c).pmons = s.pmons ∧ (unreserve s c).owl = s.owl ∧
    (unreserve s c).events = s.events ∧ (unreserve s c).bear = s.bear ∧ (unreserve s c).cols = s.cols ∧
    (unreserve s c).ring = s.ring ∧ (unreserve s c).cairn = s.cairn ∧ (unreserve s c).csps = s.csps ∧
    (unreserve s c).xip = s.xip ∧ (unreserve s c).pending = s.pending :=
  ⟨rfl, rfl, rfl, rfl, rfl, rfl, rfl, rfl, rfl, rfl, rfl, rfl, rfl, rfl, rfl, rfl, rfl, rfl, rfl, rfl, rfl, rfl, rfl, rfl, rfl, rfl, rfl, rfl, rfl, rfl, rfl, rfl, rfl, rfl, rfl, rfl, rfl⟩

@[simp] theorem putCal_fields (s : State) (cls unit item v : Nat) :
    (putCal s cls unit item v).now = s.now ∧ (putCal s cls unit item v).ticks = s.ticks ∧
    (putCal s cls unit item v).free = s.free ∧ (putCal s cls unit item v).host = s.host ∧
    (putCal s cls unit item v).params = s.params ∧ (putCal s cls unit item v).boot = s.boot ∧
    (putCal s cls unit item v).flash = s.flash ∧ (putCal s cls unit item v).working = s.working ∧
    (putCal s cls unit item v).link = s.link ∧ (putCal s cls unit item v).sq = s.sq ∧ (putCal s cls unit item v).cq = s.cq ∧
    (putCal s cls unit item v).msix = s.msix ∧ (putCal s cls unit item v).ridges = s.ridges ∧
    (putCal s cls unit item v).pins = s.pins ∧ (putCal s cls unit item v).dps = s.dps ∧
    (putCal s cls unit item v).ports = s.ports ∧ (putCal s cls unit item v).store = s.store ∧
    (putCal s cls unit item v).tickets = s.tickets ∧ (putCal s cls unit item v).lastTicket = s.lastTicket ∧
    (putCal s cls unit item v).convPtr = s.convPtr ∧ (putCal s cls unit item v).timuPtr = s.timuPtr ∧
    (putCal s cls unit item v).queues = s.queues ∧ (putCal s cls unit item v).lastQueue = s.lastQueue ∧
    (putCal s cls unit item v).sites = s.sites ∧
    (putCal s cls unit item v).cal = { s.cal with items := sput calDflt s.cal.items (calKey cls unit item) (BitVec.ofNat 32 v) } ∧
    (putCal s cls unit item v).sensors = s.sensors ∧ (putCal s cls unit item v).smons = s.smons ∧
    (putCal s cls unit item v).pmons = s.pmons ∧ (putCal s cls unit item v).owl = s.owl ∧
    (putCal s cls unit item v).events = s.events ∧ (putCal s cls unit item v).bear = s.bear ∧
    (putCal s cls unit item v).cols = s.cols ∧ (putCal s cls unit item v).ring = s.ring ∧
    (putCal s cls unit item v).cairn = s.cairn ∧ (putCal s cls unit item v).csps = s.csps ∧
    (putCal s cls unit item v).xip = s.xip ∧ (putCal s cls unit item v).pending = s.pending :=
  ⟨rfl, rfl, rfl, rfl, rfl, rfl, rfl, rfl, rfl, rfl, rfl, rfl, rfl, rfl, rfl, rfl, rfl, rfl, rfl, rfl, rfl, rfl, rfl, rfl, rfl, rfl, rfl, rfl, rfl, rfl, rfl, rfl, rfl, rfl, rfl, rfl, rfl⟩

/-! ### The standing conditions concern the pins and the supplies alone -/

@[simp] theorem settle_now (s : State) : (settle s).now = s.now := by unfold settle; rfl
@[simp] theorem settle_ticks (s : State) : (settle s).ticks = s.ticks := by unfold settle; rfl
@[simp] theorem settle_free (s : State) : (settle s).free = s.free := by unfold settle; rfl
@[simp] theorem settle_host (s : State) : (settle s).host = s.host := by unfold settle; rfl
@[simp] theorem settle_params (s : State) : (settle s).params = s.params := by unfold settle; rfl
@[simp] theorem settle_boot (s : State) : (settle s).boot = s.boot := by unfold settle; rfl
@[simp] theorem settle_flash (s : State) : (settle s).flash = s.flash := by unfold settle; rfl
@[simp] theorem settle_working (s : State) : (settle s).working = s.working := by unfold settle; rfl
@[simp] theorem settle_link (s : State) : (settle s).link = s.link := by unfold settle; rfl
@[simp] theorem settle_sq (s : State) : (settle s).sq = s.sq := by unfold settle; rfl
@[simp] theorem settle_cq (s : State) : (settle s).cq = s.cq := by unfold settle; rfl
@[simp] theorem settle_msix (s : State) : (settle s).msix = s.msix := by unfold settle; rfl
@[simp] theorem settle_ridges (s : State) : (settle s).ridges = s.ridges := by unfold settle; rfl
@[simp] theorem settle_ports (s : State) : (settle s).ports = s.ports := by unfold settle; rfl
@[simp] theorem settle_store (s : State) : (settle s).store = s.store := by unfold settle; rfl
@[simp] theorem settle_tickets (s : State) : (settle s).tickets = s.tickets := by unfold settle; rfl
@[simp] theorem settle_lastTicket (s : State) : (settle s).lastTicket = s.lastTicket := by unfold settle; rfl
@[simp] theorem settle_convPtr (s : State) : (settle s).convPtr = s.convPtr := by unfold settle; rfl
@[simp] theorem settle_timuPtr (s : State) : (settle s).timuPtr = s.timuPtr := by unfold settle; rfl
@[simp] theorem settle_queues (s : State) : (settle s).queues = s.queues := by unfold settle; rfl
@[simp] theorem settle_lastQueue (s : State) : (settle s).lastQueue = s.lastQueue := by unfold settle; rfl
@[simp] theorem settle_sites (s : State) : (settle s).sites = s.sites := by unfold settle; rfl
@[simp] theorem settle_cal (s : State) : (settle s).cal = s.cal := by unfold settle; rfl
@[simp] theorem settle_sensors (s : State) : (settle s).sensors = s.sensors := by unfold settle; rfl
@[simp] theorem settle_smons (s : State) : (settle s).smons = s.smons := by unfold settle; rfl
@[simp] theorem settle_pmons (s : State) : (settle s).pmons = s.pmons := by unfold settle; rfl
@[simp] theorem settle_owl (s : State) : (settle s).owl = s.owl := by unfold settle; rfl
@[simp] theorem settle_events (s : State) : (settle s).events = s.events := by unfold settle; rfl
@[simp] theorem settle_bear (s : State) : (settle s).bear = s.bear := by unfold settle; rfl
@[simp] theorem settle_cols (s : State) : (settle s).cols = s.cols := by unfold settle; rfl
@[simp] theorem settle_ring (s : State) : (settle s).ring = s.ring := by unfold settle; rfl
@[simp] theorem settle_cairn (s : State) : (settle s).cairn = s.cairn := by unfold settle; rfl
@[simp] theorem settle_csps (s : State) : (settle s).csps = s.csps := by unfold settle; rfl
@[simp] theorem settle_xip (s : State) : (settle s).xip = s.xip := by unfold settle; rfl
@[simp] theorem settle_pending (s : State) : (settle s).pending = s.pending := by unfold settle; rfl

end Sys2Proof.Machine
end

