-- ==== Sys2Proof/Laws/Settle.lean ====
section
/-! SUPPORT. The standing conditions that hold after every command: what they do to the pins and the supplies, and that the
state a command leaves is safe. -/

namespace Sys2Proof.Machine

/-- Every meaning answers the state that its effect leaves. -/
theorem done_eq (s u : State) : done s u = .next (after s u) := rfl

@[simp] theorem pinSafe_settle (s : State) (r : RidgeId) : pinSafe (settle s) r = pinSafe s r := by
  simp [pinSafe, booted, bearSafe, calRidges]

@[simp] theorem dpsForcedOff_settle (s : State) (n : RidgeId) : dpsForcedOff (settle s) n = dpsForcedOff s n := by
  simp [dpsForcedOff, booted, calRidges]

theorem settle_pin (s : State) (p : PinId) :
    (settle s).pins[p] = if pinSafe s (pinRidge p) then s.pins[p].toSafe (field s (pinW p 0) 1 0) s.now else s.pins[p] := by
  unfold settle; simp

theorem settle_supply (s : State) (n : RidgeId) :
    (settle s).dps[n] = if dpsForcedOff s n then s.dps[n].toOff true else s.dps[n] := by
  unfold settle; simp

/-- A comparator that has gone blind is not evaluated. -/
@[simp] theorem evaluated_blind (x : Pin) (now : T64) : (x.blind now).evaluated = false := by
  cases x with
  | mk drv edge last mode ch hist a b p c =>
    rcases hist with _ | ⟨⟨t, _ | z⟩, l⟩ <;> rfl

/-- A pin in the SAFE condition (Table 5-1). -/
theorem safe_toSafe (x : Pin) (m : Nat) (now : T64) :
    (x.toSafe m now).drv = .hiz ∧ (x.toSafe m now).mode = 0 ∧ (x.toSafe m now).pull = true ∧ (x.toSafe m now).evaluated = false :=
  ⟨rfl, rfl, rfl, evaluated_blind x now⟩

/-- The standing conditions hold once they have been brought about. -/
theorem safe_settle (s : State) : SafeState (settle s) := by
  constructor
  · intro p h
    rw [pinSafe_settle] at h
    rw [settle_pin, if_pos h]
    exact safe_toSafe ..
  · intro n h
    rw [dpsForcedOff_settle] at h
    rw [settle_supply, if_pos h]
    exact ⟨rfl, rfl⟩

/-- The waiting commands play no part in the standing conditions. -/
theorem safe_pending {s : State} (l : List Instr) (h : SafeState s) : SafeState { s with pending := l } := h

theorem safe_after (s u : State) : SafeState (after s u) := safe_pending _ (safe_settle u)

@[simp] theorem after_pending (s u : State) : (after s u).pending = s.pending := rfl

end Sys2Proof.Machine
end

