-- ==== Sys2Proof/Laws/Command.lean ====
section
/-! SUPPORT. What Badger does with a packet: taken, refused or run (R280, R286). -/

namespace Sys2Proof.Machine

@[simp] theorem ensureTaken_boot (s : State) (h : Hdr) (op : Nat) : (ensureTaken s h op).boot = s.boot := by
  unfold ensureTaken; (repeat' split) <;> rfl
@[simp] theorem ensureTaken_bear (s : State) (h : Hdr) (op : Nat) : (ensureTaken s h op).bear = s.bear := by
  unfold ensureTaken; (repeat' split) <;> rfl
@[simp] theorem ensureTaken_ring (s : State) (h : Hdr) (op : Nat) : (ensureTaken s h op).ring = s.ring := by
  unfold ensureTaken; (repeat' split) <;> rfl
@[simp] theorem ensureTaken_now (s : State) (h : Hdr) (op : Nat) : (ensureTaken s h op).now = s.now := by
  unfold ensureTaken; (repeat' split) <;> rfl
@[simp] theorem ensureTaken_link (s : State) (h : Hdr) (op : Nat) : (ensureTaken s h op).link = s.link := by
  unfold ensureTaken; (repeat' split) <;> rfl
@[simp] theorem ensureTaken_owl (s : State) (h : Hdr) (op : Nat) : (ensureTaken s h op).owl = s.owl := by
  unfold ensureTaken; (repeat' split) <;> rfl
@[simp] theorem ensureTaken_sites (s : State) (h : Hdr) (op : Nat) : (ensureTaken s h op).sites = s.sites := by
  unfold ensureTaken; (repeat' split) <;> rfl
@[simp] theorem ensureTaken_store (s : State) (h : Hdr) (op : Nat) : (ensureTaken s h op).store = s.store := by
  unfold ensureTaken; (repeat' split) <;> rfl
@[simp] theorem ensureTaken_tickets (s : State) (h : Hdr) (op : Nat) : (ensureTaken s h op).tickets = s.tickets := by
  unfold ensureTaken; (repeat' split) <;> rfl
@[simp] theorem ensureTaken_params (s : State) (h : Hdr) (op : Nat) : (ensureTaken s h op).params = s.params := by
  unfold ensureTaken; (repeat' split) <;> rfl
@[simp] theorem ensureTaken_queues (s : State) (h : Hdr) (op : Nat) : (ensureTaken s h op).queues = s.queues := by
  unfold ensureTaken; (repeat' split) <;> rfl
@[simp] theorem ensureTaken_ridges (s : State) (h : Hdr) (op : Nat) : (ensureTaken s h op).ridges = s.ridges := by
  unfold ensureTaken; (repeat' split) <;> rfl
@[simp] theorem ensureTaken_ports (s : State) (h : Hdr) (op : Nat) : (ensureTaken s h op).ports = s.ports := by
  unfold ensureTaken; (repeat' split) <;> rfl

@[simp] theorem injectOn_ensureTaken (s : State) (h : Hdr) (op : Nat) (b : Fin 64) :
    injectOn (ensureTaken s h op) b = injectOn s b := by simp [injectOn]
@[simp] theorem admission_ensureTaken (s : State) (h h' : Hdr) (op : Nat) (w : Row) :
    admission (ensureTaken s h op) h' w = admission s h' w := by
  simp [admission, tooLate, horizon, ringBound]
@[simp] theorem heldByLong_ensureTaken (s : State) (h : Hdr) (op : Nat) (l : List Need) :
    heldByLong (ensureTaken s h op) l = heldByLong s l := by simp [heldByLong]

/-- An admitted packet runs its body on the state in which it is taken. -/
theorem command_admitted {s : State} {h : Hdr} {w : Row} {need : List Need} {body : State → State}
    (ha : Admitted s h w need) : command s h w need body = body (ensureTaken s h w.op) := by
  obtain ⟨h1, h2, h3, h4⟩ := ha
  simp [command, h1, h2, h3, h4]

/-- A packet that is not taken changes nothing. -/
theorem command_notTaken {s : State} {h : Hdr} {w : Row} {need : List Need} {body : State → State}
    (h1 : canTake s h = false) : command s h w need body = s := by simp [command, h1]

/-- A packet that fails a header check is refused. -/
theorem command_refused {s : State} {h : Hdr} {w : Row} {need : List Need} {body : State → State} {st info : Nat}
    (h1 : canTake s h = true) (h2 : injectOn s 28 = none) (h3 : admission s h w = some (st, info)) :
    command s h w need body = refuse (ensureTaken s h w.op) h w.op st info := by simp [command, h1, h2, h3]

/-- A packet that names what a long command holds is refused with BUSY. -/
theorem command_held {s : State} {h : Hdr} {w : Row} {need : List Need} {body : State → State}
    (h1 : canTake s h = true) (h2 : injectOn s 28 = none) (h3 : admission s h w = none) (h4 : heldByLong s need = true) :
    command s h w need body = refuse (ensureTaken s h w.op) h w.op BUSY 0 := by simp [command, h1, h2, h3, h4]

end Sys2Proof.Machine
end

