-- ==== Sys2Proof/Laws/Frames.lean ====
section
/-! SUPPORT. Frames: for every operation on the state, what of the quiet components (time, boot, flash, sites, routes,
calibration, monitors, Owl, Cairn, serial ports, waiting commands) it leaves as they were. -/

set_option linter.unusedSimpArgs false
set_option linter.unusedVariables false

namespace Sys2Proof.Machine

/-- The components that few commands write. -/
structure Quiet where
  now : T64
  ticks : Nat
  boot : Boot
  flash : Flash
  working : Option Retained
  sites : Vector (BitVec 256) 64
  routes : Vector (BitVec 64) 256
  cal : Cal
  sensors : Vector Sensor 24
  smons : Vector Smon 12
  pmons : Vector (BitVec 20) 20
  owl : Owl
  cairn : Cairn
  csps : Vector Csp 2
  xip : Xip
  pending : List Instr

/-- The quiet components of a state. -/
def quiet (s : State) : Quiet :=
  ⟨s.now, s.ticks, s.boot, s.flash, s.working, s.sites, s.events.routes, s.cal, s.sensors, s.smons, s.pmons, s.owl, s.cairn, s.csps, s.xip, s.pending⟩

theorem quiet_proj (t : State) : t.now = (quiet t).now ∧ t.ticks = (quiet t).ticks ∧ t.boot = (quiet t).boot ∧ t.flash = (quiet t).flash ∧
  t.working = (quiet t).working ∧ t.sites = (quiet t).sites ∧ t.events.routes = (quiet t).routes ∧ t.cal = (quiet t).cal ∧
  t.sensors = (quiet t).sensors ∧ t.smons = (quiet t).smons ∧ t.pmons = (quiet t).pmons ∧ t.owl = (quiet t).owl ∧
  t.cairn = (quiet t).cairn ∧ t.csps = (quiet t).csps ∧ t.xip = (quiet t).xip ∧ t.pending = (quiet t).pending :=
  ⟨rfl, rfl, rfl, rfl, rfl, rfl, rfl, rfl, rfl, rfl, rfl, rfl, rfl, rfl, rfl, rfl⟩

theorem quiet_mk (now ticks free host params boot flash working link sq cq msix ridges pins dps ports store tickets lastTicket convPtr timuPtr queues lastQueue sites cal sensors smons pmons owl events bear cols ring cairn csps xip pending) :
  quiet (State.mk now ticks free host params boot flash working link sq cq msix ridges pins dps ports store tickets lastTicket convPtr timuPtr queues lastQueue sites cal sensors smons pmons owl events bear cols ring cairn csps xip pending) =
  ⟨now, ticks, boot, flash, working, sites, events.routes, cal, sensors, smons, pmons, owl, cairn, csps, xip, pending⟩ := rfl

/-- A parameter index whose write reaches none of the quiet components. -/
def Plain (i : Nat) : Prop := i ≠ 0x1948 ∧ i ≠ 0x18F0 ∧ i ≠ 0x18F2

theorem quiet_eq2 {α : Type} {p : State × α} {s t : State} {a : α} (hp : quiet p.1 = quiet s) (h : p = (t, a)) : quiet t = quiet s := by
  rw [h] at hp; exact hp

theorem quiet_eq1 {α : Type} {p : α × State} {s t : State} {a : α} (hp : quiet p.2 = quiet s) (h : p = (a, t)) : quiet t = quiet s := by
  rw [h] at hp; exact hp

@[simp] theorem quiet_ite (c : Prop) [Decidable c] (a b : State) : quiet (if c then a else b) = if c then quiet a else quiet b := apply_ite _ _ _ _

theorem each_ind {α : Type} (P : State → Prop) {l : List α} {f : State → α → State} {s : State} (h0 : P s)
    (h : ∀ s a, P s → P (f s a)) : P (each l f s) := by
  unfold each; induction l generalizing s with
  | nil => exact h0
  | cons a l ih => exact ih (h _ _ h0)

@[simp] theorem quiet_each {α : Type} (l : List α) (f : State → α → State) (s : State) (h : ∀ s a, quiet (f s a) = quiet s) :
    quiet (each l f s) = quiet s := by
  unfold each; induction l generalizing s with
  | nil => rfl
  | cons a l ih => rw [List.foldl_cons, ih, h]

@[simp] theorem quiet_each_now {α : Type} (l : List α) (f : State → α → State) (s : State)
    (h : ∀ s a, (quiet (f s a)).now = (quiet s).now) : (quiet (each l f s)).now = (quiet s).now := by
  unfold each; induction l generalizing s with
  | nil => rfl
  | cons a l ih => rw [List.foldl_cons, ih, h]

@[simp] theorem quiet_ite_now (p : Prop) [Decidable p] (a b : Quiet) : (if p then a else b).now = if p then a.now else b.now := apply_ite _ _ _ _

@[simp] theorem quiet_each_ticks {α : Type} (l : List α) (f : State → α → State) (s : State)
    (h : ∀ s a, (quiet (f s a)).ticks = (quiet s).ticks) : (quiet (each l f s)).ticks = (quiet s).ticks := by
  unfold each; induction l generalizing s with
  | nil => rfl
  | cons a l ih => rw [List.foldl_cons, ih, h]

@[simp] theorem quiet_ite_ticks (p : Prop) [Decidable p] (a b : Quiet) : (if p then a else b).ticks = if p then a.ticks else b.ticks := apply_ite _ _ _ _

@[simp] theorem quiet_each_boot {α : Type} (l : List α) (f : State → α → State) (s : State)
    (h : ∀ s a, (quiet (f s a)).boot = (quiet s).boot) : (quiet (each l f s)).boot = (quiet s).boot := by
  unfold each; induction l generalizing s with
  | nil => rfl
  | cons a l ih => rw [List.foldl_cons, ih, h]

@[simp] theorem quiet_ite_boot (p : Prop) [Decidable p] (a b : Quiet) : (if p then a else b).boot = if p then a.boot else b.boot := apply_ite _ _ _ _

@[simp] theorem quiet_each_flash {α : Type} (l : List α) (f : State → α → State) (s : State)
    (h : ∀ s a, (quiet (f s a)).flash = (quiet s).flash) : (quiet (each l f s)).flash = (quiet s).flash := by
  unfold each; induction l generalizing s with
  | nil => rfl
  | cons a l ih => rw [List.foldl_cons, ih, h]

@[simp] theorem quiet_ite_flash (p : Prop) [Decidable p] (a b : Quiet) : (if p then a else b).flash = if p then a.flash else b.flash := apply_ite _ _ _ _

@[simp] theorem quiet_each_working {α : Type} (l : List α) (f : State → α → State) (s : State)
    (h : ∀ s a, (quiet (f s a)).working = (quiet s).working) : (quiet (each l f s)).working = (quiet s).working := by
  unfold each; induction l generalizing s with
  | nil => rfl
  | cons a l ih => rw [List.foldl_cons, ih, h]

@[simp] theorem quiet_ite_working (p : Prop) [Decidable p] (a b : Quiet) : (if p then a else b).working = if p then a.working else b.working := apply_ite _ _ _ _

@[simp] theorem quiet_each_sites {α : Type} (l : List α) (f : State → α → State) (s : State)
    (h : ∀ s a, (quiet (f s a)).sites = (quiet s).sites) : (quiet (each l f s)).sites = (quiet s).sites := by
  unfold each; induction l generalizing s with
  | nil => rfl
  | cons a l ih => rw [List.foldl_cons, ih, h]

@[simp] theorem quiet_ite_sites (p : Prop) [Decidable p] (a b : Quiet) : (if p then a else b).sites = if p then a.sites else b.sites := apply_ite _ _ _ _

@[simp] theorem quiet_each_routes {α : Type} (l : List α) (f : State → α → State) (s : State)
    (h : ∀ s a, (quiet (f s a)).routes = (quiet s).routes) : (quiet (each l f s)).routes = (quiet s).routes := by
  unfold each; induction l generalizing s with
  | nil => rfl
  | cons a l ih => rw [List.foldl_cons, ih, h]

@[simp] theorem quiet_ite_routes (p : Prop) [Decidable p] (a b : Quiet) : (if p then a else b).routes = if p then a.routes else b.routes := apply_ite _ _ _ _

@[simp] theorem quiet_each_cal {α : Type} (l : List α) (f : State → α → State) (s : State)
    (h : ∀ s a, (quiet (f s a)).cal = (quiet s).cal) : (quiet (each l f s)).cal = (quiet s).cal := by
  unfold each; induction l generalizing s with
  | nil => rfl
  | cons a l ih => rw [List.foldl_cons, ih, h]

@[simp] theorem quiet_ite_cal (p : Prop) [Decidable p] (a b : Quiet) : (if p then a else b).cal = if p then a.cal else b.cal := apply_ite _ _ _ _

@[simp] theorem quiet_each_sensors {α : Type} (l : List α) (f : State → α → State) (s : State)
    (h : ∀ s a, (quiet (f s a)).sensors = (quiet s).sensors) : (quiet (each l f s)).sensors = (quiet s).sensors := by
  unfold each; induction l generalizing s with
  | nil => rfl
  | cons a l ih => rw [List.foldl_cons, ih, h]

@[simp] theorem quiet_ite_sensors (p : Prop) [Decidable p] (a b : Quiet) : (if p then a else b).sensors = if p then a.sensors else b.sensors := apply_ite _ _ _ _

@[simp] theorem quiet_each_smons {α : Type} (l : List α) (f : State → α → State) (s : State)
    (h : ∀ s a, (quiet (f s a)).smons = (quiet s).smons) : (quiet (each l f s)).smons = (quiet s).smons := by
  unfold each; induction l generalizing s with
  | nil => rfl
  | cons a l ih => rw [List.foldl_cons, ih, h]

@[simp] theorem quiet_ite_smons (p : Prop) [Decidable p] (a b : Quiet) : (if p then a else b).smons = if p then a.smons else b.smons := apply_ite _ _ _ _

@[simp] theorem quiet_each_pmons {α : Type} (l : List α) (f : State → α → State) (s : State)
    (h : ∀ s a, (quiet (f s a)).pmons = (quiet s).pmons) : (quiet (each l f s)).pmons = (quiet s).pmons := by
  unfold each; induction l generalizing s with
  | nil => rfl
  | cons a l ih => rw [List.foldl_cons, ih, h]

@[simp] theorem quiet_ite_pmons (p : Prop) [Decidable p] (a b : Quiet) : (if p then a else b).pmons = if p then a.pmons else b.pmons := apply_ite _ _ _ _

@[simp] theorem quiet_each_owl {α : Type} (l : List α) (f : State → α → State) (s : State)
    (h : ∀ s a, (quiet (f s a)).owl = (quiet s).owl) : (quiet (each l f s)).owl = (quiet s).owl := by
  unfold each; induction l generalizing s with
  | nil => rfl
  | cons a l ih => rw [List.foldl_cons, ih, h]

@[simp] theorem quiet_ite_owl (p : Prop) [Decidable p] (a b : Quiet) : (if p then a else b).owl = if p then a.owl else b.owl := apply_ite _ _ _ _

@[simp] theorem quiet_each_cairn {α : Type} (l : List α) (f : State → α → State) (s : State)
    (h : ∀ s a, (quiet (f s a)).cairn = (quiet s).cairn) : (quiet (each l f s)).cairn = (quiet s).cairn := by
  unfold each; induction l generalizing s with
  | nil => rfl
  | cons a l ih => rw [List.foldl_cons, ih, h]

@[simp] theorem quiet_ite_cairn (p : Prop) [Decidable p] (a b : Quiet) : (if p then a else b).cairn = if p then a.cairn else b.cairn := apply_ite _ _ _ _

@[simp] theorem quiet_each_csps {α : Type} (l : List α) (f : State → α → State) (s : State)
    (h : ∀ s a, (quiet (f s a)).csps = (quiet s).csps) : (quiet (each l f s)).csps = (quiet s).csps := by
  unfold each; induction l generalizing s with
  | nil => rfl
  | cons a l ih => rw [List.foldl_cons, ih, h]

@[simp] theorem quiet_ite_csps (p : Prop) [Decidable p] (a b : Quiet) : (if p then a else b).csps = if p then a.csps else b.csps := apply_ite _ _ _ _

@[simp] theorem quiet_each_xip {α : Type} (l : List α) (f : State → α → State) (s : State)
    (h : ∀ s a, (quiet (f s a)).xip = (quiet s).xip) : (quiet (each l f s)).xip = (quiet s).xip := by
  unfold each; induction l generalizing s with
  | nil => rfl
  | cons a l ih => rw [List.foldl_cons, ih, h]

@[simp] theorem quiet_ite_xip (p : Prop) [Decidable p] (a b : Quiet) : (if p then a else b).xip = if p then a.xip else b.xip := apply_ite _ _ _ _

@[simp] theorem quiet_each_pending {α : Type} (l : List α) (f : State → α → State) (s : State)
    (h : ∀ s a, (quiet (f s a)).pending = (quiet s).pending) : (quiet (each l f s)).pending = (quiet s).pending := by
  unfold each; induction l generalizing s with
  | nil => rfl
  | cons a l ih => rw [List.foldl_cons, ih, h]

@[simp] theorem quiet_ite_pending (p : Prop) [Decidable p] (a b : Quiet) : (if p then a else b).pending = if p then a.pending else b.pending := apply_ite _ _ _ _

@[simp] theorem quiet_putWord (s : State) (i : ℕ) (v : ℕ) : quiet (putWord s i v) = quiet s := by
  unfold putWord
  simp [quiet_proj, quiet_mk]

@[simp] theorem quiet_setBits (s : State) (i : ℕ) (m : ℕ) : quiet (setBits s i m) = quiet s := by
  unfold setBits
  simp

@[simp] theorem quiet_clrBits (s : State) (i : ℕ) (m : ℕ) : quiet (clrBits s i m) = quiet s := by
  unfold clrBits
  simp

@[simp] theorem quiet_putField (s : State) (i : ℕ) (hi : ℕ) (lo : ℕ) (v : ℕ) : quiet (putField s i hi lo v) = quiet s := by
  unfold putField
  simp

@[simp] theorem quiet_bump (s : State) (i : ℕ) (n : ℕ) : quiet (bump s i n) = quiet s := by
  unfold bump
  simp

@[simp] theorem quiet_keepMax (s : State) (i : ℕ) (v : ℕ) (cap : ℕ) : quiet (keepMax s i v cap) = quiet s := by
  unfold keepMax
  simp

@[simp] theorem quiet_modR (s : State) (r : RidgeId) (f : Ridge → Ridge) : quiet (modR s r f) = quiet s := by
  unfold modR
  simp [quiet_proj, quiet_mk]

@[simp] theorem quiet_modPin (s : State) (p : PinId) (f : Pin → Pin) : quiet (modPin s p f) = quiet s := by
  unfold modPin
  simp [quiet_proj, quiet_mk]

@[simp] theorem quiet_modDps (s : State) (n : RidgeId) (f : Dps → Dps) : quiet (modDps s n f) = quiet s := by
  unfold modDps
  simp [quiet_proj, quiet_mk]

@[simp] theorem quiet_modPort (s : State) (n : RidgeId) (f : Port → Port) : quiet (modPort s n f) = quiet s := by
  unfold modPort
  simp [quiet_proj, quiet_mk]

@[simp] theorem quiet_modSq (s : State) (q : Fin 64) (f : Sq → Sq) : quiet (modSq s q f) = quiet s := by
  unfold modSq
  simp [quiet_proj, quiet_mk]

@[simp] theorem quiet_modCq (s : State) (c : Fin 64) (f : Cq → Cq) : quiet (modCq s c f) = quiet s := by
  unfold modCq
  simp [quiet_proj, quiet_mk]

@[simp] theorem quiet_modCsp (s : State) (n : Fin 2) (f : Csp → Csp) : (quiet (modCsp s n f)).now = (quiet s).now ∧ (quiet (modCsp s n f)).ticks = (quiet s).ticks ∧ (quiet (modCsp s n f)).boot = (quiet s).boot ∧ (quiet (modCsp s n f)).flash = (quiet s).flash ∧ (quiet (modCsp s n f)).working = (quiet s).working ∧ (quiet (modCsp s n f)).sites = (quiet s).sites ∧ (quiet (modCsp s n f)).routes = (quiet s).routes ∧ (quiet (modCsp s n f)).cal = (quiet s).cal ∧ (quiet (modCsp s n f)).sensors = (quiet s).sensors ∧ (quiet (modCsp s n f)).smons = (quiet s).smons ∧ (quiet (modCsp s n f)).pmons = (quiet s).pmons ∧ (quiet (modCsp s n f)).owl = (quiet s).owl ∧ (quiet (modCsp s n f)).cairn = (quiet s).cairn ∧ (quiet (modCsp s n f)).xip = (quiet s).xip ∧ (quiet (modCsp s n f)).pending = (quiet s).pending := by
  unfold modCsp
  simp [quiet_proj, quiet_mk]

@[simp] theorem quiet_modQ (s : State) (id : ℕ) (f : Queue → Queue) : quiet (modQ s id f) = quiet s := by
  unfold modQ
  simp [quiet_proj, quiet_mk]

@[simp] theorem quiet_modCol (s : State) (c : ℕ) (f : Col → Col) : quiet (modCol s c f) = quiet s := by
  unfold modCol
  simp [quiet_proj, quiet_mk]

@[simp] theorem quiet_tickFree (s : State) : quiet (tickFree s) = quiet s := by
  unfold tickFree
  simp [quiet_proj, quiet_mk]

@[simp] theorem quiet_settle (s : State) : quiet (settle s) = quiet s := by
  unfold settle
  simp [quiet_proj, quiet_mk]

@[simp] theorem quiet_request (s : State) (c : ℕ) (src : ℕ) : quiet (request s c src) = quiet s := by
  unfold request
  simp [quiet_proj, quiet_mk]

@[simp] theorem quiet_raise (s : State) (src : ℕ) (payload : ℕ) : quiet (raise s src payload) = quiet s := by
  unfold raise
  (repeat' split) <;> simp_all [quiet_proj, quiet_mk]

@[simp] theorem quiet_signalCq (s : State) (c : Fin 64) : quiet (signalCq s c) = quiet s := by
  unfold signalCq
  simp [quiet_proj, quiet_mk]

@[simp] theorem quiet_cqWrite (s : State) (c : Fin 64) (entry : List Byte) : quiet (cqWrite s c entry) = quiet s := by
  unfold cqWrite
  simp [quiet_proj, quiet_mk]

@[simp] theorem quiet_postNotice (s : State) (n : Notice) : quiet (postNotice s n) = quiet s := by
  unfold postNotice
  simp [quiet_proj, quiet_mk]

@[simp] theorem quiet_modRing (s : State) (f : Ring → Ring) : quiet (modRing s f) = quiet s := by
  unfold modRing
  simp [quiet_proj, quiet_mk]

@[simp] theorem quiet_frameOut (s : State) (portB : Bool) (m : RingMsg) : quiet (frameOut s portB m) = quiet s := by
  unfold frameOut
  simp

@[simp] theorem quiet_sendRing (s : State) (dest : Option ℕ) (m : RingMsg) : quiet (sendRing s dest m) = quiet s := by
  unfold sendRing
  simp
  (repeat' split) <;> simp_all [quiet_proj, quiet_mk]

@[simp] theorem quiet_setTaken (s : State) (q : Fin 64) (l : List Taken) : quiet (setTaken s q l) = quiet s := by
  unfold setTaken
  simp

@[simp] theorem quiet_modTaken (s : State) (q : Fin 64) (era : ℕ) (seq : Word) (f : Taken → Taken) : quiet (modTaken s q era seq f) = quiet s := by
  unfold modTaken
  simp

@[simp] theorem quiet_unreserve (s : State) (c : Fin 64) : quiet (unreserve s c) = quiet s := by
  unfold unreserve
  simp

@[simp] theorem quiet_deliverList (q : Fin 64) (x1 : List Taken) (x2 : State) : quiet (deliverList q x1 x2) = quiet x2 := by
  induction x1 generalizing x2 with
  | nil => simp [deliverList]
  | cons e es ih =>
    unfold deliverList
    ((repeat' split) <;> simp_all [quiet_proj, quiet_mk])

@[simp] theorem quiet_deliver (s : State) (q : Fin 64) : quiet (deliver s q) = quiet s := by
  unfold deliver
  simp

@[simp] theorem quiet_setReply (s : State) (q : Fin 64) (era : ℕ) (seq : Word) (r : Reply) : quiet (setReply s q era seq r) = quiet s := by
  unfold setReply
  simp

@[simp] theorem quiet_memberReply (s : State) (q : Fin 64) (era : ℕ) (seq : Word) (pos : ℕ) (r : Reply) : quiet (memberReply s q era seq pos r) = quiet s := by
  unfold memberReply
  (repeat' split) <;> simp_all [quiet_proj, quiet_mk]

@[simp] theorem quiet_answer (s : State) (h : Hdr) (op : ℕ) (st : ℕ) (info : ℕ) (time : T64) : quiet (answer s h op st info time) = quiet s := by
  unfold answer
  (repeat' split) <;> simp_all [quiet_proj, quiet_mk]

@[simp] theorem quiet_replyDone (s : State) (h : Hdr) (op : ℕ) (info : ℕ) : quiet (replyDone s h op info) = quiet s := by
  unfold replyDone
  simp

@[simp] theorem quiet_replyAccepted (s : State) (h : Hdr) (op : ℕ) (info : ℕ) (t : T64) : quiet (replyAccepted s h op info t) = quiet s := by
  unfold replyAccepted
  simp

@[simp] theorem quiet_refuse (s : State) (h : Hdr) (op : ℕ) (st : ℕ) (info : ℕ) : quiet (refuse s h op st info) = quiet s := by
  unfold refuse
  simp

@[simp] theorem quiet_addTaken (s : State) (q : Fin 64) (t : Taken) : quiet (addTaken s q t) = quiet s := by
  unfold addTaken
  simp

@[simp] theorem quiet_ensureTaken (s : State) (h : Hdr) (op : ℕ) : quiet (ensureTaken s h op) = quiet s := by
  unfold ensureTaken
  (repeat' split) <;> simp_all [quiet_proj, quiet_mk]

@[simp] theorem quiet_startLong (s : State) (h : Hdr) (op : ℕ) (job : LongJob) : quiet (startLong s h op job) = quiet s := by
  unfold startLong
  simp [quiet_proj, quiet_mk]

@[simp] theorem quiet_dropLong (s : State) (l : Long) : quiet (dropLong s l) = quiet s := by
  unfold dropLong
  simp [quiet_proj, quiet_mk]

@[simp] theorem quiet_dmaWrite (s : State) (addr : ℕ) (data : List Byte) : quiet (dmaWrite s addr data) = quiet s := by
  unfold dmaWrite
  simp [quiet_proj, quiet_mk]

@[simp] theorem quiet_serveWaits (s : State) : quiet (serveWaits s) = quiet s := by
  unfold serveWaits
  simp [quiet_proj, quiet_mk]

@[simp] theorem quiet_dataReply (s : State) (h : Hdr) (op : ℕ) (addr : ℕ) (data : List Byte) : quiet (dataReply s h op addr data) = quiet s := by
  unfold dataReply
  simp [quiet_proj, quiet_mk]

@[simp] theorem quiet_waitFor (s : State) (w : Wait) : quiet (waitFor s w) = quiet s := by
  unfold waitFor
  simp [quiet_proj, quiet_mk]

@[simp] theorem quiet_doneWhen (s : State) (h : Hdr) (op : ℕ) (on : List WaitOn) (undo : List (ℕ × Word)) : quiet (doneWhen s h op on undo) = quiet s := by
  unfold doneWhen
  simp [quiet_proj, quiet_mk]

@[simp] theorem quiet_logFault (s : State) (d : Detect) (packets : ℕ) (tickets : ℕ) : quiet (logFault s d packets tickets) = quiet s := by
  unfold logFault
  simp
  (repeat' split) <;> simp_all [quiet_proj, quiet_mk]

@[simp] theorem quiet_corrected (s : State) (bit : Fin 64) (det : ℕ) (injected : Bool) : quiet (corrected s bit det injected) = quiet s := by
  unfold corrected
  simp

@[simp] theorem quiet_contained (s : State) (d : Detect) (rollback : State → State) (h_rollback : ∀ s, quiet (rollback s) = quiet s) : quiet (contained s d rollback) = quiet s := by
  unfold contained
  (repeat' split) <;> simp_all [quiet_proj, quiet_mk]

@[simp] theorem quiet_useInject (s : State) (bit : Fin 64) : quiet (useInject s bit) = quiet s := by
  unfold useInject
  simp [quiet_proj, quiet_mk]

@[simp] theorem quiet_accessInject (s : State) (bit : Fin 64) : quiet (accessInject s bit).1 = quiet s := by
  unfold accessInject
  (repeat' split) <;> simp_all [quiet_proj, quiet_mk]

@[simp] theorem quiet_command (s : State) (h : Hdr) (w : Row) (need : List Need) (body : State → State) (h_body : ∀ s, quiet (body s) = quiet s) : quiet (command s h w need body) = quiet s := by
  unfold command
  simp
  (repeat' split) <;> simp_all [quiet_proj, quiet_mk]

theorem command_ind (P : State → Prop) {s : State} {h : Hdr} {w : Row} {need : List Need} {body : State → State}
    (h0 : ∀ t, quiet t = quiet s → P t) (hb : ∀ u, quiet u = quiet s → P (body u)) : P (command s h w need body) := by
  unfold command
  split
  · exact h0 _ rfl
  · dsimp only
    split
    · exact h0 _ (by simp)
    · split
      · exact h0 _ (by simp)
      · split
        · exact h0 _ (by simp)
        · exact hb _ (by simp)

@[simp] theorem quiet_modCairn (s : State) (f : Cairn → Cairn) : (quiet (modCairn s f)).now = (quiet s).now ∧ (quiet (modCairn s f)).ticks = (quiet s).ticks ∧ (quiet (modCairn s f)).boot = (quiet s).boot ∧ (quiet (modCairn s f)).flash = (quiet s).flash ∧ (quiet (modCairn s f)).working = (quiet s).working ∧ (quiet (modCairn s f)).sites = (quiet s).sites ∧ (quiet (modCairn s f)).routes = (quiet s).routes ∧ (quiet (modCairn s f)).cal = (quiet s).cal ∧ (quiet (modCairn s f)).sensors = (quiet s).sensors ∧ (quiet (modCairn s f)).smons = (quiet s).smons ∧ (quiet (modCairn s f)).pmons = (quiet s).pmons ∧ (quiet (modCairn s f)).owl = (quiet s).owl ∧ (quiet (modCairn s f)).csps = (quiet s).csps ∧ (quiet (modCairn s f)).xip = (quiet s).xip ∧ (quiet (modCairn s f)).pending = (quiet s).pending := by
  unfold modCairn
  simp [quiet_proj, quiet_mk]

@[simp] theorem quiet_spreadDly (s : State) : quiet (spreadDly s) = quiet s := by
  unfold spreadDly
  simp

@[simp] theorem quiet_holdEntries (s : State) (id : ℕ) (m : ℕ) : quiet (holdEntries s id m) = quiet s := by
  unfold holdEntries
  simp

@[simp] theorem quiet_returnEntries (s : State) (id : ℕ) (m : ℕ) : quiet (returnEntries s id m) = quiet s := by
  unfold returnEntries
  simp

@[simp] theorem quiet_qstoreInject (x0 : ℕ) (x1 : State) : quiet (qstoreInject x0 x1).1 = quiet x1 := by
  induction x0 generalizing x1 with
  | zero => simp [qstoreInject]
  | succ n ih => simp [qstoreInject, ih]

@[simp] theorem quiet_commitPkt (s : State) (id : ℕ) (typ : BitVec 3) (payload : List (BitVec 96)) : quiet (commitPkt s id typ payload) = quiet s := by
  unfold commitPkt
  simp

@[simp] theorem quiet_dropTicket (s : State) (num : BitVec 17) : quiet (dropTicket s num) = quiet s := by
  unfold dropTicket
  (repeat' split) <;> simp_all [quiet_proj, quiet_mk]

@[simp] theorem quiet_packetCommitted (s : State) (w : WaitPkt) : quiet (packetCommitted s w) = quiet s := by
  unfold packetCommitted
  (repeat' split) <;> simp_all [quiet_proj, quiet_mk]

@[simp] theorem quiet_submitPkt (s : State) (id : ℕ) (w : WaitPkt) : quiet (submitPkt s id w) = quiet s := by
  unfold submitPkt
  simp

@[simp] theorem quiet_removeWaiting (s : State) (id : ℕ) (p : WaitPkt → Bool) : quiet (removeWaiting s id p) = quiet s := by
  unfold removeWaiting
  simp

@[simp] theorem quiet_allocFrame (s : State) : ∀ x, allocFrame s = some x → quiet x.2 = quiet s := by
  unfold allocFrame
  (repeat' split) <;> simp_all [quiet_proj, quiet_mk]

@[simp] theorem quiet_undoAlloc (s : State) (a : ℕ × ℕ × ℕ) : quiet (undoAlloc s a) = quiet s := by
  unfold undoAlloc
  simp [quiet_proj, quiet_mk]

@[simp] theorem quiet_allocFrames (x0 : ℕ) (x1 : State) : quiet (allocFrames x0 x1).2 = quiet x1 := by
  induction x0 generalizing x1 with
  | zero => simp [allocFrames]
  | succ n ih =>
    unfold allocFrames
    split
    · rfl
    · rename_i f t h
      simpa using (ih t).trans (quiet_allocFrame x1 (f, t) h)

@[simp] theorem quiet_freeFramesOf (s : State) (fs : List ℕ) : quiet (freeFramesOf s fs) = quiet s := by
  unfold freeFramesOf
  simp [quiet_proj, quiet_mk]

@[simp] theorem quiet_putImg (s : State) (h : Handle) (i : Option Image) : quiet (putImg s h i) = quiet s := by
  unfold putImg
  simp [quiet_proj, quiet_mk]

@[simp] theorem quiet_renewRefs (s : State) (n : RidgeId) : quiet (renewRefs s n) = quiet s := by
  unfold renewRefs
  simp

@[simp] theorem quiet_dropCopies (s : State) (h : Handle) : quiet (dropCopies s h) = quiet s := by
  unfold dropCopies
  simp

@[simp] theorem quiet_freeImage (s : State) (h : Handle) : quiet (freeImage s h) = quiet s := by
  unfold freeImage
  (repeat' split) <;> simp_all [quiet_proj, quiet_mk]

@[simp] theorem quiet_sweep (s : State) : quiet (sweep s) = quiet s := by
  unfold sweep
  simp

@[simp] theorem quiet_retireFrame (s : State) (frame : ℕ) : quiet (retireFrame s frame) = quiet s := by
  unfold retireFrame
  simp [quiet_proj, quiet_mk]

@[simp] theorem quiet_restageOne (s : State) (r : RidgeId) : quiet (restageOne s r) = quiet s := by
  unfold restageOne
  simp

@[simp] theorem quiet_restage (s : State) (rs : List RidgeId) : quiet (restage s rs) = quiet s := by
  unfold restage
  simp

@[simp] theorem quiet_reclaimLent (s : State) : quiet (reclaimLent s) = quiet s := by
  unfold reclaimLent
  simp

@[simp] theorem quiet_endLending (s : State) : quiet (endLending s) = quiet s := by
  unfold endLending
  simp

@[simp] theorem quiet_lend (x0 : ℕ) (x1 : State) : quiet (lend x0 x1) = quiet x1 := by
  induction x0 generalizing x1 with
  | zero => rfl
  | succ n ih =>
    unfold lend
    (repeat' split) <;> simp_all

@[simp] theorem quiet_lendSlots (s : State) : quiet (lendSlots s) = quiet s := by
  unfold lendSlots
  simp

@[simp] theorem quiet_segLoadEffect (h : Hdr) (handle : Word) (addr : BitVec 64) (s : State) : quiet (segLoadEffect h handle addr s) = quiet s := by
  unfold segLoadEffect
  apply quiet_command
  intro s
  (repeat' split) <;> try simp
  rename_i f t h
  simpa using quiet_allocFrame s (f, t) h

@[simp] theorem quiet_segLoadDoneEffect (k : Handle) (i : SegImage) (s : State) : quiet (segLoadDoneEffect k i s) = quiet s := by
  unfold segLoadDoneEffect
  (repeat' split) <;> simp_all [quiet_proj, quiet_mk]

@[simp] theorem quiet_segReleaseEffect (h : Hdr) (handle : Word) (s : State) : quiet (segReleaseEffect h handle s) = quiet s := by
  unfold segReleaseEffect
  apply quiet_command
  intro s
  ((repeat' split) <;> simp_all [quiet_proj, quiet_mk])

@[simp] theorem quiet_segPinEffect (h : Hdr) (handle : Word) (s : State) : quiet (segPinEffect h handle s) = quiet s := by
  unfold segPinEffect
  simp

@[simp] theorem quiet_segUnpinEffect (h : Hdr) (handle : Word) (s : State) : quiet (segUnpinEffect h handle s) = quiet s := by
  unfold segUnpinEffect
  simp

@[simp] theorem quiet_progBindEffect (h : Hdr) (handle : Word) (unbind : Bool) (maxBody : Byte) (d : Byte) (targets : List Word) (s : State) : quiet (progBindEffect h handle unbind maxBody d targets s) = quiet s := by
  unfold progBindEffect
  apply quiet_command
  intro s
  ((repeat' split) <;> simp_all [quiet_proj, quiet_mk])

@[simp] theorem quiet_issue (s : State) (h : Hdr) (queue : ℕ) (booked : Bool) (job : Job) : quiet (issue s h queue booked job) = quiet s := by
  unfold issue
  simp [quiet_proj, quiet_mk]

@[simp] theorem quiet_setJob (s : State) (num : BitVec 17) (booked : Bool) (j : Job) : quiet (setJob s num booked j) = quiet s := by
  unfold setJob
  simp [quiet_proj, quiet_mk]

@[simp] theorem quiet_placeOne (s : State) (t : Ticket) : quiet (placeOne s t) = quiet s := by
  unfold placeOne
  simp
  (repeat' split) <;> simp_all [quiet_proj, quiet_mk]

@[simp] theorem quiet_replaceJobs (s : State) : quiet (replaceJobs s) = quiet s := by
  unfold replaceJobs
  simp

@[simp] theorem quiet_releaseJob (s : State) (t : Ticket) : quiet (releaseJob s t) = quiet s := by
  unfold releaseJob
  (repeat' split) <;> simp_all [quiet_proj, quiet_mk]

@[simp] theorem quiet_endTicket (s : State) (num : BitVec 17) (status : ℕ) : quiet (endTicket s num status) = quiet s := by
  unfold endTicket
  (repeat' split) <;> simp_all [quiet_proj, quiet_mk]

@[simp] theorem quiet_endTickets (s : State) (p : Ticket → Bool) (status : ℕ) : quiet (endTickets s p status) = quiet s := by
  unfold endTickets
  simp

@[simp] theorem quiet_rollbackQueue (s : State) (id : ℕ) (status : ℕ) : quiet (rollbackQueue s id status) = quiet s := by
  unfold rollbackQueue
  simp

@[simp] theorem quiet_endUnready (s : State) : quiet (endUnready s) = quiet s := by
  unfold endUnready
  simp

@[simp] theorem quiet_measureEffect (h : Hdr) (selector : BitVec 16) (nMinus1 : BitVec 16) (conv : BitVec 6) (pinned : Bool) (queue : BitVec 16) (s : State) : quiet (measureEffect h selector nMinus1 conv pinned queue s) = quiet s := by
  unfold measureEffect
  apply quiet_command
  intro s
  simp only []
  (repeat' split) <;> simp_all [quiet_proj, quiet_mk]

@[simp] theorem quiet_ticketFault (s : State) (bit : Fin 64) (num : BitVec 17) (injected : Bool) : quiet (ticketFault s bit num injected) = quiet s := by
  unfold ticketFault
  simp

@[simp] theorem quiet_measureStartEffect (num : BitVec 17) (s : State) : quiet (measureStartEffect num s) = quiet s := by
  unfold measureStartEffect
  split
  · split
    · split
      · rfl
      · have hp := quiet_accessInject s 31
        split
        · simpa using quiet_eq2 hp ‹_›
        · simpa [apply_ite quiet] using quiet_eq2 hp ‹_›
    · rfl
  · rfl

@[simp] theorem quiet_commitJob (s : State) (t : Ticket) (typ : BitVec 3) (payload : List (BitVec 96)) : quiet (commitJob s t typ payload) = quiet s := by
  unfold commitJob
  simp

@[simp] theorem quiet_measureEndEffect (num : BitVec 17) (samples : List ℤ) (atLimit : Bool) (s : State) : quiet (measureEndEffect num samples atLimit s) = quiet s := by
  unfold measureEndEffect
  (repeat' split) <;> simp_all [quiet_proj, quiet_mk]

@[simp] theorem quiet_timeMeasureEffect (h : Hdr) (a : TimuArgs) (s : State) : quiet (timeMeasureEffect h a s) = quiet s := by
  unfold timeMeasureEffect
  apply quiet_command
  intro s
  simp only []
  (repeat' split) <;> simp_all [quiet_proj, quiet_mk]

@[simp] theorem quiet_timuJobStartEffect (num : BitVec 17) (s : State) : quiet (timuJobStartEffect num s) = quiet s := by
  unfold timuJobStartEffect
  split
  · split
    · split
      · rfl
      · have hp := quiet_accessInject s 30
        split
        · simpa using quiet_eq2 hp ‹_›
        · simpa [apply_ite quiet] using quiet_eq2 hp ‹_›
    · rfl
  · rfl

@[simp] theorem quiet_timuSee (s : State) (p : PinId) (old : Cmp) (new : Cmp) (t : T64) : quiet (timuSee s p old new t) = quiet s := by
  unfold timuSee
  simp [quiet_proj, quiet_mk]

@[simp] theorem quiet_timuJobEndEffect (num : BitVec 17) (s : State) : quiet (timuJobEndEffect num s) = quiet s := by
  unfold timuJobEndEffect
  (repeat' split) <;> simp_all [quiet_proj, quiet_mk]

@[simp] theorem quiet_queueConfigEffect (h : Hdr) (queue : BitVec 16) (c : QConf) (s : State) : quiet (queueConfigEffect h queue c s) = quiet s := by
  unfold queueConfigEffect
  apply quiet_command
  intro s
  ((repeat' split) <;> simp_all [quiet_proj, quiet_mk])

@[simp] theorem quiet_staleTimerEffect (id : BitVec 14) (s : State) : quiet (staleTimerEffect id s) = quiet s := by
  unfold staleTimerEffect
  (repeat' split) <;> simp_all [quiet_proj, quiet_mk]

@[simp] theorem quiet_ringWrite (base : BitVec 64) (n : ℕ) (x2 : List (List Byte)) (x3 : ℕ) (x4 : State) : quiet (ringWrite base n x2 x3 x4) = quiet x4 := by
  induction x2 generalizing x3 x4 with
  | nil => rfl
  | cons e es ih => rw [ringWrite, ih]; simp

@[simp] theorem quiet_drainTake (id : ℕ) (badSeq : List (BitVec 12)) (x2 : List QPacket) (x3 : Drained) (x4 : State) : quiet (drainTake id badSeq x2 x3 x4).1 = quiet x4 := by
  induction x2 generalizing x3 x4 with
  | nil => simp [drainTake]
  | cons p ps ih =>
    unfold drainTake
    simp only []
    (repeat' split) <;> simp_all [quiet_proj, quiet_mk]

@[simp] theorem quiet_flushReply (s : State) (id : ℕ) (st : ℕ) (info : ℕ) : quiet (flushReply s id st info) = quiet s := by
  unfold flushReply
  (repeat' split) <;> simp_all [quiet_proj, quiet_mk]

@[simp] theorem quiet_drainStartEffect (id : BitVec 14) (badSeq : List (BitVec 12)) (s : State) : quiet (drainStartEffect id badSeq s) = quiet s := by
  unfold drainStartEffect
  split
  · rfl
  · simp only []
    have ht := quiet_drainTake id.toNat badSeq (getQ s id.toNat).store ⟨0, 0, 0⟩ { s with lastQueue := id }
    have hs : quiet { s with lastQueue := id } = quiet s := rfl
    rw [hs] at ht
    (repeat' split) <;> simp_all

@[simp] theorem quiet_queueWriteback (s : State) (id : ℕ) (seq : BitVec 12) : quiet (queueWriteback s id seq) = quiet s := by
  unfold queueWriteback
  simp

@[simp] theorem quiet_queueNotice (s : State) (id : ℕ) : quiet (queueNotice s id) = quiet s := by
  unfold queueNotice
  simp
  (repeat' split) <;> simp_all [quiet_proj, quiet_mk]

@[simp] theorem quiet_drainDoneEffect (id : BitVec 14) (s : State) : quiet (drainDoneEffect id s) = quiet s := by
  unfold drainDoneEffect
  simp
  (repeat' split) <;> simp_all [quiet_proj, quiet_mk]

@[simp] theorem quiet_flushNow (s : State) (i : ℕ) (m : FlushMode) (later : ℕ) : quiet (flushNow s i m later) = quiet s := by
  unfold flushNow
  (repeat' split) <;> simp_all [quiet_proj, quiet_mk]

@[simp] theorem quiet_queueFlushEffect (h : Hdr) (queue : BitVec 16) (mode : Byte) (s : State) : quiet (queueFlushEffect h queue mode s) = quiet s := by
  unfold queueFlushEffect
  simp

@[simp] theorem quiet_queueFlushBoundaryEffect (id : BitVec 14) (s : State) : quiet (queueFlushBoundaryEffect id s) = quiet s := by
  unfold queueFlushBoundaryEffect
  simp
  (repeat' split) <;> simp_all [quiet_proj, quiet_mk]

@[simp] theorem quiet_queueHeadWriteEffect (id : BitVec 14) (v : Word) (s : State) : quiet (queueHeadWriteEffect id v s) = quiet s := by
  unfold queueHeadWriteEffect
  simp

@[simp] theorem quiet_setLevel (s : State) (n : RidgeId) (v : ℤ) : quiet (setLevel s n v) = quiet s := by
  unfold setLevel
  simp

@[simp] theorem quiet_dpsMove (s : State) (n : RidgeId) (slewed : Bool) (v : ℤ) : quiet (dpsMove s n slewed v) = quiet s := by
  unfold dpsMove
  simp

@[simp] theorem quiet_dpsConnect (s : State) (n : RidgeId) (out : DpsOut) : quiet (dpsConnect s n out) = quiet s := by
  unfold dpsConnect
  simp

@[simp] theorem quiet_dpsDisconnect (s : State) (n : RidgeId) (slewed : Bool) : quiet (dpsDisconnect s n slewed) = quiet s := by
  unfold dpsDisconnect
  simp

@[simp] theorem quiet_dpsSync (s : State) (n : RidgeId) : quiet (dpsSync s n) = quiet s := by
  unfold dpsSync
  simp

@[simp] theorem quiet_dpsApply (s : State) (n : RidgeId) : quiet (dpsApply s n) = quiet s := by
  unfold dpsApply
  simp

@[simp] theorem quiet_dpsFault (s : State) (n : RidgeId) : quiet (dpsFault s n) = quiet s := by
  unfold dpsFault
  simp
  (repeat' split) <;> simp_all [quiet_proj, quiet_mk]

@[simp] theorem quiet_dpsSlewUpdateEffect (n : RidgeId) (s : State) : quiet (dpsSlewUpdateEffect n s) = quiet s := by
  unfold dpsSlewUpdateEffect
  simp

@[simp] theorem quiet_markMeasures (s : State) (hit : BitVec 16 → Bool) (f : MeasJob → MeasJob) : quiet (markMeasures s hit f) = quiet s := by
  unfold markMeasures
  simp [quiet_proj, quiet_mk]

@[simp] theorem quiet_dpsCurrentLimitEffect (n : RidgeId) (s : State) : quiet (dpsCurrentLimitEffect n s) = quiet s := by
  unfold dpsCurrentLimitEffect
  simp

@[simp] theorem quiet_dpsComplianceEffect (n : RidgeId) (s : State) : quiet (dpsComplianceEffect n s) = quiet s := by
  unfold dpsComplianceEffect
  simp

@[simp] theorem quiet_dpsLimitClearEffect (n : RidgeId) (s : State) : quiet (dpsLimitClearEffect n s) = quiet s := by
  unfold dpsLimitClearEffect
  simp

@[simp] theorem quiet_dpsOpenLoadEffect (n : RidgeId) (s : State) : quiet (dpsOpenLoadEffect n s) = quiet s := by
  unfold dpsOpenLoadEffect
  simp

@[simp] theorem quiet_dpsSenseOpenEffect (n : RidgeId) (s : State) : quiet (dpsSenseOpenEffect n s) = quiet s := by
  unfold dpsSenseOpenEffect
  simp

@[simp] theorem quiet_dpsSenseRestoreEffect (n : RidgeId) (s : State) : quiet (dpsSenseRestoreEffect n s) = quiet s := by
  unfold dpsSenseRestoreEffect
  simp

@[simp] theorem quiet_dpsNcoUpdateEffect (n : RidgeId) (s : State) : quiet (dpsNcoUpdateEffect n s) = quiet s := by
  unfold dpsNcoUpdateEffect
  simp

@[simp] theorem quiet_dpsPowerWindowEffect (power : List (BitVec 16)) (current : List (BitVec 16)) (s : State) : quiet (dpsPowerWindowEffect power current s) = quiet s := by
  unfold dpsPowerWindowEffect
  simp

@[simp] theorem quiet_dpsCapReleaseEffect (n : RidgeId) (s : State) : quiet (dpsCapReleaseEffect n s) = quiet s := by
  unfold dpsCapReleaseEffect
  (repeat' split) <;> simp_all [quiet_proj, quiet_mk]

@[simp] theorem quiet_modStream (s : State) (r : RidgeId) (f : Stream → Stream) : quiet (modStream s r f) = quiet s := by
  unfold modStream
  simp

@[simp] theorem quiet_offer (s : State) (r : RidgeId) (t : T64) (lane : Fin 16) (c : Cmp) : quiet (offer s r t lane c) = quiet s := by
  unfold offer
  simp

@[simp] theorem quiet_offerLog (s : State) (r : RidgeId) (t : T64) (rec : BitVec 64) : quiet (offerLog s r t rec) = quiet s := by
  unfold offerLog
  simp

@[simp] theorem quiet_writeSpecial (s : State) (r : RidgeId) (t : T64) (recs : List (BitVec 64)) (afterLoss : Bool) : quiet (writeSpecial s r t recs afterLoss) = quiet s := by
  unfold writeSpecial
  simp

@[simp] theorem quiet_takeDue (s : State) (r : RidgeId) (k : ℕ) (d : Due) (fits : Bool) : quiet (takeDue s r k d fits) = quiet s := by
  unfold takeDue
  (repeat' split) <;> simp_all [quiet_proj, quiet_mk]

@[simp] theorem quiet_takeTick (r : RidgeId) (k : ℕ) (x2 : List Due) (x3 : ℕ) (x4 : ℕ) (x5 : State) : quiet (takeTick r k x2 x3 x4 x5) = quiet x5 := by
  induction x2 generalizing x3 x4 x5 with
  | nil => rfl
  | cons d ds ih =>
    unfold takeTick
    (repeat' split) <;> simp_all

@[simp] theorem quiet_takeTicks (r : RidgeId) (x1 : ℕ) (x2 : List Due) (x3 : State) : quiet (takeTicks r x1 x2 x3) = quiet x3 := by
  induction x1 generalizing x2 x3 with
  | zero => rfl
  | succ n ih =>
    unfold takeTicks
    split
    · dsimp only; rw [ih]; simp
    · rfl

@[simp] theorem quiet_settleBefore (s : State) (r : RidgeId) (t : T64) : quiet (settleBefore s r t) = quiet s := by
  unfold settleBefore
  (repeat' split) <;> simp_all [quiet_proj, quiet_mk]

@[simp] theorem quiet_dueAnchor (s : State) (r : RidgeId) (before : T64) : quiet (dueAnchor s r before) = quiet s := by
  unfold dueAnchor
  (repeat' split) <;> simp_all [quiet_proj, quiet_mk]

@[simp] theorem quiet_settleStream (s : State) (r : RidgeId) : quiet (settleStream s r) = quiet s := by
  unfold settleStream
  simp
  (repeat' split) <;> simp_all [quiet_proj, quiet_mk]

@[simp] theorem quiet_siteFails (s : State) (n : ℕ) (k : Fin 64) : quiet (siteFails s n k) = quiet s := by
  unfold siteFails
  simp

@[simp] theorem quiet_logEntry (s : State) (r : RidgeId) (t : T64) (number : ℕ) (period : ℕ) (masked : Bool) (lanes : BitVec 16) (direct : Bool) : quiet (logEntry s r t number period masked lanes direct) = quiet s := by
  unfold logEntry
  simp

@[simp] theorem quiet_judgeList (r : RidgeId) (t : T64) (x2 : List Entry) (x3 : State) : quiet (judgeList r t x2 x3) = quiet x3 := by
  induction x2 generalizing x3 with
  | nil => simp [judgeList]
  | cons e es ih =>
    unfold judgeList
    ((repeat' split) <;> simp_all [quiet_proj, quiet_mk])

@[simp] theorem quiet_judgeTo (s : State) (r : RidgeId) (t : T64) : quiet (judgeTo s r t) = quiet s := by
  unfold judgeTo
  simp

@[simp] theorem quiet_judge (s : State) (r : RidgeId) : quiet (judge s r) = quiet s := by
  unfold judge
  simp

@[simp] theorem quiet_endWindow (s : State) (r : RidgeId) : quiet (endWindow s r) = quiet s := by
  unfold endWindow
  simp
  (repeat' split) <;> simp_all [quiet_proj, quiet_mk]

@[simp] theorem quiet_captureWindowEndEffect (r : RidgeId) (s : State) : quiet (captureWindowEndEffect r s) = quiet s := by
  unfold captureWindowEndEffect
  (repeat' split) <;> simp_all [quiet_proj, quiet_mk]

@[simp] theorem quiet_captureBlockTimeoutEffect (r : RidgeId) (s : State) : quiet (captureBlockTimeoutEffect r s) = quiet s := by
  unfold captureBlockTimeoutEffect
  simp
  (repeat' split) <;> simp_all [quiet_proj, quiet_mk]

@[simp] theorem quiet_anchorEffect (r : RidgeId) (s : State) : quiet (anchorEffect r s) = quiet s := by
  unfold anchorEffect
  simp

@[simp] theorem quiet_armStream (a : CapArgs) (num : BitVec 17) (nbr : ℕ) (s : State) (jr : ℕ × RidgeId) : quiet (armStream a num nbr s jr) = quiet s := by
  unfold armStream
  rcases h : allocFrames a.frames s with ⟨fs, t⟩
  have ht : quiet t = quiet s := quiet_eq1 (quiet_allocFrames ..) h
  simp [h, ht]

@[simp] theorem quiet_captureArmEffect (h : Hdr) (a : CapArgs) (s : State) : quiet (captureArmEffect h a s) = quiet s := by
  unfold captureArmEffect
  apply quiet_command
  intro s
  simp only []
  split
  · simp
  · simp only [quiet_replyAccepted]
    generalize List.map _ _ = l
    have : ∀ (l : List (Nat × RidgeId)) (u : State), quiet (l.foldl (armStream a (nextTicket s) (a.nb / (capRidges s h a).length)) u) = quiet u := by
      intro l
      induction l with
      | nil => intro u; rfl
      | cons x l ih => intro u; rw [List.foldl_cons, ih]; simp
    rw [this]; simp

@[simp] theorem quiet_ncoReset (s : State) (n : RidgeId) (t : T64) : quiet (ncoReset s n t) = quiet s := by
  unfold ncoReset
  simp

@[simp] theorem quiet_awgRun (s : State) (n : RidgeId) : quiet (awgRun s n) = quiet s := by
  unfold awgRun
  (repeat' split) <;> simp_all [quiet_proj, quiet_mk]

@[simp] theorem quiet_armAwg (s : State) (n : RidgeId) (t : T64) (withRidge : Bool) : quiet (armAwg s n t withRidge) = quiet s := by
  unfold armAwg
  simp

@[simp] theorem quiet_stopAwg (s : State) (n : RidgeId) : quiet (stopAwg s n) = quiet s := by
  unfold stopAwg
  simp

@[simp] theorem quiet_stopWithRidge (s : State) (r : RidgeId) : quiet (stopWithRidge s r) = quiet s := by
  unfold stopWithRidge
  simp

@[simp] theorem quiet_awgStartEffect (n : RidgeId) (s : State) : quiet (awgStartEffect n s) = quiet s := by
  unfold awgStartEffect
  (repeat' split) <;> simp_all [quiet_proj, quiet_mk]

@[simp] theorem quiet_frameFault (s : State) (frame : ℕ) (rollback : State → State) (h_rollback : ∀ s, quiet (rollback s) = quiet s) : quiet (frameFault s frame rollback) = quiet s := by
  unfold frameFault
  (repeat' split) <;> simp_all [quiet_proj, quiet_mk]

@[simp] theorem quiet_awgRead (s : State) (h : Handle) (read : Secded) : quiet (awgRead s h read) = quiet s := by
  unfold awgRead
  (repeat' split) <;> simp_all [quiet_proj, quiet_mk]

@[simp] theorem quiet_awgMove (s : State) (n : RidgeId) (next : Handle) (at_ : T64) : quiet (awgMove s n next at_) = quiet s := by
  unfold awgMove
  (repeat' split) <;> simp_all [quiet_proj, quiet_mk]

@[simp] theorem quiet_awgSegmentEndEffect (n : RidgeId) (read : Secded) (s : State) : quiet (awgSegmentEndEffect n read s) = quiet s := by
  unfold awgSegmentEndEffect
  simp
  (repeat' split) <;> simp_all [quiet_proj, quiet_mk]

@[simp] theorem quiet_armAcq (s : State) (h : Hdr) (n : RidgeId) (a : AcqArgs) (t : T64) : quiet (armAcq s h n a t) = quiet s := by
  unfold armAcq
  simp

@[simp] theorem quiet_acqArmEffect (h : Hdr) (a : AcqArgs) (s : State) : quiet (acqArmEffect h a s) = quiet s := by
  unfold acqArmEffect
  apply quiet_command
  intro s
  simp only []
  (repeat' split) <;> simp_all [quiet_proj, quiet_mk]

@[simp] theorem quiet_modAcq (s : State) (n : RidgeId) (f : Acq → Acq) : quiet (modAcq s n f) = quiet s := by
  unfold modAcq
  simp

@[simp] theorem quiet_markRange (s : State) (n : RidgeId) (l : List (BitVec 16)) : quiet (markRange s n l) = quiet s := by
  unfold markRange
  simp

@[simp] theorem quiet_acqStartEffect (n : RidgeId) (s : State) : quiet (acqStartEffect n s) = quiet s := by
  unfold acqStartEffect
  (repeat' split) <;> simp_all [quiet_proj, quiet_mk]

@[simp] theorem quiet_adcTick (s : State) (n : RidgeId) : quiet (adcTick s n) = quiet s := by
  unfold adcTick
  (repeat' split) <;> simp_all [quiet_proj, quiet_mk]

@[simp] theorem quiet_passOver (s : State) (n : RidgeId) (index : ℕ) : quiet (passOver s n index) = quiet s := by
  unfold passOver
  simp

@[simp] theorem quiet_acqEvent (s : State) (n : RidgeId) : quiet (acqEvent s n) = quiet s := by
  unfold acqEvent
  (repeat' split) <;> simp_all [quiet_proj, quiet_mk]

@[simp] theorem quiet_acceptTrigger (s : State) (n : RidgeId) (a : Acq) (t : T64) (index : ℕ) (interp : Bool) : quiet (acceptTrigger s n a t index interp) = quiet s := by
  unfold acceptTrigger
  simp

@[simp] theorem quiet_analogTriggerEffect (n : RidgeId) (s0 : BitVec 16) (s1 : BitVec 16) (index : ℕ) (arm : ℕ) (x : BitVec 16) (s : State) : quiet (analogTriggerEffect n s0 s1 index arm x s) = quiet s := by
  unfold analogTriggerEffect
  simp
  (repeat' split) <;> simp_all [quiet_proj, quiet_mk]

@[simp] theorem quiet_triggerHoldoffEndEffect (n : RidgeId) (s : State) : quiet (triggerHoldoffEndEffect n s) = quiet s := by
  unfold triggerHoldoffEndEffect
  (repeat' split) <;> simp_all [quiet_proj, quiet_mk]

@[simp] theorem quiet_finishEmpty (s : State) (n : RidgeId) (a : Acq) : quiet (finishEmpty s n a) = quiet s := by
  unfold finishEmpty
  (repeat' split) <;> simp_all [quiet_proj, quiet_mk]

@[simp] theorem quiet_recordCompleteEffect (n : RidgeId) (samples : List (BitVec 16)) (s : State) : quiet (recordCompleteEffect n samples s) = quiet s := by
  unfold recordCompleteEffect
  (repeat' split) <;> simp_all [quiet_proj, quiet_mk]

@[simp] theorem quiet_streamBlock (s : State) (n : RidgeId) (a : Acq) (raw : List (BitVec 16)) (ends : Bool) : quiet (streamBlock s n a raw ends) = quiet s := by
  unfold streamBlock
  simp

@[simp] theorem quiet_acqPostEndEffect (n : RidgeId) (samples : List (BitVec 16)) (s : State) : quiet (acqPostEndEffect n samples s) = quiet s := by
  unfold acqPostEndEffect
  (repeat' split) <;> simp_all [quiet_proj, quiet_mk]

@[simp] theorem quiet_analogBlockCompleteEffect (n : RidgeId) (samples : List (BitVec 16)) (s : State) : quiet (analogBlockCompleteEffect n samples s) = quiet s := by
  unfold analogBlockCompleteEffect
  (repeat' split) <;> simp_all [quiet_proj, quiet_mk]

@[simp] theorem quiet_stopAcq (s : State) (n : RidgeId) : quiet (stopAcq s n) = quiet s := by
  unfold stopAcq
  (repeat' split) <;> simp_all [quiet_proj, quiet_mk]

@[simp] theorem quiet_regionFault (s : State) (frame : ℕ) (num : BitVec 17) : quiet (regionFault s frame num) = quiet s := by
  unfold regionFault
  simp

@[simp] theorem quiet_popBlock (s : State) (r : RidgeId) (num : BitVec 17) : quiet (popBlock s r num) = quiet s := by
  unfold popBlock
  simp

@[simp] theorem quiet_popAnalog (s : State) (n : RidgeId) (num : BitVec 17) : quiet (popAnalog s n num) = quiet s := by
  unfold popAnalog
  simp

@[simp] theorem quiet_leaveRegion (s : State) (w : WaitPkt) : quiet (leaveRegion s w) = quiet s := by
  unfold leaveRegion
  (repeat' split) <;> simp_all [quiet_proj, quiet_mk]

@[simp] theorem quiet_admitPkt (s : State) (id : ℕ) (w : WaitPkt) : quiet (admitPkt s id w) = quiet s := by
  unfold admitPkt
  simp

@[simp] theorem quiet_submitBlock (s : State) (id : ℕ) (w : WaitPkt) : quiet (submitBlock s id w) = quiet s := by
  unfold submitBlock
  simp

@[simp] theorem quiet_packetAdmissionEffect (id : BitVec 14) (s : State) : quiet (packetAdmissionEffect id s) = quiet s := by
  unfold packetAdmissionEffect
  (repeat' split) <;> simp_all [quiet_proj, quiet_mk]

@[simp] theorem quiet_regionRead (s : State) (read : Secded) (frame : ℕ) (num : BitVec 17) (go : State → State) (h_go : ∀ s, quiet (go s) = quiet s) : quiet (regionRead s read frame num go) = quiet s := by
  unfold regionRead
  (repeat' split) <;> simp_all [quiet_proj, quiet_mk]

@[simp] theorem quiet_analogBlockCopyEffect (n : RidgeId) (read : Secded) (s : State) : quiet (analogBlockCopyEffect n read s) = quiet s := by
  unfold analogBlockCopyEffect
  (repeat' split) <;> simp_all [quiet_proj, quiet_mk]

@[simp] theorem quiet_captureBlockCopyEffect (r : RidgeId) (read : Secded) (s : State) : quiet (captureBlockCopyEffect r read s) = quiet s := by
  unfold captureBlockCopyEffect
  (repeat' split) <;> simp_all [quiet_proj, quiet_mk]

@[simp] theorem quiet_applySwap (s : State) (r : RidgeId) (t : T64) : quiet (applySwap s r t) = quiet s := by
  unfold applySwap
  simp

@[simp] theorem quiet_idleSwap (s : State) (r : RidgeId) (t : T64) : quiet (idleSwap s r t) = quiet s := by
  unfold idleSwap
  simp

@[simp] theorem quiet_endRun (s : State) (r : RidgeId) (t : T64) : quiet (endRun s r t) = quiet s := by
  unfold endRun
  simp

@[simp] theorem quiet_cancelLaunch (s : State) (r : RidgeId) : quiet (cancelLaunch s r) = quiet s := by
  unfold cancelLaunch
  simp

@[simp] theorem quiet_stopRidge (s : State) (r : RidgeId) : quiet (stopRidge s r) = quiet s := by
  unfold stopRidge
  (repeat' split) <;> simp_all [quiet_proj, quiet_mk]

@[simp] theorem quiet_rollbackQueues (s : State) (rs : List RidgeId) (status : ℕ) : quiet (rollbackQueues s rs status) = quiet s := by
  unfold rollbackQueues
  simp

@[simp] theorem quiet_rollbackRidges (s : State) (rs : List RidgeId) (status : ℕ) : quiet (rollbackRidges s rs status) = quiet s := by
  unfold rollbackRidges
  simp

@[simp] theorem quiet_abortGang (r : RidgeId) (s : State) : quiet (abortGang r s) = quiet s := by
  unfold abortGang
  simp only [quiet_serveWaits]
  rw [quiet_each _ _ _ (fun s n => quiet_stopAwg s n), quiet_each, quiet_rollbackRidges, quiet_each]
  · intro s r; ((repeat' split) <;> simp_all [quiet_proj, quiet_mk])
  · intro s r; ((repeat' split) <;> simp_all [quiet_proj, quiet_mk])

@[simp] theorem quiet_ridgeFault (s : State) (r : RidgeId) (det : ℕ) (detail : Option ℕ) (injected : Bool) : quiet (ridgeFault s r det detail injected) = quiet s := by
  unfold ridgeFault
  simp

@[simp] theorem quiet_abortSite (k : Fin 64) (s : State) : quiet (abortSite k s) = quiet s := by
  unfold abortSite
  simp

@[simp] theorem quiet_releaseBoundary (s : State) (g : List RidgeId) : quiet (releaseBoundary s g) = quiet s := by
  unfold releaseBoundary
  simp

@[simp] theorem quiet_enterHold (s : State) (g : List RidgeId) : quiet (enterHold s g) = quiet s := by
  unfold enterHold
  simp

@[simp] theorem quiet_crossBoundary (s : State) (r : RidgeId) : quiet (crossBoundary s r) = quiet s := by
  unfold crossBoundary
  simp
  (repeat' split) <;> simp_all [quiet_proj, quiet_mk]

@[simp] theorem quiet_crossIfDue (s : State) (r : RidgeId) : quiet (crossIfDue s r) = quiet s := by
  unfold crossIfDue
  simp

@[simp] theorem quiet_reachBoundary (s : State) (r : RidgeId) : quiet (reachBoundary s r) = quiet s := by
  unfold reachBoundary
  simp

@[simp] theorem quiet_goTo (s : State) (r : RidgeId) (a : Addr) (declared : Bool) : quiet (goTo s r a declared) = quiet s := by
  unfold goTo
  simp

@[simp] theorem quiet_startQuiet (s : State) : quiet (startQuiet s) = quiet s := by
  unfold startQuiet
  simp [quiet_proj, quiet_mk]

@[simp] theorem quiet_enterSafe (s : State) : quiet (enterSafe s) = quiet s := by
  unfold enterSafe
  simp [quiet_proj, quiet_mk]

@[simp] theorem quiet_fatal (s : State) (bit : Fin 64) (det : ℕ) (level : Bool) (injected : Bool) : quiet (fatal s bit det level injected) = quiet s := by
  unfold fatal
  simp
  (repeat' split) <;> simp_all [quiet_proj, quiet_mk]

@[simp] theorem quiet_parkCheck (s : State) : quiet (parkCheck s) = quiet s := by
  unfold parkCheck
  simp

@[simp] theorem quiet_fatalDeferred (s : State) (bit : Fin 64) (det : ℕ) (injected : Bool) : quiet (fatalDeferred s bit det injected) = quiet s := by
  unfold fatalDeferred
  (repeat' split) <;> simp_all [quiet_proj, quiet_mk]

@[simp] theorem quiet_parkWaitExpiryEffect (s : State) : quiet (parkWaitExpiryEffect s) = quiet s := by
  unfold parkWaitExpiryEffect
  simp

@[simp] theorem quiet_driveLane (r : RidgeId) (t : TimingSet) (v : Vec) (s : State) (l : Fin 16) : quiet (driveLane r t v s l) = quiet s := by
  unfold driveLane
  simp

@[simp] theorem quiet_vectorPeriod (s : State) (r : RidgeId) (v : Vec) (isRep : Bool) : quiet (vectorPeriod s r v isRep) = quiet s := by
  unfold vectorPeriod
  simp

@[simp] theorem quiet_advance (s : State) (r : RidgeId) (v : Vec) : quiet (advance s r v) = quiet s := by
  unfold advance
  simp

@[simp] theorem quiet_crossLeft (s : State) (x1 : List RidgeId) : quiet (crossLeft s x1) = quiet s := by
  unfold crossLeft
  ((repeat' split) <;> simp_all [quiet_proj, quiet_mk])

@[simp] theorem quiet_leaveGang (s : State) (r : RidgeId) : quiet (leaveGang s r) = quiet s := by
  unfold leaveGang
  simp

@[simp] theorem quiet_parkRidge (s : State) (r : RidgeId) : quiet (parkRidge s r) = quiet s := by
  unfold parkRidge
  simp

@[simp] theorem quiet_vecEnd (s : State) (r : RidgeId) : quiet (vecEnd s r) = quiet s := by
  unfold vecEnd
  simp
  (repeat' split) <;> simp_all [quiet_proj, quiet_mk]

@[simp] theorem quiet_endWith (s : State) (r : RidgeId) (a : After) : quiet (endWith s r a) = quiet s := by
  unfold endWith
  simp

@[simp] theorem quiet_follow (s : State) (r : RidgeId) (f : Flow) : quiet (follow s r f) = quiet s := by
  unfold follow
  (repeat' split) <;> simp_all [quiet_proj, quiet_mk]

@[simp] theorem quiet_endMatchOne (timeout : Bool) (s : State) (q : RidgeId) : quiet (endMatchOne timeout s q) = quiet s := by
  unfold endMatchOne
  (repeat' split) <;> simp_all [quiet_proj, quiet_mk]

@[simp] theorem quiet_settleMatch (s : State) (r : RidgeId) : quiet (settleMatch s r).1 = quiet s := by
  unfold settleMatch
  (repeat' split) <;> simp_all [quiet_proj, quiet_mk]

@[simp] theorem quiet_withVector (s : State) (r : RidgeId) (parity : Bool) (op : ℕ → Bool) (body : Vec → State → State) (h_body : ∀ v s, quiet (body v s) = quiet s) : quiet (withVector s r parity op body) = quiet s := by
  unfold withVector
  split
  · rfl
  · simp only []
    split
    · rfl
    · split
      · simp
      · split
        · rfl
        · have hp := quiet_accessInject s (Fin.castLE (by decide) r)
          split
          · simpa using quiet_eq2 hp ‹_›
          · simpa [h_body] using quiet_eq2 hp ‹_›

@[simp] theorem quiet_plainVector (r : RidgeId) (adv : Bool) (act : Vec → State → State) (flow : Vec → State → Flow) (v : Vec) (s : State) (h_act : ∀ v s, quiet (act v s) = quiet s) : quiet (plainVector r adv act flow v s) = quiet s := by
  unfold plainVector
  (repeat' split) <;> simp_all [quiet_proj, quiet_mk]

@[simp] theorem quiet_noAct (x0 : Vec) (x1 : State) : quiet (noAct x0 x1) = quiet x1 := by
  rfl

@[simp] theorem quiet_nopEffect (r : RidgeId) (parity : Bool) (s : State) : quiet (nopEffect r parity s) = quiet s := by
  unfold nopEffect
  apply quiet_withVector
  intro v s
  ((repeat' split) <;> simp_all [quiet_proj, quiet_mk])

@[simp] theorem quiet_repeatEffect (r : RidgeId) (s : State) : quiet (repeatEffect r s) = quiet s := by
  unfold repeatEffect
  simp

@[simp] theorem quiet_stackFault (s : State) (r : RidgeId) : quiet (stackFault s r) = quiet s := by
  unfold stackFault
  simp

@[simp] theorem quiet_loopBeginEffect (r : RidgeId) (s : State) : quiet (loopBeginEffect r s) = quiet s := by
  unfold loopBeginEffect
  simp

@[simp] theorem quiet_loopEndEffect (r : RidgeId) (s : State) : quiet (loopEndEffect r s) = quiet s := by
  unfold loopEndEffect
  apply quiet_withVector
  intro v s
  ((repeat' split) <;> simp_all [quiet_proj, quiet_mk])

@[simp] theorem quiet_loopExitEffect (r : RidgeId) (s : State) : quiet (loopExitEffect r s) = quiet s := by
  unfold loopExitEffect
  simp

@[simp] theorem quiet_jumpEffect (r : RidgeId) (s : State) : quiet (jumpEffect r s) = quiet s := by
  unfold jumpEffect
  apply quiet_withVector
  intro v s
  ((repeat' split) <;> simp_all [quiet_proj, quiet_mk])

@[simp] theorem quiet_callEffect (r : RidgeId) (s : State) : quiet (callEffect r s) = quiet s := by
  unfold callEffect
  simp

@[simp] theorem quiet_retEffect (r : RidgeId) (s : State) : quiet (retEffect r s) = quiet s := by
  unfold retEffect
  apply quiet_withVector
  intro v s
  ((repeat' split) <;> simp_all [quiet_proj, quiet_mk])

@[simp] theorem quiet_jumpFailEffect (r : RidgeId) (s : State) : quiet (jumpFailEffect r s) = quiet s := by
  unfold jumpFailEffect
  apply quiet_withVector
  intro v s
  ((repeat' split) <;> simp_all [quiet_proj, quiet_mk])

@[simp] theorem quiet_jumpPassEffect (r : RidgeId) (s : State) : quiet (jumpPassEffect r s) = quiet s := by
  unfold jumpPassEffect
  apply quiet_withVector
  intro v s
  ((repeat' split) <;> simp_all [quiet_proj, quiet_mk])

@[simp] theorem quiet_jumpTimeoutEffect (r : RidgeId) (s : State) : quiet (jumpTimeoutEffect r s) = quiet s := by
  unfold jumpTimeoutEffect
  apply quiet_withVector
  intro v s
  ((repeat' split) <;> simp_all [quiet_proj, quiet_mk])

@[simp] theorem quiet_clrFailEffect (r : RidgeId) (s : State) : quiet (clrFailEffect r s) = quiet s := by
  unfold clrFailEffect
  simp

@[simp] theorem quiet_matchEffect (r : RidgeId) (s : State) : quiet (matchEffect r s) = quiet s := by
  unfold matchEffect
  simp

@[simp] theorem quiet_matchEndEffect (r : RidgeId) (s : State) : quiet (matchEndEffect r s) = quiet s := by
  unfold matchEndEffect
  simp

@[simp] theorem quiet_apgLoadEffect (r : RidgeId) (s : State) : quiet (apgLoadEffect r s) = quiet s := by
  unfold apgLoadEffect
  simp

@[simp] theorem quiet_apgOpEffect (r : RidgeId) (s : State) : quiet (apgOpEffect r s) = quiet s := by
  unfold apgOpEffect
  simp

@[simp] theorem quiet_signalEffect (r : RidgeId) (s : State) : quiet (signalEffect r s) = quiet s := by
  unfold signalEffect
  simp

@[simp] theorem quiet_checkpointEffect (r : RidgeId) (s : State) : quiet (checkpointEffect r s) = quiet s := by
  unfold checkpointEffect
  apply quiet_withVector
  intro v s
  simp only []
  split
  · simp
  · split <;> simp

@[simp] theorem quiet_haltOpcodeEffect (r : RidgeId) (s : State) : quiet (haltOpcodeEffect r s) = quiet s := by
  unfold haltOpcodeEffect
  apply quiet_withVector
  intro v s
  ((repeat' split) <;> simp_all [quiet_proj, quiet_mk])

@[simp] theorem quiet_illegalOpcodeEffect (r : RidgeId) (s : State) : quiet (illegalOpcodeEffect r s) = quiet s := by
  unfold illegalOpcodeEffect
  simp

@[simp] theorem quiet_armLaunch (s : State) (g : List RidgeId) (resume : Bool) (t : T64) : quiet (armLaunch s g resume t) = quiet s := by
  unfold armLaunch
  simp

@[simp] theorem quiet_launchEffect (h : Hdr) (resume : Bool) (bySite : Bool) (site : Byte) (mask : BitVec 16) (s : State) : quiet (launchEffect h resume bySite site mask s) = quiet s := by
  unfold launchEffect
  apply quiet_command
  intro s
  ((repeat' split) <;> simp_all [quiet_proj, quiet_mk])

@[simp] theorem quiet_startOne (k : ℕ) (s : State) (r : RidgeId) : quiet (startOne k s r) = quiet s := by
  unfold startOne
  simp
  (repeat' split) <;> simp_all [quiet_proj, quiet_mk]

@[simp] theorem quiet_launchTickEffect (r : RidgeId) (s : State) : quiet (launchTickEffect r s) = quiet s := by
  unfold launchTickEffect
  simp

@[simp] theorem quiet_postPark (s : State) (r : RidgeId) : quiet (postPark s r) = quiet s := by
  unfold postPark
  simp

@[simp] theorem quiet_haltNow (s : State) (r : RidgeId) : quiet (haltNow s r) = quiet s := by
  unfold haltNow
  (repeat' split) <;> simp_all [quiet_proj, quiet_mk]

@[simp] theorem quiet_haltEffect (h : Hdr) (park : Bool) (bySite : Bool) (site : Byte) (mask : BitVec 16) (s : State) : quiet (haltEffect h park bySite site mask s) = quiet s := by
  unfold haltEffect
  apply quiet_command
  intro s
  ((repeat' split) <;> simp_all [quiet_proj, quiet_mk])

@[simp] theorem quiet_haltAtBoundaryEffect (r : RidgeId) (s : State) : quiet (haltAtBoundaryEffect r s) = quiet s := by
  unfold haltAtBoundaryEffect
  simp
  (repeat' split) <;> simp_all [quiet_proj, quiet_mk]

@[simp] theorem quiet_eventJumpArmEffect (h : Hdr) (source : Byte) (disarm : Bool) (target : Word) (s : State) : quiet (eventJumpArmEffect h source disarm target s) = quiet s := by
  unfold eventJumpArmEffect
  apply quiet_command
  intro s
  ((repeat' split) <;> simp_all [quiet_proj, quiet_mk])

@[simp] theorem quiet_ridgeEvent (s : State) (src : ℕ) (r : RidgeId) : quiet (ridgeEvent s src r) = quiet s := by
  unfold ridgeEvent
  (repeat' split) <;> simp_all [quiet_proj, quiet_mk]

@[simp] theorem quiet_eventJumpLatchEffect (r : RidgeId) (s : State) : quiet (eventJumpLatchEffect r s) = quiet s := by
  unfold eventJumpLatchEffect
  simp
  (repeat' split) <;> simp_all [quiet_proj, quiet_mk]

@[simp] theorem quiet_eventJumpEffect (r : RidgeId) (s : State) : quiet (eventJumpEffect r s) = quiet s := by
  unfold eventJumpEffect
  simp

@[simp] theorem quiet_putSets (s : State) (r : RidgeId) (bank : Fin 2) (first : ℕ) (ts : List SetRecord) : quiet (putSets s r bank first ts) = quiet s := by
  unfold putSets
  generalize ts.zipIdx = l
  induction l generalizing s with
  | nil => rfl
  | cons x l ih => rw [List.foldl_cons, ih]; simp

@[simp] theorem quiet_pedieInject (s : State) (r : RidgeId) : quiet (pedieInject s r) = quiet s := by
  unfold pedieInject
  simp only []
  have hp := quiet_accessInject s (Fin.ofNat 64 (16 + r.val / 4))
  split
  · exact quiet_eq2 hp ‹_›
  · simpa using quiet_eq2 hp ‹_›
  · simpa using quiet_eq2 hp ‹_›

@[simp] theorem quiet_timingWriteEffect (h : Hdr) (bank : Byte) (first : Byte) (count : Byte) (records : List SetRecord) (s : State) : quiet (timingWriteEffect h bank first count records s) = quiet s := by
  unfold timingWriteEffect
  apply quiet_command
  intro s
  simp only []
  split
  · simp
  · split
    · simp
    · split
      · simp
      · split <;> simp

@[simp] theorem quiet_timingSwapEffect (h : Hdr) (s : State) : quiet (timingSwapEffect h s) = quiet s := by
  unfold timingSwapEffect
  simp

@[simp] theorem quiet_timingSwapApplyEffect (r : RidgeId) (s : State) : quiet (timingSwapApplyEffect r s) = quiet s := by
  unfold timingSwapApplyEffect
  simp

@[simp] theorem quiet_timingCopyDoneEffect (r : RidgeId) (s : State) : quiet (timingCopyDoneEffect r s) = quiet s := by
  unfold timingCopyDoneEffect
  simp

@[simp] theorem quiet_owlFactorApplyEffect (r : RidgeId) (s : State) : quiet (owlFactorApplyEffect r s) = quiet s := by
  unfold owlFactorApplyEffect
  simp

@[simp] theorem quiet_copyArrives (s : State) (r : RidgeId) (h : Handle) (due : ℕ) : quiet (copyArrives s r h due) = quiet s := by
  unfold copyArrives
  simp

@[simp] theorem quiet_fetchFails (s : State) (r : RidgeId) (h : Handle) (injected : Bool) : quiet (fetchFails s r h injected) = quiet s := by
  unfold fetchFails
  simp

@[simp] theorem quiet_slotWrite (s : State) (r : RidgeId) (h : Handle) (due : ℕ) : quiet (slotWrite s r h due) = quiet s := by
  unfold slotWrite
  have hp := quiet_accessInject s 23
  split
  · simpa using quiet_eq2 hp ‹_›
  · simpa using quiet_eq2 hp ‹_›
  · simpa using quiet_eq2 hp ‹_›

@[simp] theorem quiet_stageRead (s : State) (r : RidgeId) (h : Handle) (due : ℕ) (read : Secded) : quiet (stageRead s r h due read) = quiet s := by
  unfold stageRead
  dsimp only
  have hp := quiet_accessInject s 20
  split
  · simpa using quiet_eq2 hp ‹_›
  · simpa using quiet_eq2 hp ‹_›
  · rename_i s1 h1
    have e1 := quiet_eq2 hp h1
    have hq := quiet_accessInject s1 21
    split
    · simpa [e1] using quiet_eq2 hq ‹_›
    · simpa [e1] using quiet_eq2 hq ‹_›
    · rename_i s2 h2
      have e2 := (quiet_eq2 hq h2).trans e1
      split <;> simpa using e2

@[simp] theorem quiet_stagingFetchDoneEffect (r : RidgeId) (h : Handle) (read : Secded) (s : State) : quiet (stagingFetchDoneEffect r h read s) = quiet s := by
  unfold stagingFetchDoneEffect
  simp
  (repeat' split) <;> simp_all [quiet_proj, quiet_mk]

@[simp] theorem quiet_holdResumeEffect (r : RidgeId) (s : State) : quiet (holdResumeEffect r s) = quiet s := by
  unfold holdResumeEffect
  simp
  (repeat' split) <;> simp_all [quiet_proj, quiet_mk]

@[simp] theorem quiet_holdTimeoutEffect (r : RidgeId) (s : State) : quiet (holdTimeoutEffect r s) = quiet s := by
  unfold holdTimeoutEffect
  simp

@[simp] theorem quiet_pullAsSet (s : State) (p : PinId) : quiet (pullAsSet s p) = quiet s := by
  unfold pullAsSet
  simp

@[simp] theorem quiet_startModeChange (s : State) (p : PinId) (from_ : ℕ) : quiet (startModeChange s p from_) = quiet s := by
  unfold startModeChange
  simp

@[simp] theorem quiet_compareAt (s : State) (p : PinId) (v : ℤ) : quiet (compareAt s p v).2 = quiet s := by
  unfold compareAt
  simp

@[simp] theorem quiet_pinModeDoneEffect (p : PinId) (v : ℤ) (s : State) : quiet (pinModeDoneEffect p v s) = quiet s := by
  unfold pinModeDoneEffect
  simp
  (repeat' split) <;> simp_all [quiet_proj, quiet_mk]

@[simp] theorem quiet_driverOvercurrentEffect (p : PinId) (s : State) : quiet (driverOvercurrentEffect p s) = quiet s := by
  unfold driverOvercurrentEffect
  simp
  (repeat' split) <;> simp_all [quiet_proj, quiet_mk]

@[simp] theorem quiet_pmuComplianceEffect (p : PinId) (s : State) : quiet (pmuComplianceEffect p s) = quiet s := by
  unfold pmuComplianceEffect
  simp

@[simp] theorem quiet_pmuComplianceEndEffect (p : PinId) (s : State) : quiet (pmuComplianceEndEffect p s) = quiet s := by
  unfold pmuComplianceEndEffect
  simp

@[simp] theorem quiet_comparatorTransitionEffect (p : PinId) (v : ℤ) (t : T64) (s : State) : quiet (comparatorTransitionEffect p v t s) = quiet s := by
  unfold comparatorTransitionEffect
  simp
  (repeat' split) <;> simp_all [quiet_proj, quiet_mk]

@[simp] theorem quiet_boosterFaultEffect (n : RidgeId) (s : State) : quiet (boosterFaultEffect n s) = quiet s := by
  unfold boosterFaultEffect
  simp

@[simp] theorem quiet_strike (s : State) (b : Fin 64) (double : State → State) (h_double : ∀ s, quiet (double s) = quiet s) : quiet (strike s b double) = quiet s := by
  unfold strike
  have hp := quiet_accessInject s b
  split
  · exact quiet_eq2 hp ‹_›
  · simpa using quiet_eq2 hp ‹_›
  · simpa [h_double] using quiet_eq2 hp ‹_›

@[simp] theorem quiet_ticketWrite (s : State) (t : State) : quiet (ticketWrite s t) = quiet t := by
  unfold ticketWrite
  split
  · rfl
  · apply quiet_strike; intro u; simp

@[simp] theorem quiet_martenWrite (s : State) (t : State) : quiet (martenWrite s t) = quiet t := by
  unfold martenWrite
  split
  · rfl
  · apply quiet_strike; intro u; simp

@[simp] theorem quiet_phyCommand (s : State) (t : State) : quiet (phyCommand s t) = quiet t := by
  unfold phyCommand
  ((repeat' split) <;> simp_all [quiet_proj, quiet_mk])

@[simp] theorem quiet_peerResetB (s : State) (cs : List ℕ) : quiet (peerResetB s cs) = quiet s := by
  unfold peerResetB
  simp

@[simp] theorem quiet_peerResetA (s : State) (cs : List ℕ) : quiet (peerResetA s cs) = quiet s := by
  unfold peerResetA
  simp

@[simp] theorem quiet_idleCol (s : State) (c : ℕ) : quiet (idleCol s c) = quiet s := by
  unfold idleCol
  simp [quiet_proj, quiet_mk]

@[simp] theorem quiet_idleCols (s : State) (cs : List ℕ) : quiet (idleCols s cs) = quiet s := by
  unfold idleCols
  simp

@[simp] theorem quiet_loseEvents (s : State) (cs : List ℕ) : quiet (loseEvents s cs) = quiet s := by
  unfold loseEvents
  simp [quiet_proj, quiet_mk]

@[simp] theorem quiet_strapWords (s : State) : (quiet (strapWords s)).now = (quiet s).now ∧ (quiet (strapWords s)).ticks = (quiet s).ticks ∧ (quiet (strapWords s)).boot = (quiet s).boot ∧ (quiet (strapWords s)).flash = (quiet s).flash ∧ (quiet (strapWords s)).working = (quiet s).working ∧ (quiet (strapWords s)).sites = (quiet s).sites ∧ (quiet (strapWords s)).routes = (quiet s).routes ∧ (quiet (strapWords s)).cal = (quiet s).cal ∧ (quiet (strapWords s)).sensors = (quiet s).sensors ∧ (quiet (strapWords s)).smons = (quiet s).smons ∧ (quiet (strapWords s)).pmons = (quiet s).pmons ∧ (quiet (strapWords s)).owl = (quiet s).owl ∧ (quiet (strapWords s)).csps = (quiet s).csps ∧ (quiet (strapWords s)).xip = (quiet s).xip ∧ (quiet (strapWords s)).pending = (quiet s).pending := by
  unfold strapWords
  simp [quiet_proj, quiet_mk]

@[simp] theorem quiet_senseFuses (s : State) : quiet (senseFuses s) = quiet s := by
  unfold senseFuses
  simp

@[simp] theorem quiet_porReleaseEffect (z : Straps) (f : Fuses) (s : State) : (quiet (porReleaseEffect z f s)).now = (quiet s).now ∧ (quiet (porReleaseEffect z f s)).ticks = (quiet s).ticks ∧ (quiet (porReleaseEffect z f s)).flash = (quiet s).flash ∧ (quiet (porReleaseEffect z f s)).working = (quiet s).working ∧ (quiet (porReleaseEffect z f s)).sites = (quiet s).sites ∧ (quiet (porReleaseEffect z f s)).routes = (quiet s).routes ∧ (quiet (porReleaseEffect z f s)).cal = (quiet s).cal ∧ (quiet (porReleaseEffect z f s)).sensors = (quiet s).sensors ∧ (quiet (porReleaseEffect z f s)).smons = (quiet s).smons ∧ (quiet (porReleaseEffect z f s)).pmons = (quiet s).pmons ∧ (quiet (porReleaseEffect z f s)).owl = (quiet s).owl ∧ (quiet (porReleaseEffect z f s)).csps = (quiet s).csps ∧ (quiet (porReleaseEffect z f s)).xip = (quiet s).xip ∧ (quiet (porReleaseEffect z f s)).pending = (quiet s).pending := by
  unfold porReleaseEffect
  split
  · simp
  · simp only [quiet_senseFuses, quiet_strapWords]
    simp [quiet_proj, quiet_mk]

@[simp] theorem quiet_resetRidge (s : State) (r : RidgeId) : quiet (resetRidge s r) = quiet s := by
  unfold resetRidge
  simp

@[simp] theorem quiet_ridgeResetReleaseEffect (r : RidgeId) (s : State) : quiet (ridgeResetReleaseEffect r s) = quiet s := by
  unfold ridgeResetReleaseEffect
  simp

@[simp] theorem quiet_clearOnRead (s : State) (i : ℕ) : quiet (clearOnRead s i) = quiet s := by
  unfold clearOnRead
  (repeat' split) <;> simp_all [quiet_proj, quiet_mk]

@[simp] theorem quiet_readWord (s : State) (k : ℕ) (i : ℕ) : quiet (readWord s k i).2 = quiet s := by
  unfold readWord
  simp
  (repeat' split) <;> simp_all [quiet_proj, quiet_mk]

@[simp] theorem quiet_readWords (k : ℕ) (x1 : ℕ) (x2 : ℕ) (x3 : State) : quiet (readWords k x1 x2 x3).2 = quiet x3 := by
  induction x1 generalizing x2 x3 with
  | zero => rfl
  | succ m ih =>
    unfold readWords
    have h1 := quiet_readWord x3 k x2
    have h2 := ih (x2 + 1) (readWord x3 k x2).2
    exact h2.trans h1

@[simp] theorem quiet_windowRead (s : State) (k : ℕ) (i : ℕ) : quiet (windowRead s k i).2 = quiet s := by
  unfold windowRead
  (repeat' split) <;> simp_all [quiet_proj, quiet_mk]

@[simp] theorem quiet_markSat (s : State) (p : PinId) (items : List ℕ) : quiet (markSat s p items) = quiet s := by
  unfold markSat
  simp

@[simp] theorem quiet_pinLevelWrite (s : State) (p : PinId) (w : ℕ) (v : ℕ) : quiet (pinLevelWrite s p w v) = quiet s := by
  unfold pinLevelWrite
  simp

@[simp] theorem quiet_pinPmuCfgWrite (s : State) (p : PinId) (v : ℕ) : quiet (pinPmuCfgWrite s p v) = quiet s := by
  unfold pinPmuCfgWrite
  simp

@[simp] theorem quiet_pinWrite (s : State) (p : PinId) (w : ℕ) (v : ℕ) : quiet (pinWrite s p w v) = quiet s := by
  unfold pinWrite
  simp

@[simp] theorem quiet_dpsLevelWrite (s : State) (n : RidgeId) (v : ℕ) : quiet (dpsLevelWrite s n v) = quiet s := by
  unfold dpsLevelWrite
  simp

@[simp] theorem quiet_dpsRecode (s : State) (n : RidgeId) (a : ℕ × ℕ) (b : ℕ × ℕ) (level : Bool) : quiet (dpsRecode s n a b level) = quiet s := by
  unfold dpsRecode
  simp

@[simp] theorem quiet_dpsCfgWrite (s : State) (n : RidgeId) (v : ℕ) : quiet (dpsCfgWrite s n v) = quiet s := by
  unfold dpsCfgWrite
  simp

@[simp] theorem quiet_dpsWrite (s : State) (n : RidgeId) (w : ℕ) (v : ℕ) : quiet (dpsWrite s n w v) = quiet s := by
  unfold dpsWrite
  simp

@[simp] theorem quiet_ridgeWrite (s : State) (r : RidgeId) (w : ℕ) (v : ℕ) : quiet (ridgeWrite s r w v) = quiet s := by
  unfold ridgeWrite
  simp

@[simp] theorem quiet_portWrite (s : State) (n : RidgeId) (w : ℕ) (v : ℕ) : quiet (portWrite s n w v) = quiet s := by
  unfold portWrite
  simp

@[simp] theorem quiet_martenCfg (s : State) (was : Bool) (v : ℕ) : quiet (martenCfg s was v) = quiet s := by
  unfold martenCfg
  simp [quiet_proj, quiet_mk]

@[simp] theorem quiet_cspCfg (s : State) (n : Fin 2) : (quiet (cspCfg s n)).now = (quiet s).now ∧ (quiet (cspCfg s n)).ticks = (quiet s).ticks ∧ (quiet (cspCfg s n)).boot = (quiet s).boot ∧ (quiet (cspCfg s n)).flash = (quiet s).flash ∧ (quiet (cspCfg s n)).working = (quiet s).working ∧ (quiet (cspCfg s n)).sites = (quiet s).sites ∧ (quiet (cspCfg s n)).routes = (quiet s).routes ∧ (quiet (cspCfg s n)).cal = (quiet s).cal ∧ (quiet (cspCfg s n)).sensors = (quiet s).sensors ∧ (quiet (cspCfg s n)).smons = (quiet s).smons ∧ (quiet (cspCfg s n)).pmons = (quiet s).pmons ∧ (quiet (cspCfg s n)).owl = (quiet s).owl ∧ (quiet (cspCfg s n)).cairn = (quiet s).cairn ∧ (quiet (cspCfg s n)).xip = (quiet s).xip ∧ (quiet (cspCfg s n)).pending = (quiet s).pending := by
  unfold cspCfg
  simp

@[simp] theorem quiet_globalWrite (s : State) (i : ℕ) (v : ℕ) (h_i : Plain i) : quiet (globalWrite s i v) = quiet s := by
  unfold globalWrite
  obtain ⟨-, h1, h2⟩ := h_i
  dsimp only
  (repeat' split) <;> simp_all [gCSPCFG]

@[simp] theorem quiet_applyWord (s : State) (i : ℕ) (v : ℕ) (h_i : Plain i) : quiet (applyWord s i v) = quiet s := by
  unfold applyWord
  split
  all_goals first
    | exact quiet_globalWrite _ _ _ h_i
    | simp

theorem most_applyWord (s : State) (i v : Nat) : (quiet (applyWord s i v)).now = (quiet (s)).now ∧ (quiet (applyWord s i v)).ticks = (quiet (s)).ticks ∧ (quiet (applyWord s i v)).boot = (quiet (s)).boot ∧ (quiet (applyWord s i v)).flash = (quiet (s)).flash ∧ (quiet (applyWord s i v)).working = (quiet (s)).working ∧ (quiet (applyWord s i v)).sites = (quiet (s)).sites ∧ (quiet (applyWord s i v)).routes = (quiet (s)).routes ∧ (quiet (applyWord s i v)).cal = (quiet (s)).cal ∧ (quiet (applyWord s i v)).sensors = (quiet (s)).sensors ∧ (quiet (applyWord s i v)).smons = (quiet (s)).smons ∧ (quiet (applyWord s i v)).pmons = (quiet (s)).pmons ∧ (quiet (applyWord s i v)).owl = (quiet (s)).owl ∧ (quiet (applyWord s i v)).cairn = (quiet (s)).cairn ∧ (quiet (applyWord s i v)).xip = (quiet (s)).xip ∧ (quiet (applyWord s i v)).pending = (quiet (s)).pending := by
  unfold applyWord
  split
  · simp
  · simp
  · simp
  · simp
  · unfold globalWrite
    dsimp only
    (repeat' split) <;> simp

@[simp] theorem quiet_unblock (s : State) : quiet (unblock s) = quiet s := by
  unfold unblock
  simp [quiet_proj, quiet_mk]

@[simp] theorem quiet_clearLatch (s : State) (m : BitVec 64) : quiet (clearLatch s m) = quiet s := by
  unfold clearLatch
  simp [quiet_proj, quiet_mk]

@[simp] theorem quiet_clearBits (s : State) (i : ℕ) (m : ℕ) : quiet (clearBits s i m) = quiet s := by
  unfold clearBits
  (repeat' split) <;> simp_all [quiet_proj, quiet_mk]

@[simp] theorem quiet_reclaimFrames (s : State) : quiet (reclaimFrames s) = quiet s := by
  unfold reclaimFrames
  simp [quiet_proj, quiet_mk]

@[simp] theorem quiet_act (s : State) (i : ℕ) (v : ℕ) (h_i : i ≠ 0x1948) : quiet (act s i v) = quiet s := by
  unfold act
  (repeat' split) <;> simp_all

@[simp] theorem quiet_writeEffect (s : State) (i : ℕ) (v : ℕ) (h_i : Plain i) : quiet (writeEffect s i v) = quiet s := by
  unfold writeEffect
  split
  · rfl
  · simp only []
    split
    · rfl
    · rfl
    · simp
    · exact quiet_act s i _ h_i.1
    all_goals
      have hp := quiet_accessInject (applyWord s i (v &&& ‹WordInfo›.mask)) 26
      rw [quiet_applyWord _ _ _ h_i] at hp
      split
      · exact quiet_eq2 hp ‹_›
      · simpa using quiet_eq2 hp ‹_›

@[simp] theorem quiet_tryWrite (s : State) (i : ℕ) (v : ℕ) (h_i : Plain i) : quiet (tryWrite s i v).1 = quiet s := by
  unfold tryWrite
  split
  · rfl
  · exact quiet_writeEffect s i v h_i

@[simp] theorem quiet_writeAll (x0 : ℕ) (x1 : List (ℕ × ℕ)) (x2 : State) (h_l : ∀ x ∈ x1, Plain x.1) : quiet (writeAll x0 x1 x2).1 = quiet x2 := by
  induction x1 generalizing x0 x2 with
  | nil => rfl
  | cons e es ih =>
    obtain ⟨i, v⟩ := e
    have h1 := quiet_tryWrite x2 i v (h_l (i, v) (by simp))
    unfold writeAll
    split
    · rw [ih _ _ (fun x hx => h_l x (by simp [hx]))]; exact quiet_eq2 h1 ‹_›
    · exact quiet_eq2 h1 ‹_›

@[simp] theorem quiet_packetWrites (h : Hdr) (op : ℕ) (l : List (ℕ × ℕ)) (s : State) (h_l : ∀ x ∈ l, Plain x.1) : quiet (packetWrites h op l s) = quiet s := by
  unfold packetWrites
  have hw := quiet_writeAll 0 l s h_l
  split
  · simp
  · split
    · simp
    · split
      · exact quiet_eq2 hw ‹_›
      · rw [quiet_doneWhen]; exact quiet_eq2 hw ‹_›

@[simp] theorem quiet_addTimed (t : T64) (s : State) (x : ℕ × ℕ) : quiet (addTimed t s x) = quiet s := by
  unfold addTimed
  simp [quiet_proj, quiet_mk]

@[simp] theorem quiet_timedWrites (h : Hdr) (op : ℕ) (l : List (ℕ × ℕ)) (t : T64) (s : State) : quiet (timedWrites h op l t s) = quiet s := by
  unfold timedWrites
  split
  · simp
  · split
    · simp
    · rw [quiet_replyAccepted]
      have h : ∀ (l : List (Nat × Nat)) (u : State), quiet (l.foldl (addTimed t) u) = quiet u := by
        intro l
        induction l with
        | nil => intro u; rfl
        | cons x l ih => intro u; rw [List.foldl_cons, ih]; simp
      exact h l s

@[simp] theorem quiet_dropTimed (s : State) (i : ℕ) (st : ℕ) : quiet (dropTimed s i st) = quiet s := by
  unfold dropTimed
  simp

@[simp] theorem quiet_timedPhase (s : State) (x : Timed) : quiet (timedPhase s x) = quiet s := by
  unfold timedPhase
  (repeat' split) <;> simp_all [quiet_proj, quiet_mk]

@[simp] theorem quiet_applyTimed (s : State) (x : Timed) (h_i : Plain x.index) : quiet (applyTimed s x) = quiet s := by
  unfold applyTimed
  dsimp only
  have hw := quiet_tryWrite { s with link := { s.link with timed := s.link.timed.erase x } } x.index x.value.toNat h_i
  split
  · rw [quiet_timedPhase]; exact (quiet_eq2 hw ‹_›).trans rfl
  · rw [quiet_dropTimed]; exact (quiet_eq2 hw ‹_›).trans rfl

@[simp] theorem quiet_paramWriteEffect (h : Hdr) (index : BitVec 16) (value : Word) (s : State) (h_i : Plain (index.toNat % 8192)) : quiet (paramWriteEffect h index value s) = quiet s := by
  unfold paramWriteEffect
  apply quiet_command
  intro s
  split
  · simp
  · apply quiet_packetWrites
    simpa using h_i

@[simp] theorem quiet_paramWriteMultiEffect (h : Hdr) (count : BitVec 16) (pairs : List (BitVec 16 × Word)) (s : State) (h_l : ∀ x ∈ pairs.take count.toNat, Plain (x.1.toNat % 8192)) : quiet (paramWriteMultiEffect h count pairs s) = quiet s := by
  unfold paramWriteMultiEffect
  apply quiet_command
  intro s
  split
  · simp
  · split
    · simp
    · apply quiet_packetWrites
      intro x hx
      obtain ⟨p, hp, rfl⟩ := List.mem_map.mp hx
      exact h_l p hp

@[simp] theorem quiet_packetRead (h : Hdr) (first : BitVec 16) (count : BitVec 16) (addr : BitVec 64) (s : State) : quiet (packetRead h first count addr s) = quiet s := by
  unfold packetRead
  apply quiet_command
  intro s
  split
  · simp
  · have hr := quiet_readWords (Path.key (.packet h)) count.toNat (first.toNat % 8192) s
    simpa [quiet_proj, quiet_mk] using hr

@[simp] theorem quiet_windowWrite (s : State) (i : ℕ) (v : ℕ) (h_i : Plain i) : quiet (windowWrite s i v) = quiet s := by
  unfold windowWrite
  have hw := quiet_tryWrite s i v h_i
  split
  · rfl
  · split
    · simp
    · split
      · simpa using quiet_eq2 hw ‹_›
      · simpa using quiet_eq2 hw ‹_›

@[simp] theorem quiet_windowReadEffect (i : ℕ) (s : State) : quiet (windowReadEffect i s) = quiet s := by
  unfold windowReadEffect
  simp [quiet_proj, quiet_mk]

@[simp] theorem quiet_stickyFlags (s : State) (n : Fin 2) (fl : FrameFlags) : quiet (stickyFlags s n fl) = quiet s := by
  unfold stickyFlags
  simp

@[simp] theorem quiet_frameEnd (s : State) (n : Fin 2) (cmd : ℕ) (f : CspFrame) (ws : List Word) (fl : FrameFlags) : (quiet (frameEnd s n cmd f ws fl)).now = (quiet s).now ∧ (quiet (frameEnd s n cmd f ws fl)).ticks = (quiet s).ticks ∧ (quiet (frameEnd s n cmd f ws fl)).boot = (quiet s).boot ∧ (quiet (frameEnd s n cmd f ws fl)).flash = (quiet s).flash ∧ (quiet (frameEnd s n cmd f ws fl)).working = (quiet s).working ∧ (quiet (frameEnd s n cmd f ws fl)).sites = (quiet s).sites ∧ (quiet (frameEnd s n cmd f ws fl)).routes = (quiet s).routes ∧ (quiet (frameEnd s n cmd f ws fl)).cal = (quiet s).cal ∧ (quiet (frameEnd s n cmd f ws fl)).sensors = (quiet s).sensors ∧ (quiet (frameEnd s n cmd f ws fl)).smons = (quiet s).smons ∧ (quiet (frameEnd s n cmd f ws fl)).pmons = (quiet s).pmons ∧ (quiet (frameEnd s n cmd f ws fl)).owl = (quiet s).owl ∧ (quiet (frameEnd s n cmd f ws fl)).cairn = (quiet s).cairn ∧ (quiet (frameEnd s n cmd f ws fl)).xip = (quiet s).xip ∧ (quiet (frameEnd s n cmd f ws fl)).pending = (quiet s).pending := by
  unfold frameEnd
  simp

@[simp] theorem quiet_cspWriteEffect (n : Fin 2) (f : CspFrame) (s : State) : (quiet (cspWriteEffect n f s)).now = (quiet s).now ∧ (quiet (cspWriteEffect n f s)).ticks = (quiet s).ticks ∧ (quiet (cspWriteEffect n f s)).boot = (quiet s).boot ∧ (quiet (cspWriteEffect n f s)).flash = (quiet s).flash ∧ (quiet (cspWriteEffect n f s)).working = (quiet s).working ∧ (quiet (cspWriteEffect n f s)).sites = (quiet s).sites ∧ (quiet (cspWriteEffect n f s)).routes = (quiet s).routes ∧ (quiet (cspWriteEffect n f s)).cal = (quiet s).cal ∧ (quiet (cspWriteEffect n f s)).sensors = (quiet s).sensors ∧ (quiet (cspWriteEffect n f s)).smons = (quiet s).smons ∧ (quiet (cspWriteEffect n f s)).pmons = (quiet s).pmons ∧ (quiet (cspWriteEffect n f s)).owl = (quiet s).owl ∧ (quiet (cspWriteEffect n f s)).cairn = (quiet s).cairn ∧ (quiet (cspWriteEffect n f s)).xip = (quiet s).xip ∧ (quiet (cspWriteEffect n f s)).pending = (quiet s).pending := by
  unfold cspWriteEffect
  simp

@[simp] theorem quiet_slaveRefused (s : State) (n : Fin 2) : (quiet (slaveRefused s n)).now = (quiet s).now ∧ (quiet (slaveRefused s n)).ticks = (quiet s).ticks ∧ (quiet (slaveRefused s n)).boot = (quiet s).boot ∧ (quiet (slaveRefused s n)).flash = (quiet s).flash ∧ (quiet (slaveRefused s n)).working = (quiet s).working ∧ (quiet (slaveRefused s n)).sites = (quiet s).sites ∧ (quiet (slaveRefused s n)).routes = (quiet s).routes ∧ (quiet (slaveRefused s n)).cal = (quiet s).cal ∧ (quiet (slaveRefused s n)).sensors = (quiet s).sensors ∧ (quiet (slaveRefused s n)).smons = (quiet s).smons ∧ (quiet (slaveRefused s n)).pmons = (quiet s).pmons ∧ (quiet (slaveRefused s n)).owl = (quiet s).owl ∧ (quiet (slaveRefused s n)).cairn = (quiet s).cairn ∧ (quiet (slaveRefused s n)).xip = (quiet s).xip ∧ (quiet (slaveRefused s n)).pending = (quiet s).pending := by
  unfold slaveRefused
  simp

@[simp] theorem quiet_slaveApply (s : State) (n : Fin 2) (a : ℕ) (ws : List ℕ) (h_l : ∀ x ∈ ws.zipIdx.map fun x => (a + x.2, x.1), Plain x.1) : (quiet (slaveApply s n a ws)).now = (quiet s).now ∧ (quiet (slaveApply s n a ws)).ticks = (quiet s).ticks ∧ (quiet (slaveApply s n a ws)).boot = (quiet s).boot ∧ (quiet (slaveApply s n a ws)).flash = (quiet s).flash ∧ (quiet (slaveApply s n a ws)).working = (quiet s).working ∧ (quiet (slaveApply s n a ws)).sites = (quiet s).sites ∧ (quiet (slaveApply s n a ws)).routes = (quiet s).routes ∧ (quiet (slaveApply s n a ws)).cal = (quiet s).cal ∧ (quiet (slaveApply s n a ws)).sensors = (quiet s).sensors ∧ (quiet (slaveApply s n a ws)).smons = (quiet s).smons ∧ (quiet (slaveApply s n a ws)).pmons = (quiet s).pmons ∧ (quiet (slaveApply s n a ws)).owl = (quiet s).owl ∧ (quiet (slaveApply s n a ws)).cairn = (quiet s).cairn ∧ (quiet (slaveApply s n a ws)).xip = (quiet s).xip ∧ (quiet (slaveApply s n a ws)).pending = (quiet s).pending := by
  unfold slaveApply
  dsimp only
  have hw := quiet_writeAll 0 _ s h_l
  split
  · simp
  · split
    · simp
    · split
      · have e := quiet_eq2 hw ‹_›
        simp [e]
      · simp

@[simp] theorem quiet_slaveWords (n : Fin 2) (x1 : ℕ) (x2 : ℕ) (x3 : State) : quiet (slaveWords n x1 x2 x3).2 = quiet x3 := by
  induction x1 generalizing x2 x3 with
  | zero => rfl
  | succ m ih =>
    unfold slaveWords
    have h1 := quiet_windowRead x3 (Path.key (.slave n)) x2
    have h2 := ih (x2 + 1) (windowRead x3 (Path.key (.slave n)) x2).2
    exact h2.trans h1

@[simp] theorem quiet_cspReadEffect (n : Fin 2) (f : CspFrame) (s : State) : (quiet (cspReadEffect n f s)).now = (quiet s).now ∧ (quiet (cspReadEffect n f s)).ticks = (quiet s).ticks ∧ (quiet (cspReadEffect n f s)).boot = (quiet s).boot ∧ (quiet (cspReadEffect n f s)).flash = (quiet s).flash ∧ (quiet (cspReadEffect n f s)).working = (quiet s).working ∧ (quiet (cspReadEffect n f s)).sites = (quiet s).sites ∧ (quiet (cspReadEffect n f s)).routes = (quiet s).routes ∧ (quiet (cspReadEffect n f s)).cal = (quiet s).cal ∧ (quiet (cspReadEffect n f s)).sensors = (quiet s).sensors ∧ (quiet (cspReadEffect n f s)).smons = (quiet s).smons ∧ (quiet (cspReadEffect n f s)).pmons = (quiet s).pmons ∧ (quiet (cspReadEffect n f s)).owl = (quiet s).owl ∧ (quiet (cspReadEffect n f s)).cairn = (quiet s).cairn ∧ (quiet (cspReadEffect n f s)).xip = (quiet s).xip ∧ (quiet (cspReadEffect n f s)).pending = (quiet s).pending := by
  unfold cspReadEffect
  simp
  (repeat' split) <;> simp_all [quiet_proj, quiet_mk]

@[simp] theorem quiet_slaveReadEffect (n : Fin 2) (count : ℕ) (first : ℕ) (s : State) : (quiet (slaveReadEffect n count first s)).now = (quiet s).now ∧ (quiet (slaveReadEffect n count first s)).ticks = (quiet s).ticks ∧ (quiet (slaveReadEffect n count first s)).boot = (quiet s).boot ∧ (quiet (slaveReadEffect n count first s)).flash = (quiet s).flash ∧ (quiet (slaveReadEffect n count first s)).working = (quiet s).working ∧ (quiet (slaveReadEffect n count first s)).sites = (quiet s).sites ∧ (quiet (slaveReadEffect n count first s)).routes = (quiet s).routes ∧ (quiet (slaveReadEffect n count first s)).cal = (quiet s).cal ∧ (quiet (slaveReadEffect n count first s)).sensors = (quiet s).sensors ∧ (quiet (slaveReadEffect n count first s)).smons = (quiet s).smons ∧ (quiet (slaveReadEffect n count first s)).pmons = (quiet s).pmons ∧ (quiet (slaveReadEffect n count first s)).owl = (quiet s).owl ∧ (quiet (slaveReadEffect n count first s)).cairn = (quiet s).cairn ∧ (quiet (slaveReadEffect n count first s)).xip = (quiet s).xip ∧ (quiet (slaveReadEffect n count first s)).pending = (quiet s).pending := by
  unfold slaveReadEffect
  simp [quiet_proj, quiet_mk]

@[simp] theorem quiet_cspStatusEffect (n : Fin 2) (f : CspFrame) (s : State) : (quiet (cspStatusEffect n f s)).now = (quiet s).now ∧ (quiet (cspStatusEffect n f s)).ticks = (quiet s).ticks ∧ (quiet (cspStatusEffect n f s)).boot = (quiet s).boot ∧ (quiet (cspStatusEffect n f s)).flash = (quiet s).flash ∧ (quiet (cspStatusEffect n f s)).working = (quiet s).working ∧ (quiet (cspStatusEffect n f s)).sites = (quiet s).sites ∧ (quiet (cspStatusEffect n f s)).routes = (quiet s).routes ∧ (quiet (cspStatusEffect n f s)).cal = (quiet s).cal ∧ (quiet (cspStatusEffect n f s)).sensors = (quiet s).sensors ∧ (quiet (cspStatusEffect n f s)).smons = (quiet s).smons ∧ (quiet (cspStatusEffect n f s)).pmons = (quiet s).pmons ∧ (quiet (cspStatusEffect n f s)).owl = (quiet s).owl ∧ (quiet (cspStatusEffect n f s)).cairn = (quiet s).cairn ∧ (quiet (cspStatusEffect n f s)).xip = (quiet s).xip ∧ (quiet (cspStatusEffect n f s)).pending = (quiet s).pending := by
  unfold cspStatusEffect
  simp

@[simp] theorem quiet_badCmdFrameEffect (n : Fin 2) (f : CspFrame) (s : State) : (quiet (badCmdFrameEffect n f s)).now = (quiet s).now ∧ (quiet (badCmdFrameEffect n f s)).ticks = (quiet s).ticks ∧ (quiet (badCmdFrameEffect n f s)).boot = (quiet s).boot ∧ (quiet (badCmdFrameEffect n f s)).flash = (quiet s).flash ∧ (quiet (badCmdFrameEffect n f s)).working = (quiet s).working ∧ (quiet (badCmdFrameEffect n f s)).sites = (quiet s).sites ∧ (quiet (badCmdFrameEffect n f s)).routes = (quiet s).routes ∧ (quiet (badCmdFrameEffect n f s)).cal = (quiet s).cal ∧ (quiet (badCmdFrameEffect n f s)).sensors = (quiet s).sensors ∧ (quiet (badCmdFrameEffect n f s)).smons = (quiet s).smons ∧ (quiet (badCmdFrameEffect n f s)).pmons = (quiet s).pmons ∧ (quiet (badCmdFrameEffect n f s)).owl = (quiet s).owl ∧ (quiet (badCmdFrameEffect n f s)).cairn = (quiet s).cairn ∧ (quiet (badCmdFrameEffect n f s)).xip = (quiet s).xip ∧ (quiet (badCmdFrameEffect n f s)).pending = (quiet s).pending := by
  unfold badCmdFrameEffect
  simp

@[simp] theorem quiet_assertSelect (s : State) : (quiet (assertSelect s)).now = (quiet s).now ∧ (quiet (assertSelect s)).ticks = (quiet s).ticks ∧ (quiet (assertSelect s)).boot = (quiet s).boot ∧ (quiet (assertSelect s)).flash = (quiet s).flash ∧ (quiet (assertSelect s)).working = (quiet s).working ∧ (quiet (assertSelect s)).sites = (quiet s).sites ∧ (quiet (assertSelect s)).routes = (quiet s).routes ∧ (quiet (assertSelect s)).cal = (quiet s).cal ∧ (quiet (assertSelect s)).sensors = (quiet s).sensors ∧ (quiet (assertSelect s)).smons = (quiet s).smons ∧ (quiet (assertSelect s)).pmons = (quiet s).pmons ∧ (quiet (assertSelect s)).owl = (quiet s).owl ∧ (quiet (assertSelect s)).cairn = (quiet s).cairn ∧ (quiet (assertSelect s)).xip = (quiet s).xip ∧ (quiet (assertSelect s)).pending = (quiet s).pending := by
  unfold assertSelect
  simp

@[simp] theorem quiet_flashRead (s : State) : (quiet (flashRead s)).now = (quiet s).now ∧ (quiet (flashRead s)).ticks = (quiet s).ticks ∧ (quiet (flashRead s)).boot = (quiet s).boot ∧ (quiet (flashRead s)).flash = (quiet s).flash ∧ (quiet (flashRead s)).working = (quiet s).working ∧ (quiet (flashRead s)).sites = (quiet s).sites ∧ (quiet (flashRead s)).routes = (quiet s).routes ∧ (quiet (flashRead s)).cal = (quiet s).cal ∧ (quiet (flashRead s)).sensors = (quiet s).sensors ∧ (quiet (flashRead s)).smons = (quiet s).smons ∧ (quiet (flashRead s)).pmons = (quiet s).pmons ∧ (quiet (flashRead s)).owl = (quiet s).owl ∧ (quiet (flashRead s)).cairn = (quiet s).cairn ∧ (quiet (flashRead s)).pending = (quiet s).pending := by
  unfold flashRead
  simp [quiet_proj, quiet_mk]

@[simp] theorem quiet_flashCommand (s : State) (lo : ℕ) (size : ℕ) : (quiet (flashCommand s lo size)).now = (quiet s).now ∧ (quiet (flashCommand s lo size)).ticks = (quiet s).ticks ∧ (quiet (flashCommand s lo size)).boot = (quiet s).boot ∧ (quiet (flashCommand s lo size)).flash = (quiet s).flash ∧ (quiet (flashCommand s lo size)).working = (quiet s).working ∧ (quiet (flashCommand s lo size)).sites = (quiet s).sites ∧ (quiet (flashCommand s lo size)).routes = (quiet s).routes ∧ (quiet (flashCommand s lo size)).cal = (quiet s).cal ∧ (quiet (flashCommand s lo size)).sensors = (quiet s).sensors ∧ (quiet (flashCommand s lo size)).smons = (quiet s).smons ∧ (quiet (flashCommand s lo size)).pmons = (quiet s).pmons ∧ (quiet (flashCommand s lo size)).owl = (quiet s).owl ∧ (quiet (flashCommand s lo size)).cairn = (quiet s).cairn ∧ (quiet (flashCommand s lo size)).pending = (quiet s).pending := by
  unfold flashCommand
  simp [quiet_proj, quiet_mk]

@[simp] theorem quiet_xipMissEffect (addr : BitVec 32) (s : State) : (quiet (xipMissEffect addr s)).now = (quiet s).now ∧ (quiet (xipMissEffect addr s)).ticks = (quiet s).ticks ∧ (quiet (xipMissEffect addr s)).boot = (quiet s).boot ∧ (quiet (xipMissEffect addr s)).flash = (quiet s).flash ∧ (quiet (xipMissEffect addr s)).working = (quiet s).working ∧ (quiet (xipMissEffect addr s)).sites = (quiet s).sites ∧ (quiet (xipMissEffect addr s)).routes = (quiet s).routes ∧ (quiet (xipMissEffect addr s)).cal = (quiet s).cal ∧ (quiet (xipMissEffect addr s)).sensors = (quiet s).sensors ∧ (quiet (xipMissEffect addr s)).smons = (quiet s).smons ∧ (quiet (xipMissEffect addr s)).pmons = (quiet s).pmons ∧ (quiet (xipMissEffect addr s)).owl = (quiet s).owl ∧ (quiet (xipMissEffect addr s)).cairn = (quiet s).cairn ∧ (quiet (xipMissEffect addr s)).pending = (quiet s).pending := by
  unfold xipMissEffect
  simp [quiet_proj, quiet_mk]

@[simp] theorem quiet_xipLineFillEffect (addr : BitVec 32) (s : State) : (quiet (xipLineFillEffect addr s)).now = (quiet s).now ∧ (quiet (xipLineFillEffect addr s)).ticks = (quiet s).ticks ∧ (quiet (xipLineFillEffect addr s)).boot = (quiet s).boot ∧ (quiet (xipLineFillEffect addr s)).flash = (quiet s).flash ∧ (quiet (xipLineFillEffect addr s)).working = (quiet s).working ∧ (quiet (xipLineFillEffect addr s)).sites = (quiet s).sites ∧ (quiet (xipLineFillEffect addr s)).routes = (quiet s).routes ∧ (quiet (xipLineFillEffect addr s)).cal = (quiet s).cal ∧ (quiet (xipLineFillEffect addr s)).sensors = (quiet s).sensors ∧ (quiet (xipLineFillEffect addr s)).smons = (quiet s).smons ∧ (quiet (xipLineFillEffect addr s)).pmons = (quiet s).pmons ∧ (quiet (xipLineFillEffect addr s)).owl = (quiet s).owl ∧ (quiet (xipLineFillEffect addr s)).cairn = (quiet s).cairn ∧ (quiet (xipLineFillEffect addr s)).pending = (quiet s).pending := by
  unfold xipLineFillEffect
  simp only []
  split
  · simp
  · split
    · simp only [quiet_flashRead]; simp [quiet_proj, quiet_mk]
    · simp [quiet_proj, quiet_mk]

@[simp] theorem quiet_applyCal (s : State) (i : Retained) : (quiet (applyCal s i)).now = (quiet s).now ∧ (quiet (applyCal s i)).ticks = (quiet s).ticks ∧ (quiet (applyCal s i)).flash = (quiet s).flash ∧ (quiet (applyCal s i)).working = (quiet s).working ∧ (quiet (applyCal s i)).sites = (quiet s).sites ∧ (quiet (applyCal s i)).routes = (quiet s).routes ∧ (quiet (applyCal s i)).sensors = (quiet s).sensors ∧ (quiet (applyCal s i)).smons = (quiet s).smons ∧ (quiet (applyCal s i)).pmons = (quiet s).pmons ∧ (quiet (applyCal s i)).owl = (quiet s).owl ∧ (quiet (applyCal s i)).cairn = (quiet s).cairn ∧ (quiet (applyCal s i)).csps = (quiet s).csps ∧ (quiet (applyCal s i)).xip = (quiet s).xip ∧ (quiet (applyCal s i)).pending = (quiet s).pending := by
  unfold applyCal
  simp [quiet_proj, quiet_mk]

@[simp] theorem quiet_applyImageWord (img : Sparse Word) (s : State) (i : ℕ) : (quiet (applyImageWord img s i)).now = (quiet s).now ∧ (quiet (applyImageWord img s i)).ticks = (quiet s).ticks ∧ (quiet (applyImageWord img s i)).flash = (quiet s).flash ∧ (quiet (applyImageWord img s i)).working = (quiet s).working ∧ (quiet (applyImageWord img s i)).sites = (quiet s).sites ∧ (quiet (applyImageWord img s i)).routes = (quiet s).routes ∧ (quiet (applyImageWord img s i)).cal = (quiet s).cal ∧ (quiet (applyImageWord img s i)).sensors = (quiet s).sensors ∧ (quiet (applyImageWord img s i)).smons = (quiet s).smons ∧ (quiet (applyImageWord img s i)).pmons = (quiet s).pmons ∧ (quiet (applyImageWord img s i)).owl = (quiet s).owl ∧ (quiet (applyImageWord img s i)).cairn = (quiet s).cairn ∧ (quiet (applyImageWord img s i)).xip = (quiet s).xip ∧ (quiet (applyImageWord img s i)).pending = (quiet s).pending := by
  unfold applyImageWord
  dsimp only
  have h := most_applyWord s i (imageWord s i (sget resetWord img i).toNat)
  split
  · simp [h]
  · simp [quiet_proj, quiet_mk]

@[simp] theorem quiet_applyWords (s : State) (img : Sparse Word) : (quiet (applyWords s img)).now = (quiet s).now ∧ (quiet (applyWords s img)).ticks = (quiet s).ticks ∧ (quiet (applyWords s img)).flash = (quiet s).flash ∧ (quiet (applyWords s img)).working = (quiet s).working ∧ (quiet (applyWords s img)).sites = (quiet s).sites ∧ (quiet (applyWords s img)).routes = (quiet s).routes ∧ (quiet (applyWords s img)).cal = (quiet s).cal ∧ (quiet (applyWords s img)).sensors = (quiet s).sensors ∧ (quiet (applyWords s img)).smons = (quiet s).smons ∧ (quiet (applyWords s img)).pmons = (quiet s).pmons ∧ (quiet (applyWords s img)).owl = (quiet s).owl ∧ (quiet (applyWords s img)).cairn = (quiet s).cairn ∧ (quiet (applyWords s img)).xip = (quiet s).xip ∧ (quiet (applyWords s img)).pending = (quiet s).pending := by
  unfold applyWords
  simp

@[simp] theorem quiet_applySets (s : State) (sets : List (Vector TimingSet 32)) : (quiet (applySets s sets)).now = (quiet s).now ∧ (quiet (applySets s sets)).ticks = (quiet s).ticks ∧ (quiet (applySets s sets)).flash = (quiet s).flash ∧ (quiet (applySets s sets)).working = (quiet s).working ∧ (quiet (applySets s sets)).sites = (quiet s).sites ∧ (quiet (applySets s sets)).routes = (quiet s).routes ∧ (quiet (applySets s sets)).cal = (quiet s).cal ∧ (quiet (applySets s sets)).sensors = (quiet s).sensors ∧ (quiet (applySets s sets)).smons = (quiet s).smons ∧ (quiet (applySets s sets)).pmons = (quiet s).pmons ∧ (quiet (applySets s sets)).owl = (quiet s).owl ∧ (quiet (applySets s sets)).cairn = (quiet s).cairn ∧ (quiet (applySets s sets)).csps = (quiet s).csps ∧ (quiet (applySets s sets)).xip = (quiet s).xip ∧ (quiet (applySets s sets)).pending = (quiet s).pending := by
  unfold applySets
  refine each_ind (fun t => (quiet (t)).now = (quiet (s)).now ∧ (quiet (t)).ticks = (quiet (s)).ticks ∧ (quiet (t)).flash = (quiet (s)).flash ∧ (quiet (t)).working = (quiet (s)).working ∧ (quiet (t)).sites = (quiet (s)).sites ∧ (quiet (t)).routes = (quiet (s)).routes ∧ (quiet (t)).cal = (quiet (s)).cal ∧ (quiet (t)).sensors = (quiet (s)).sensors ∧ (quiet (t)).smons = (quiet (s)).smons ∧ (quiet (t)).pmons = (quiet (s)).pmons ∧ (quiet (t)).owl = (quiet (s)).owl ∧ (quiet (t)).cairn = (quiet (s)).cairn ∧ (quiet (t)).csps = (quiet (s)).csps ∧ (quiet (t)).xip = (quiet (s)).xip ∧ (quiet (t)).pending = (quiet (s)).pending) (by simp) (fun t r ht => ?_)
  dsimp only
  split
  · exact ht
  · split
    · exact ht
    · exact ht

@[simp] theorem quiet_applySites (s : State) (m : Vector (BitVec 256) 64) : (quiet (applySites s m)).now = (quiet s).now ∧ (quiet (applySites s m)).ticks = (quiet s).ticks ∧ (quiet (applySites s m)).flash = (quiet s).flash ∧ (quiet (applySites s m)).working = (quiet s).working ∧ (quiet (applySites s m)).routes = (quiet s).routes ∧ (quiet (applySites s m)).cal = (quiet s).cal ∧ (quiet (applySites s m)).sensors = (quiet s).sensors ∧ (quiet (applySites s m)).smons = (quiet s).smons ∧ (quiet (applySites s m)).pmons = (quiet s).pmons ∧ (quiet (applySites s m)).owl = (quiet s).owl ∧ (quiet (applySites s m)).cairn = (quiet s).cairn ∧ (quiet (applySites s m)).csps = (quiet s).csps ∧ (quiet (applySites s m)).xip = (quiet s).xip ∧ (quiet (applySites s m)).pending = (quiet s).pending := by
  unfold applySites
  simp [quiet_proj, quiet_mk]

@[simp] theorem quiet_applyQueues (s : State) (l : List QueueKeep) : (quiet (applyQueues s l)).now = (quiet s).now ∧ (quiet (applyQueues s l)).ticks = (quiet s).ticks ∧ (quiet (applyQueues s l)).flash = (quiet s).flash ∧ (quiet (applyQueues s l)).working = (quiet s).working ∧ (quiet (applyQueues s l)).sites = (quiet s).sites ∧ (quiet (applyQueues s l)).routes = (quiet s).routes ∧ (quiet (applyQueues s l)).cal = (quiet s).cal ∧ (quiet (applyQueues s l)).sensors = (quiet s).sensors ∧ (quiet (applyQueues s l)).smons = (quiet s).smons ∧ (quiet (applyQueues s l)).pmons = (quiet s).pmons ∧ (quiet (applyQueues s l)).owl = (quiet s).owl ∧ (quiet (applyQueues s l)).cairn = (quiet s).cairn ∧ (quiet (applyQueues s l)).csps = (quiet s).csps ∧ (quiet (applyQueues s l)).xip = (quiet s).xip ∧ (quiet (applyQueues s l)).pending = (quiet s).pending := by
  unfold applyQueues
  simp [quiet_proj, quiet_mk]

@[simp] theorem quiet_applyRing (s : State) (i : Retained) : (quiet (applyRing s i)).now = (quiet s).now ∧ (quiet (applyRing s i)).ticks = (quiet s).ticks ∧ (quiet (applyRing s i)).boot = (quiet s).boot ∧ (quiet (applyRing s i)).flash = (quiet s).flash ∧ (quiet (applyRing s i)).working = (quiet s).working ∧ (quiet (applyRing s i)).sites = (quiet s).sites ∧ (quiet (applyRing s i)).routes = (quiet s).routes ∧ (quiet (applyRing s i)).cal = (quiet s).cal ∧ (quiet (applyRing s i)).sensors = (quiet s).sensors ∧ (quiet (applyRing s i)).smons = (quiet s).smons ∧ (quiet (applyRing s i)).pmons = (quiet s).pmons ∧ (quiet (applyRing s i)).owl = (quiet s).owl ∧ (quiet (applyRing s i)).csps = (quiet s).csps ∧ (quiet (applyRing s i)).xip = (quiet s).xip ∧ (quiet (applyRing s i)).pending = (quiet s).pending := by
  unfold applyRing
  simp [quiet_proj, quiet_mk]

@[simp] theorem quiet_dpsPowerUp (s : State) : quiet (dpsPowerUp s) = quiet s := by
  unfold dpsPowerUp
  simp

@[simp] theorem quiet_applyImage (s : State) (i : Retained) : (quiet (applyImage s i)).now = (quiet s).now ∧ (quiet (applyImage s i)).ticks = (quiet s).ticks ∧ (quiet (applyImage s i)).flash = (quiet s).flash ∧ (quiet (applyImage s i)).working = (quiet s).working ∧ (quiet (applyImage s i)).sensors = (quiet s).sensors ∧ (quiet (applyImage s i)).smons = (quiet s).smons ∧ (quiet (applyImage s i)).pmons = (quiet s).pmons ∧ (quiet (applyImage s i)).owl = (quiet s).owl ∧ (quiet (applyImage s i)).xip = (quiet s).xip ∧ (quiet (applyImage s i)).pending = (quiet s).pending := by
  unfold applyImage
  simp [quiet_proj, quiet_mk]

@[simp] theorem quiet_imageApplied (s : State) (source : BitVec 2) (gen : ℕ) (i : Option Retained) : (quiet (imageApplied s source gen i)).now = (quiet s).now ∧ (quiet (imageApplied s source gen i)).ticks = (quiet s).ticks ∧ (quiet (imageApplied s source gen i)).flash = (quiet s).flash ∧ (quiet (imageApplied s source gen i)).sites = (quiet s).sites ∧ (quiet (imageApplied s source gen i)).routes = (quiet s).routes ∧ (quiet (imageApplied s source gen i)).cal = (quiet s).cal ∧ (quiet (imageApplied s source gen i)).sensors = (quiet s).sensors ∧ (quiet (imageApplied s source gen i)).smons = (quiet s).smons ∧ (quiet (imageApplied s source gen i)).pmons = (quiet s).pmons ∧ (quiet (imageApplied s source gen i)).owl = (quiet s).owl ∧ (quiet (imageApplied s source gen i)).cairn = (quiet s).cairn ∧ (quiet (imageApplied s source gen i)).csps = (quiet s).csps ∧ (quiet (imageApplied s source gen i)).xip = (quiet s).xip ∧ (quiet (imageApplied s source gen i)).pending = (quiet s).pending := by
  unfold imageApplied
  simp [quiet_proj, quiet_mk]

@[simp] theorem quiet_rsiApplyEffect (newerOk : Bool) (otherOk : Bool) (s : State) : (quiet (rsiApplyEffect newerOk otherOk s)).now = (quiet s).now ∧ (quiet (rsiApplyEffect newerOk otherOk s)).ticks = (quiet s).ticks ∧ (quiet (rsiApplyEffect newerOk otherOk s)).flash = (quiet s).flash ∧ (quiet (rsiApplyEffect newerOk otherOk s)).sensors = (quiet s).sensors ∧ (quiet (rsiApplyEffect newerOk otherOk s)).smons = (quiet s).smons ∧ (quiet (rsiApplyEffect newerOk otherOk s)).pmons = (quiet s).pmons ∧ (quiet (rsiApplyEffect newerOk otherOk s)).owl = (quiet s).owl ∧ (quiet (rsiApplyEffect newerOk otherOk s)).xip = (quiet s).xip ∧ (quiet (rsiApplyEffect newerOk otherOk s)).pending = (quiet s).pending := by
  unfold rsiApplyEffect
  simp
  (repeat' split) <;> simp_all [quiet_proj, quiet_mk]

@[simp] theorem quiet_eraseSlot (s : State) (k : Fin 3) : (quiet (eraseSlot s k)).now = (quiet s).now ∧ (quiet (eraseSlot s k)).ticks = (quiet s).ticks ∧ (quiet (eraseSlot s k)).boot = (quiet s).boot ∧ (quiet (eraseSlot s k)).working = (quiet s).working ∧ (quiet (eraseSlot s k)).sites = (quiet s).sites ∧ (quiet (eraseSlot s k)).routes = (quiet s).routes ∧ (quiet (eraseSlot s k)).cal = (quiet s).cal ∧ (quiet (eraseSlot s k)).sensors = (quiet s).sensors ∧ (quiet (eraseSlot s k)).smons = (quiet s).smons ∧ (quiet (eraseSlot s k)).pmons = (quiet s).pmons ∧ (quiet (eraseSlot s k)).owl = (quiet s).owl ∧ (quiet (eraseSlot s k)).cairn = (quiet s).cairn ∧ (quiet (eraseSlot s k)).pending = (quiet s).pending := by
  unfold eraseSlot
  simp [quiet_proj, quiet_mk]

@[simp] theorem quiet_saveStateEffect (h : Hdr) (s : State) : (quiet (saveStateEffect h s)).now = (quiet s).now ∧ (quiet (saveStateEffect h s)).ticks = (quiet s).ticks ∧ (quiet (saveStateEffect h s)).boot = (quiet s).boot ∧ (quiet (saveStateEffect h s)).sites = (quiet s).sites ∧ (quiet (saveStateEffect h s)).routes = (quiet s).routes ∧ (quiet (saveStateEffect h s)).cal = (quiet s).cal ∧ (quiet (saveStateEffect h s)).sensors = (quiet s).sensors ∧ (quiet (saveStateEffect h s)).smons = (quiet s).smons ∧ (quiet (saveStateEffect h s)).pmons = (quiet s).pmons ∧ (quiet (saveStateEffect h s)).owl = (quiet s).owl ∧ (quiet (saveStateEffect h s)).cairn = (quiet s).cairn ∧ (quiet (saveStateEffect h s)).pending = (quiet s).pending := by
  unfold saveStateEffect
  refine command_ind (P := fun t => (quiet (t)).now = (quiet (s)).now ∧ (quiet (t)).ticks = (quiet (s)).ticks ∧ (quiet (t)).boot = (quiet (s)).boot ∧ (quiet (t)).sites = (quiet (s)).sites ∧ (quiet (t)).routes = (quiet (s)).routes ∧ (quiet (t)).cal = (quiet (s)).cal ∧ (quiet (t)).sensors = (quiet (s)).sensors ∧ (quiet (t)).smons = (quiet (s)).smons ∧ (quiet (t)).pmons = (quiet (s)).pmons ∧ (quiet (t)).owl = (quiet (s)).owl ∧ (quiet (t)).cairn = (quiet (s)).cairn ∧ (quiet (t)).pending = (quiet (s)).pending) (fun t h => by simp [h]) (fun u hu => ?_)
  (repeat' split) <;> simp_all [quiet_proj, quiet_mk]

@[simp] theorem quiet_saveStateDoneEffect (ok : Bool) (s : State) : (quiet (saveStateDoneEffect ok s)).now = (quiet s).now ∧ (quiet (saveStateDoneEffect ok s)).ticks = (quiet s).ticks ∧ (quiet (saveStateDoneEffect ok s)).boot = (quiet s).boot ∧ (quiet (saveStateDoneEffect ok s)).working = (quiet s).working ∧ (quiet (saveStateDoneEffect ok s)).sites = (quiet s).sites ∧ (quiet (saveStateDoneEffect ok s)).routes = (quiet s).routes ∧ (quiet (saveStateDoneEffect ok s)).cal = (quiet s).cal ∧ (quiet (saveStateDoneEffect ok s)).sensors = (quiet s).sensors ∧ (quiet (saveStateDoneEffect ok s)).smons = (quiet s).smons ∧ (quiet (saveStateDoneEffect ok s)).pmons = (quiet s).pmons ∧ (quiet (saveStateDoneEffect ok s)).owl = (quiet s).owl ∧ (quiet (saveStateDoneEffect ok s)).cairn = (quiet s).cairn ∧ (quiet (saveStateDoneEffect ok s)).csps = (quiet s).csps ∧ (quiet (saveStateDoneEffect ok s)).xip = (quiet s).xip ∧ (quiet (saveStateDoneEffect ok s)).pending = (quiet s).pending := by
  unfold saveStateDoneEffect
  (repeat' split) <;> simp [quiet_proj, quiet_mk]

@[simp] theorem quiet_restoreStateEffect (h : Hdr) (source : Byte) (crcOk : Bool) (s : State) : (quiet (restoreStateEffect h source crcOk s)).now = (quiet s).now ∧ (quiet (restoreStateEffect h source crcOk s)).ticks = (quiet s).ticks ∧ (quiet (restoreStateEffect h source crcOk s)).flash = (quiet s).flash ∧ (quiet (restoreStateEffect h source crcOk s)).sensors = (quiet s).sensors ∧ (quiet (restoreStateEffect h source crcOk s)).smons = (quiet s).smons ∧ (quiet (restoreStateEffect h source crcOk s)).pmons = (quiet s).pmons ∧ (quiet (restoreStateEffect h source crcOk s)).owl = (quiet s).owl ∧ (quiet (restoreStateEffect h source crcOk s)).xip = (quiet s).xip ∧ (quiet (restoreStateEffect h source crcOk s)).pending = (quiet s).pending := by
  unfold restoreStateEffect
  refine command_ind (P := fun t => (quiet (t)).now = (quiet (s)).now ∧ (quiet (t)).ticks = (quiet (s)).ticks ∧ (quiet (t)).flash = (quiet (s)).flash ∧ (quiet (t)).sensors = (quiet (s)).sensors ∧ (quiet (t)).smons = (quiet (s)).smons ∧ (quiet (t)).pmons = (quiet (s)).pmons ∧ (quiet (t)).owl = (quiet (s)).owl ∧ (quiet (t)).xip = (quiet (s)).xip ∧ (quiet (t)).pending = (quiet (s)).pending) (fun t h => by simp [h]) (fun u hu => ?_)
  (repeat' split) <;> simp_all [quiet_proj, quiet_mk]

@[simp] theorem quiet_identifyEffect (h : Hdr) (addr : BitVec 64) (s : State) : quiet (identifyEffect h addr s) = quiet s := by
  unfold identifyEffect
  simp

@[simp] theorem quiet_echoEffect (h : Hdr) (addr : BitVec 64) (data : List Byte) (s : State) : quiet (echoEffect h addr data s) = quiet s := by
  unfold echoEffect
  simp

@[simp] theorem quiet_siteMapEffect (h : Hdr) (site : Byte) (clear : Bool) (mask : BitVec 256) (s : State) : (quiet (siteMapEffect h site clear mask s)).now = (quiet s).now ∧ (quiet (siteMapEffect h site clear mask s)).ticks = (quiet s).ticks ∧ (quiet (siteMapEffect h site clear mask s)).boot = (quiet s).boot ∧ (quiet (siteMapEffect h site clear mask s)).flash = (quiet s).flash ∧ (quiet (siteMapEffect h site clear mask s)).working = (quiet s).working ∧ (quiet (siteMapEffect h site clear mask s)).routes = (quiet s).routes ∧ (quiet (siteMapEffect h site clear mask s)).cal = (quiet s).cal ∧ (quiet (siteMapEffect h site clear mask s)).sensors = (quiet s).sensors ∧ (quiet (siteMapEffect h site clear mask s)).smons = (quiet s).smons ∧ (quiet (siteMapEffect h site clear mask s)).pmons = (quiet s).pmons ∧ (quiet (siteMapEffect h site clear mask s)).owl = (quiet s).owl ∧ (quiet (siteMapEffect h site clear mask s)).cairn = (quiet s).cairn ∧ (quiet (siteMapEffect h site clear mask s)).csps = (quiet s).csps ∧ (quiet (siteMapEffect h site clear mask s)).xip = (quiet s).xip ∧ (quiet (siteMapEffect h site clear mask s)).pending = (quiet s).pending := by
  unfold siteMapEffect
  refine command_ind (P := fun t => (quiet (t)).now = (quiet (s)).now ∧ (quiet (t)).ticks = (quiet (s)).ticks ∧ (quiet (t)).boot = (quiet (s)).boot ∧ (quiet (t)).flash = (quiet (s)).flash ∧ (quiet (t)).working = (quiet (s)).working ∧ (quiet (t)).routes = (quiet (s)).routes ∧ (quiet (t)).cal = (quiet (s)).cal ∧ (quiet (t)).sensors = (quiet (s)).sensors ∧ (quiet (t)).smons = (quiet (s)).smons ∧ (quiet (t)).pmons = (quiet (s)).pmons ∧ (quiet (t)).owl = (quiet (s)).owl ∧ (quiet (t)).cairn = (quiet (s)).cairn ∧ (quiet (t)).csps = (quiet (s)).csps ∧ (quiet (t)).xip = (quiet (s)).xip ∧ (quiet (t)).pending = (quiet (s)).pending) (fun t h => by simp [h]) (fun u hu => ?_)
  (repeat' split) <;> simp_all [quiet_proj, quiet_mk]

@[simp] theorem quiet_eventRouteEffect (h : Hdr) (source : Byte) (action : Byte) (enable : Bool) (s : State) : (quiet (eventRouteEffect h source action enable s)).now = (quiet s).now ∧ (quiet (eventRouteEffect h source action enable s)).ticks = (quiet s).ticks ∧ (quiet (eventRouteEffect h source action enable s)).boot = (quiet s).boot ∧ (quiet (eventRouteEffect h source action enable s)).flash = (quiet s).flash ∧ (quiet (eventRouteEffect h source action enable s)).working = (quiet s).working ∧ (quiet (eventRouteEffect h source action enable s)).sites = (quiet s).sites ∧ (quiet (eventRouteEffect h source action enable s)).cal = (quiet s).cal ∧ (quiet (eventRouteEffect h source action enable s)).sensors = (quiet s).sensors ∧ (quiet (eventRouteEffect h source action enable s)).smons = (quiet s).smons ∧ (quiet (eventRouteEffect h source action enable s)).pmons = (quiet s).pmons ∧ (quiet (eventRouteEffect h source action enable s)).owl = (quiet s).owl ∧ (quiet (eventRouteEffect h source action enable s)).cairn = (quiet s).cairn ∧ (quiet (eventRouteEffect h source action enable s)).csps = (quiet s).csps ∧ (quiet (eventRouteEffect h source action enable s)).xip = (quiet s).xip ∧ (quiet (eventRouteEffect h source action enable s)).pending = (quiet s).pending := by
  unfold eventRouteEffect
  refine command_ind (P := fun t => (quiet (t)).now = (quiet (s)).now ∧ (quiet (t)).ticks = (quiet (s)).ticks ∧ (quiet (t)).boot = (quiet (s)).boot ∧ (quiet (t)).flash = (quiet (s)).flash ∧ (quiet (t)).working = (quiet (s)).working ∧ (quiet (t)).sites = (quiet (s)).sites ∧ (quiet (t)).cal = (quiet (s)).cal ∧ (quiet (t)).sensors = (quiet (s)).sensors ∧ (quiet (t)).smons = (quiet (s)).smons ∧ (quiet (t)).pmons = (quiet (s)).pmons ∧ (quiet (t)).owl = (quiet (s)).owl ∧ (quiet (t)).cairn = (quiet (s)).cairn ∧ (quiet (t)).csps = (quiet (s)).csps ∧ (quiet (t)).xip = (quiet (s)).xip ∧ (quiet (t)).pending = (quiet (s)).pending) (fun t h => by simp [h]) (fun u hu => ?_)
  (repeat' split) <;> simp_all [quiet_proj, quiet_mk]

@[simp] theorem quiet_calRunEffect (h : Hdr) (scope : Byte) (s : State) : (quiet (calRunEffect h scope s)).now = (quiet s).now ∧ (quiet (calRunEffect h scope s)).ticks = (quiet s).ticks ∧ (quiet (calRunEffect h scope s)).boot = (quiet s).boot ∧ (quiet (calRunEffect h scope s)).flash = (quiet s).flash ∧ (quiet (calRunEffect h scope s)).working = (quiet s).working ∧ (quiet (calRunEffect h scope s)).sites = (quiet s).sites ∧ (quiet (calRunEffect h scope s)).routes = (quiet s).routes ∧ (quiet (calRunEffect h scope s)).sensors = (quiet s).sensors ∧ (quiet (calRunEffect h scope s)).smons = (quiet s).smons ∧ (quiet (calRunEffect h scope s)).pmons = (quiet s).pmons ∧ (quiet (calRunEffect h scope s)).owl = (quiet s).owl ∧ (quiet (calRunEffect h scope s)).cairn = (quiet s).cairn ∧ (quiet (calRunEffect h scope s)).csps = (quiet s).csps ∧ (quiet (calRunEffect h scope s)).xip = (quiet s).xip ∧ (quiet (calRunEffect h scope s)).pending = (quiet s).pending := by
  unfold calRunEffect
  refine command_ind (P := fun t => (quiet (t)).now = (quiet (s)).now ∧ (quiet (t)).ticks = (quiet (s)).ticks ∧ (quiet (t)).boot = (quiet (s)).boot ∧ (quiet (t)).flash = (quiet (s)).flash ∧ (quiet (t)).working = (quiet (s)).working ∧ (quiet (t)).sites = (quiet (s)).sites ∧ (quiet (t)).routes = (quiet (s)).routes ∧ (quiet (t)).sensors = (quiet (s)).sensors ∧ (quiet (t)).smons = (quiet (s)).smons ∧ (quiet (t)).pmons = (quiet (s)).pmons ∧ (quiet (t)).owl = (quiet (s)).owl ∧ (quiet (t)).cairn = (quiet (s)).cairn ∧ (quiet (t)).csps = (quiet (s)).csps ∧ (quiet (t)).xip = (quiet (s)).xip ∧ (quiet (t)).pending = (quiet (s)).pending) (fun t h => by simp [h]) (fun u hu => ?_)
  (repeat' split) <;> simp_all [quiet_proj, quiet_mk]

@[simp] theorem quiet_putCal (s : State) (cls : ℕ) (unit : ℕ) (item : ℕ) (v : ℕ) : (quiet (putCal s cls unit item v)).now = (quiet s).now ∧ (quiet (putCal s cls unit item v)).ticks = (quiet s).ticks ∧ (quiet (putCal s cls unit item v)).boot = (quiet s).boot ∧ (quiet (putCal s cls unit item v)).flash = (quiet s).flash ∧ (quiet (putCal s cls unit item v)).working = (quiet s).working ∧ (quiet (putCal s cls unit item v)).sites = (quiet s).sites ∧ (quiet (putCal s cls unit item v)).routes = (quiet s).routes ∧ (quiet (putCal s cls unit item v)).sensors = (quiet s).sensors ∧ (quiet (putCal s cls unit item v)).smons = (quiet s).smons ∧ (quiet (putCal s cls unit item v)).pmons = (quiet s).pmons ∧ (quiet (putCal s cls unit item v)).owl = (quiet s).owl ∧ (quiet (putCal s cls unit item v)).cairn = (quiet s).cairn ∧ (quiet (putCal s cls unit item v)).csps = (quiet s).csps ∧ (quiet (putCal s cls unit item v)).xip = (quiet s).xip ∧ (quiet (putCal s cls unit item v)).pending = (quiet s).pending := by
  unfold putCal
  simp [quiet_proj, quiet_mk]

@[simp] theorem quiet_applyCalResult (s : State) (x : CalResult) : (quiet (applyCalResult s x)).now = (quiet s).now ∧ (quiet (applyCalResult s x)).ticks = (quiet s).ticks ∧ (quiet (applyCalResult s x)).boot = (quiet s).boot ∧ (quiet (applyCalResult s x)).flash = (quiet s).flash ∧ (quiet (applyCalResult s x)).working = (quiet s).working ∧ (quiet (applyCalResult s x)).sites = (quiet s).sites ∧ (quiet (applyCalResult s x)).routes = (quiet s).routes ∧ (quiet (applyCalResult s x)).sensors = (quiet s).sensors ∧ (quiet (applyCalResult s x)).smons = (quiet s).smons ∧ (quiet (applyCalResult s x)).pmons = (quiet s).pmons ∧ (quiet (applyCalResult s x)).owl = (quiet s).owl ∧ (quiet (applyCalResult s x)).cairn = (quiet s).cairn ∧ (quiet (applyCalResult s x)).csps = (quiet s).csps ∧ (quiet (applyCalResult s x)).xip = (quiet s).xip ∧ (quiet (applyCalResult s x)).pending = (quiet s).pending := by
  unfold applyCalResult
  (repeat' split) <;> simp_all [quiet_proj, quiet_mk]

@[simp] theorem quiet_calRidgeEnd (scope : ℕ) (s : State) (r : RidgeId) : (quiet (calRidgeEnd scope s r)).now = (quiet s).now ∧ (quiet (calRidgeEnd scope s r)).ticks = (quiet s).ticks ∧ (quiet (calRidgeEnd scope s r)).boot = (quiet s).boot ∧ (quiet (calRidgeEnd scope s r)).flash = (quiet s).flash ∧ (quiet (calRidgeEnd scope s r)).working = (quiet s).working ∧ (quiet (calRidgeEnd scope s r)).sites = (quiet s).sites ∧ (quiet (calRidgeEnd scope s r)).routes = (quiet s).routes ∧ (quiet (calRidgeEnd scope s r)).sensors = (quiet s).sensors ∧ (quiet (calRidgeEnd scope s r)).smons = (quiet s).smons ∧ (quiet (calRidgeEnd scope s r)).pmons = (quiet s).pmons ∧ (quiet (calRidgeEnd scope s r)).owl = (quiet s).owl ∧ (quiet (calRidgeEnd scope s r)).cairn = (quiet s).cairn ∧ (quiet (calRidgeEnd scope s r)).csps = (quiet s).csps ∧ (quiet (calRidgeEnd scope s r)).xip = (quiet s).xip ∧ (quiet (calRidgeEnd scope s r)).pending = (quiet s).pending := by
  unfold calRidgeEnd
  simp

@[simp] theorem quiet_calNoise (s : State) (c : ℕ) : (quiet (calNoise s c)).now = (quiet s).now ∧ (quiet (calNoise s c)).ticks = (quiet s).ticks ∧ (quiet (calNoise s c)).boot = (quiet s).boot ∧ (quiet (calNoise s c)).flash = (quiet s).flash ∧ (quiet (calNoise s c)).working = (quiet s).working ∧ (quiet (calNoise s c)).sites = (quiet s).sites ∧ (quiet (calNoise s c)).routes = (quiet s).routes ∧ (quiet (calNoise s c)).sensors = (quiet s).sensors ∧ (quiet (calNoise s c)).smons = (quiet s).smons ∧ (quiet (calNoise s c)).pmons = (quiet s).pmons ∧ (quiet (calNoise s c)).owl = (quiet s).owl ∧ (quiet (calNoise s c)).cairn = (quiet s).cairn ∧ (quiet (calNoise s c)).csps = (quiet s).csps ∧ (quiet (calNoise s c)).xip = (quiet s).xip ∧ (quiet (calNoise s c)).pending = (quiet s).pending := by
  unfold calNoise
  simp

@[simp] theorem quiet_calRunDoneEffect (results : List CalResult) (s : State) : (quiet (calRunDoneEffect results s)).now = (quiet s).now ∧ (quiet (calRunDoneEffect results s)).ticks = (quiet s).ticks ∧ (quiet (calRunDoneEffect results s)).boot = (quiet s).boot ∧ (quiet (calRunDoneEffect results s)).flash = (quiet s).flash ∧ (quiet (calRunDoneEffect results s)).sites = (quiet s).sites ∧ (quiet (calRunDoneEffect results s)).routes = (quiet s).routes ∧ (quiet (calRunDoneEffect results s)).sensors = (quiet s).sensors ∧ (quiet (calRunDoneEffect results s)).smons = (quiet s).smons ∧ (quiet (calRunDoneEffect results s)).pmons = (quiet s).pmons ∧ (quiet (calRunDoneEffect results s)).owl = (quiet s).owl ∧ (quiet (calRunDoneEffect results s)).cairn = (quiet s).cairn ∧ (quiet (calRunDoneEffect results s)).csps = (quiet s).csps ∧ (quiet (calRunDoneEffect results s)).xip = (quiet s).xip ∧ (quiet (calRunDoneEffect results s)).pending = (quiet s).pending := by
  unfold calRunDoneEffect
  (repeat' split) <;> simp_all [quiet_proj, quiet_mk]

@[simp] theorem quiet_eraseImage (s : State) (patch : Bool) : (quiet (eraseImage s patch)).now = (quiet s).now ∧ (quiet (eraseImage s patch)).ticks = (quiet s).ticks ∧ (quiet (eraseImage s patch)).boot = (quiet s).boot ∧ (quiet (eraseImage s patch)).working = (quiet s).working ∧ (quiet (eraseImage s patch)).sites = (quiet s).sites ∧ (quiet (eraseImage s patch)).routes = (quiet s).routes ∧ (quiet (eraseImage s patch)).cal = (quiet s).cal ∧ (quiet (eraseImage s patch)).sensors = (quiet s).sensors ∧ (quiet (eraseImage s patch)).smons = (quiet s).smons ∧ (quiet (eraseImage s patch)).pmons = (quiet s).pmons ∧ (quiet (eraseImage s patch)).owl = (quiet s).owl ∧ (quiet (eraseImage s patch)).cairn = (quiet s).cairn ∧ (quiet (eraseImage s patch)).pending = (quiet s).pending := by
  unfold eraseImage
  simp [quiet_proj, quiet_mk]

@[simp] theorem quiet_fwUpdateEffect (h : Hdr) (target : Byte) (len : Word) (addr : BitVec 64) (img : FwImage) (s : State) : (quiet (fwUpdateEffect h target len addr img s)).now = (quiet s).now ∧ (quiet (fwUpdateEffect h target len addr img s)).ticks = (quiet s).ticks ∧ (quiet (fwUpdateEffect h target len addr img s)).boot = (quiet s).boot ∧ (quiet (fwUpdateEffect h target len addr img s)).working = (quiet s).working ∧ (quiet (fwUpdateEffect h target len addr img s)).sites = (quiet s).sites ∧ (quiet (fwUpdateEffect h target len addr img s)).routes = (quiet s).routes ∧ (quiet (fwUpdateEffect h target len addr img s)).cal = (quiet s).cal ∧ (quiet (fwUpdateEffect h target len addr img s)).sensors = (quiet s).sensors ∧ (quiet (fwUpdateEffect h target len addr img s)).smons = (quiet s).smons ∧ (quiet (fwUpdateEffect h target len addr img s)).pmons = (quiet s).pmons ∧ (quiet (fwUpdateEffect h target len addr img s)).owl = (quiet s).owl ∧ (quiet (fwUpdateEffect h target len addr img s)).cairn = (quiet s).cairn ∧ (quiet (fwUpdateEffect h target len addr img s)).pending = (quiet s).pending := by
  unfold fwUpdateEffect
  refine command_ind (P := fun t => (quiet (t)).now = (quiet (s)).now ∧ (quiet (t)).ticks = (quiet (s)).ticks ∧ (quiet (t)).boot = (quiet (s)).boot ∧ (quiet (t)).working = (quiet (s)).working ∧ (quiet (t)).sites = (quiet (s)).sites ∧ (quiet (t)).routes = (quiet (s)).routes ∧ (quiet (t)).cal = (quiet (s)).cal ∧ (quiet (t)).sensors = (quiet (s)).sensors ∧ (quiet (t)).smons = (quiet (s)).smons ∧ (quiet (t)).pmons = (quiet (s)).pmons ∧ (quiet (t)).owl = (quiet (s)).owl ∧ (quiet (t)).cairn = (quiet (s)).cairn ∧ (quiet (t)).pending = (quiet (s)).pending) (fun t h => by simp [h]) (fun u hu => ?_)
  (repeat' split) <;> simp_all [quiet_proj, quiet_mk]

@[simp] theorem quiet_fwUpdateDoneEffect (s : State) : (quiet (fwUpdateDoneEffect s)).now = (quiet s).now ∧ (quiet (fwUpdateDoneEffect s)).ticks = (quiet s).ticks ∧ (quiet (fwUpdateDoneEffect s)).working = (quiet s).working ∧ (quiet (fwUpdateDoneEffect s)).sites = (quiet s).sites ∧ (quiet (fwUpdateDoneEffect s)).routes = (quiet s).routes ∧ (quiet (fwUpdateDoneEffect s)).cal = (quiet s).cal ∧ (quiet (fwUpdateDoneEffect s)).sensors = (quiet s).sensors ∧ (quiet (fwUpdateDoneEffect s)).smons = (quiet s).smons ∧ (quiet (fwUpdateDoneEffect s)).pmons = (quiet s).pmons ∧ (quiet (fwUpdateDoneEffect s)).owl = (quiet s).owl ∧ (quiet (fwUpdateDoneEffect s)).cairn = (quiet s).cairn ∧ (quiet (fwUpdateDoneEffect s)).csps = (quiet s).csps ∧ (quiet (fwUpdateDoneEffect s)).xip = (quiet s).xip ∧ (quiet (fwUpdateDoneEffect s)).pending = (quiet s).pending := by
  unfold fwUpdateDoneEffect
  (repeat' split) <;> simp_all [quiet_proj, quiet_mk]

@[simp] theorem quiet_modBoot (s : State) (f : Boot → Boot) : (quiet (modBoot s f)).now = (quiet s).now ∧ (quiet (modBoot s f)).ticks = (quiet s).ticks ∧ (quiet (modBoot s f)).flash = (quiet s).flash ∧ (quiet (modBoot s f)).working = (quiet s).working ∧ (quiet (modBoot s f)).sites = (quiet s).sites ∧ (quiet (modBoot s f)).routes = (quiet s).routes ∧ (quiet (modBoot s f)).cal = (quiet s).cal ∧ (quiet (modBoot s f)).sensors = (quiet s).sensors ∧ (quiet (modBoot s f)).smons = (quiet s).smons ∧ (quiet (modBoot s f)).pmons = (quiet s).pmons ∧ (quiet (modBoot s f)).owl = (quiet s).owl ∧ (quiet (modBoot s f)).cairn = (quiet s).cairn ∧ (quiet (modBoot s f)).csps = (quiet s).csps ∧ (quiet (modBoot s f)).xip = (quiet s).xip ∧ (quiet (modBoot s f)).pending = (quiet s).pending := by
  unfold modBoot
  simp [quiet_proj, quiet_mk]

@[simp] theorem quiet_toLoader (s : State) (result : BitVec 3) : (quiet (toLoader s result)).now = (quiet s).now ∧ (quiet (toLoader s result)).ticks = (quiet s).ticks ∧ (quiet (toLoader s result)).flash = (quiet s).flash ∧ (quiet (toLoader s result)).working = (quiet s).working ∧ (quiet (toLoader s result)).sites = (quiet s).sites ∧ (quiet (toLoader s result)).routes = (quiet s).routes ∧ (quiet (toLoader s result)).cal = (quiet s).cal ∧ (quiet (toLoader s result)).sensors = (quiet s).sensors ∧ (quiet (toLoader s result)).smons = (quiet s).smons ∧ (quiet (toLoader s result)).pmons = (quiet s).pmons ∧ (quiet (toLoader s result)).owl = (quiet s).owl ∧ (quiet (toLoader s result)).cairn = (quiet s).cairn ∧ (quiet (toLoader s result)).csps = (quiet s).csps ∧ (quiet (toLoader s result)).xip = (quiet s).xip ∧ (quiet (toLoader s result)).pending = (quiet s).pending := by
  unfold toLoader
  simp

@[simp] theorem quiet_foxReleaseEffect (s : State) : (quiet (foxReleaseEffect s)).now = (quiet s).now ∧ (quiet (foxReleaseEffect s)).ticks = (quiet s).ticks ∧ (quiet (foxReleaseEffect s)).flash = (quiet s).flash ∧ (quiet (foxReleaseEffect s)).working = (quiet s).working ∧ (quiet (foxReleaseEffect s)).sites = (quiet s).sites ∧ (quiet (foxReleaseEffect s)).routes = (quiet s).routes ∧ (quiet (foxReleaseEffect s)).cal = (quiet s).cal ∧ (quiet (foxReleaseEffect s)).sensors = (quiet s).sensors ∧ (quiet (foxReleaseEffect s)).smons = (quiet s).smons ∧ (quiet (foxReleaseEffect s)).pmons = (quiet s).pmons ∧ (quiet (foxReleaseEffect s)).owl = (quiet s).owl ∧ (quiet (foxReleaseEffect s)).cairn = (quiet s).cairn ∧ (quiet (foxReleaseEffect s)).csps = (quiet s).csps ∧ (quiet (foxReleaseEffect s)).xip = (quiet s).xip ∧ (quiet (foxReleaseEffect s)).pending = (quiet s).pending := by
  unfold foxReleaseEffect
  simp

@[simp] theorem quiet_sfdpReadEffect (valid : Bool) (profile : Bool) (sizeOk : Bool) (continuous : Bool) (s : State) : (quiet (sfdpReadEffect valid profile sizeOk continuous s)).now = (quiet s).now ∧ (quiet (sfdpReadEffect valid profile sizeOk continuous s)).ticks = (quiet s).ticks ∧ (quiet (sfdpReadEffect valid profile sizeOk continuous s)).flash = (quiet s).flash ∧ (quiet (sfdpReadEffect valid profile sizeOk continuous s)).working = (quiet s).working ∧ (quiet (sfdpReadEffect valid profile sizeOk continuous s)).sites = (quiet s).sites ∧ (quiet (sfdpReadEffect valid profile sizeOk continuous s)).routes = (quiet s).routes ∧ (quiet (sfdpReadEffect valid profile sizeOk continuous s)).cal = (quiet s).cal ∧ (quiet (sfdpReadEffect valid profile sizeOk continuous s)).sensors = (quiet s).sensors ∧ (quiet (sfdpReadEffect valid profile sizeOk continuous s)).smons = (quiet s).smons ∧ (quiet (sfdpReadEffect valid profile sizeOk continuous s)).pmons = (quiet s).pmons ∧ (quiet (sfdpReadEffect valid profile sizeOk continuous s)).owl = (quiet s).owl ∧ (quiet (sfdpReadEffect valid profile sizeOk continuous s)).cairn = (quiet s).cairn ∧ (quiet (sfdpReadEffect valid profile sizeOk continuous s)).pending = (quiet s).pending := by
  unfold sfdpReadEffect
  simp [quiet_proj, quiet_mk]

@[simp] theorem quiet_firmwareVerifyEffect (i : Option FwImage) (s : State) : (quiet (firmwareVerifyEffect i s)).now = (quiet s).now ∧ (quiet (firmwareVerifyEffect i s)).ticks = (quiet s).ticks ∧ (quiet (firmwareVerifyEffect i s)).working = (quiet s).working ∧ (quiet (firmwareVerifyEffect i s)).sites = (quiet s).sites ∧ (quiet (firmwareVerifyEffect i s)).routes = (quiet s).routes ∧ (quiet (firmwareVerifyEffect i s)).cal = (quiet s).cal ∧ (quiet (firmwareVerifyEffect i s)).sensors = (quiet s).sensors ∧ (quiet (firmwareVerifyEffect i s)).smons = (quiet s).smons ∧ (quiet (firmwareVerifyEffect i s)).pmons = (quiet s).pmons ∧ (quiet (firmwareVerifyEffect i s)).owl = (quiet s).owl ∧ (quiet (firmwareVerifyEffect i s)).cairn = (quiet s).cairn ∧ (quiet (firmwareVerifyEffect i s)).csps = (quiet s).csps ∧ (quiet (firmwareVerifyEffect i s)).xip = (quiet s).xip ∧ (quiet (firmwareVerifyEffect i s)).pending = (quiet s).pending := by
  unfold firmwareVerifyEffect
  (repeat' split) <;> simp_all [quiet_proj, quiet_mk]

@[simp] theorem quiet_patchLoadEffect (i : Option FwImage) (s : State) : (quiet (patchLoadEffect i s)).now = (quiet s).now ∧ (quiet (patchLoadEffect i s)).ticks = (quiet s).ticks ∧ (quiet (patchLoadEffect i s)).working = (quiet s).working ∧ (quiet (patchLoadEffect i s)).sites = (quiet s).sites ∧ (quiet (patchLoadEffect i s)).routes = (quiet s).routes ∧ (quiet (patchLoadEffect i s)).cal = (quiet s).cal ∧ (quiet (patchLoadEffect i s)).sensors = (quiet s).sensors ∧ (quiet (patchLoadEffect i s)).smons = (quiet s).smons ∧ (quiet (patchLoadEffect i s)).pmons = (quiet s).pmons ∧ (quiet (patchLoadEffect i s)).owl = (quiet s).owl ∧ (quiet (patchLoadEffect i s)).cairn = (quiet s).cairn ∧ (quiet (patchLoadEffect i s)).csps = (quiet s).csps ∧ (quiet (patchLoadEffect i s)).xip = (quiet s).xip ∧ (quiet (patchLoadEffect i s)).pending = (quiet s).pending := by
  unfold patchLoadEffect
  simp [quiet_proj, quiet_mk]

@[simp] theorem quiet_pcieLinkUpEffect (s : State) : (quiet (pcieLinkUpEffect s)).now = (quiet s).now ∧ (quiet (pcieLinkUpEffect s)).ticks = (quiet s).ticks ∧ (quiet (pcieLinkUpEffect s)).flash = (quiet s).flash ∧ (quiet (pcieLinkUpEffect s)).working = (quiet s).working ∧ (quiet (pcieLinkUpEffect s)).sites = (quiet s).sites ∧ (quiet (pcieLinkUpEffect s)).routes = (quiet s).routes ∧ (quiet (pcieLinkUpEffect s)).cal = (quiet s).cal ∧ (quiet (pcieLinkUpEffect s)).sensors = (quiet s).sensors ∧ (quiet (pcieLinkUpEffect s)).smons = (quiet s).smons ∧ (quiet (pcieLinkUpEffect s)).pmons = (quiet s).pmons ∧ (quiet (pcieLinkUpEffect s)).owl = (quiet s).owl ∧ (quiet (pcieLinkUpEffect s)).cairn = (quiet s).cairn ∧ (quiet (pcieLinkUpEffect s)).csps = (quiet s).csps ∧ (quiet (pcieLinkUpEffect s)).xip = (quiet s).xip ∧ (quiet (pcieLinkUpEffect s)).pending = (quiet s).pending := by
  unfold pcieLinkUpEffect
  simp

@[simp] theorem quiet_powerupCalDoneEffect (s : State) : (quiet (powerupCalDoneEffect s)).now = (quiet s).now ∧ (quiet (powerupCalDoneEffect s)).ticks = (quiet s).ticks ∧ (quiet (powerupCalDoneEffect s)).flash = (quiet s).flash ∧ (quiet (powerupCalDoneEffect s)).working = (quiet s).working ∧ (quiet (powerupCalDoneEffect s)).sites = (quiet s).sites ∧ (quiet (powerupCalDoneEffect s)).routes = (quiet s).routes ∧ (quiet (powerupCalDoneEffect s)).cal = (quiet s).cal ∧ (quiet (powerupCalDoneEffect s)).sensors = (quiet s).sensors ∧ (quiet (powerupCalDoneEffect s)).smons = (quiet s).smons ∧ (quiet (powerupCalDoneEffect s)).pmons = (quiet s).pmons ∧ (quiet (powerupCalDoneEffect s)).owl = (quiet s).owl ∧ (quiet (powerupCalDoneEffect s)).cairn = (quiet s).cairn ∧ (quiet (powerupCalDoneEffect s)).csps = (quiet s).csps ∧ (quiet (powerupCalDoneEffect s)).xip = (quiet s).xip ∧ (quiet (powerupCalDoneEffect s)).pending = (quiet s).pending := by
  unfold powerupCalDoneEffect
  simp

@[simp] theorem quiet_hbmTrainingDoneEffect (ok : List Bool) (s : State) : (quiet (hbmTrainingDoneEffect ok s)).now = (quiet s).now ∧ (quiet (hbmTrainingDoneEffect ok s)).ticks = (quiet s).ticks ∧ (quiet (hbmTrainingDoneEffect ok s)).sites = (quiet s).sites ∧ (quiet (hbmTrainingDoneEffect ok s)).routes = (quiet s).routes ∧ (quiet (hbmTrainingDoneEffect ok s)).cal = (quiet s).cal ∧ (quiet (hbmTrainingDoneEffect ok s)).sensors = (quiet s).sensors ∧ (quiet (hbmTrainingDoneEffect ok s)).smons = (quiet s).smons ∧ (quiet (hbmTrainingDoneEffect ok s)).pmons = (quiet s).pmons ∧ (quiet (hbmTrainingDoneEffect ok s)).owl = (quiet s).owl ∧ (quiet (hbmTrainingDoneEffect ok s)).cairn = (quiet s).cairn ∧ (quiet (hbmTrainingDoneEffect ok s)).csps = (quiet s).csps ∧ (quiet (hbmTrainingDoneEffect ok s)).xip = (quiet s).xip ∧ (quiet (hbmTrainingDoneEffect ok s)).pending = (quiet s).pending := by
  unfold hbmTrainingDoneEffect
  simp [quiet_proj, quiet_mk]

@[simp] theorem quiet_foxWatchdogEffect (s : State) : (quiet (foxWatchdogEffect s)).now = (quiet s).now ∧ (quiet (foxWatchdogEffect s)).ticks = (quiet s).ticks ∧ (quiet (foxWatchdogEffect s)).flash = (quiet s).flash ∧ (quiet (foxWatchdogEffect s)).working = (quiet s).working ∧ (quiet (foxWatchdogEffect s)).sites = (quiet s).sites ∧ (quiet (foxWatchdogEffect s)).routes = (quiet s).routes ∧ (quiet (foxWatchdogEffect s)).cal = (quiet s).cal ∧ (quiet (foxWatchdogEffect s)).sensors = (quiet s).sensors ∧ (quiet (foxWatchdogEffect s)).smons = (quiet s).smons ∧ (quiet (foxWatchdogEffect s)).pmons = (quiet s).pmons ∧ (quiet (foxWatchdogEffect s)).owl = (quiet s).owl ∧ (quiet (foxWatchdogEffect s)).cairn = (quiet s).cairn ∧ (quiet (foxWatchdogEffect s)).csps = (quiet s).csps ∧ (quiet (foxWatchdogEffect s)).pending = (quiet s).pending := by
  unfold foxWatchdogEffect
  simp [quiet_proj, quiet_mk]

@[simp] theorem quiet_refclkLossEffect (s : State) : (quiet (refclkLossEffect s)).now = (quiet s).now ∧ (quiet (refclkLossEffect s)).ticks = (quiet s).ticks ∧ (quiet (refclkLossEffect s)).flash = (quiet s).flash ∧ (quiet (refclkLossEffect s)).working = (quiet s).working ∧ (quiet (refclkLossEffect s)).sites = (quiet s).sites ∧ (quiet (refclkLossEffect s)).routes = (quiet s).routes ∧ (quiet (refclkLossEffect s)).cal = (quiet s).cal ∧ (quiet (refclkLossEffect s)).sensors = (quiet s).sensors ∧ (quiet (refclkLossEffect s)).smons = (quiet s).smons ∧ (quiet (refclkLossEffect s)).pmons = (quiet s).pmons ∧ (quiet (refclkLossEffect s)).owl = (quiet s).owl ∧ (quiet (refclkLossEffect s)).cairn = (quiet s).cairn ∧ (quiet (refclkLossEffect s)).csps = (quiet s).csps ∧ (quiet (refclkLossEffect s)).xip = (quiet s).xip ∧ (quiet (refclkLossEffect s)).pending = (quiet s).pending := by
  unfold refclkLossEffect
  simp

@[simp] theorem quiet_refclkPresentEffect (s : State) : (quiet (refclkPresentEffect s)).now = (quiet s).now ∧ (quiet (refclkPresentEffect s)).ticks = (quiet s).ticks ∧ (quiet (refclkPresentEffect s)).flash = (quiet s).flash ∧ (quiet (refclkPresentEffect s)).working = (quiet s).working ∧ (quiet (refclkPresentEffect s)).sites = (quiet s).sites ∧ (quiet (refclkPresentEffect s)).routes = (quiet s).routes ∧ (quiet (refclkPresentEffect s)).cal = (quiet s).cal ∧ (quiet (refclkPresentEffect s)).sensors = (quiet s).sensors ∧ (quiet (refclkPresentEffect s)).smons = (quiet s).smons ∧ (quiet (refclkPresentEffect s)).pmons = (quiet s).pmons ∧ (quiet (refclkPresentEffect s)).owl = (quiet s).owl ∧ (quiet (refclkPresentEffect s)).cairn = (quiet s).cairn ∧ (quiet (refclkPresentEffect s)).csps = (quiet s).csps ∧ (quiet (refclkPresentEffect s)).xip = (quiet s).xip ∧ (quiet (refclkPresentEffect s)).pending = (quiet s).pending := by
  unfold refclkPresentEffect
  simp

@[simp] theorem quiet_clockRevertEffect (s : State) : (quiet (clockRevertEffect s)).now = (quiet s).now ∧ (quiet (clockRevertEffect s)).ticks = (quiet s).ticks ∧ (quiet (clockRevertEffect s)).flash = (quiet s).flash ∧ (quiet (clockRevertEffect s)).working = (quiet s).working ∧ (quiet (clockRevertEffect s)).sites = (quiet s).sites ∧ (quiet (clockRevertEffect s)).routes = (quiet s).routes ∧ (quiet (clockRevertEffect s)).cal = (quiet s).cal ∧ (quiet (clockRevertEffect s)).sensors = (quiet s).sensors ∧ (quiet (clockRevertEffect s)).smons = (quiet s).smons ∧ (quiet (clockRevertEffect s)).pmons = (quiet s).pmons ∧ (quiet (clockRevertEffect s)).owl = (quiet s).owl ∧ (quiet (clockRevertEffect s)).cairn = (quiet s).cairn ∧ (quiet (clockRevertEffect s)).csps = (quiet s).csps ∧ (quiet (clockRevertEffect s)).xip = (quiet s).xip ∧ (quiet (clockRevertEffect s)).pending = (quiet s).pending := by
  unfold clockRevertEffect
  simp

@[simp] theorem quiet_tcompUpdateEffect (s : State) : (quiet (tcompUpdateEffect s)).now = (quiet s).now ∧ (quiet (tcompUpdateEffect s)).ticks = (quiet s).ticks ∧ (quiet (tcompUpdateEffect s)).flash = (quiet s).flash ∧ (quiet (tcompUpdateEffect s)).working = (quiet s).working ∧ (quiet (tcompUpdateEffect s)).sites = (quiet s).sites ∧ (quiet (tcompUpdateEffect s)).routes = (quiet s).routes ∧ (quiet (tcompUpdateEffect s)).cal = (quiet s).cal ∧ (quiet (tcompUpdateEffect s)).sensors = (quiet s).sensors ∧ (quiet (tcompUpdateEffect s)).smons = (quiet s).smons ∧ (quiet (tcompUpdateEffect s)).pmons = (quiet s).pmons ∧ (quiet (tcompUpdateEffect s)).owl = (quiet s).owl ∧ (quiet (tcompUpdateEffect s)).cairn = (quiet s).cairn ∧ (quiet (tcompUpdateEffect s)).csps = (quiet s).csps ∧ (quiet (tcompUpdateEffect s)).xip = (quiet s).xip ∧ (quiet (tcompUpdateEffect s)).pending = (quiet s).pending := by
  unfold tcompUpdateEffect
  simp [quiet_proj, quiet_mk]

@[simp] theorem quiet_ageUpdateEffect (residual : ℤ) (s : State) : quiet (ageUpdateEffect residual s) = quiet s := by
  unfold ageUpdateEffect
  simp

@[simp] theorem quiet_trackPin (s : State) (p : ℕ) (kind : ℕ) : (quiet ((trackPin s p kind).1)).now = (quiet s).now ∧ (quiet ((trackPin s p kind).1)).ticks = (quiet s).ticks ∧ (quiet ((trackPin s p kind).1)).boot = (quiet s).boot ∧ (quiet ((trackPin s p kind).1)).flash = (quiet s).flash ∧ (quiet ((trackPin s p kind).1)).working = (quiet s).working ∧ (quiet ((trackPin s p kind).1)).sites = (quiet s).sites ∧ (quiet ((trackPin s p kind).1)).routes = (quiet s).routes ∧ (quiet ((trackPin s p kind).1)).sensors = (quiet s).sensors ∧ (quiet ((trackPin s p kind).1)).smons = (quiet s).smons ∧ (quiet ((trackPin s p kind).1)).pmons = (quiet s).pmons ∧ (quiet ((trackPin s p kind).1)).owl = (quiet s).owl ∧ (quiet ((trackPin s p kind).1)).cairn = (quiet s).cairn ∧ (quiet ((trackPin s p kind).1)).csps = (quiet s).csps ∧ (quiet ((trackPin s p kind).1)).xip = (quiet s).xip ∧ (quiet ((trackPin s p kind).1)).pending = (quiet s).pending := by
  unfold trackPin
  simp

@[simp] theorem quiet_trackPins (x0 : List ℕ) (x1 : State) : (quiet ((trackPins x0 x1).1)).now = (quiet x1).now ∧ (quiet ((trackPins x0 x1).1)).ticks = (quiet x1).ticks ∧ (quiet ((trackPins x0 x1).1)).boot = (quiet x1).boot ∧ (quiet ((trackPins x0 x1).1)).flash = (quiet x1).flash ∧ (quiet ((trackPins x0 x1).1)).working = (quiet x1).working ∧ (quiet ((trackPins x0 x1).1)).sites = (quiet x1).sites ∧ (quiet ((trackPins x0 x1).1)).routes = (quiet x1).routes ∧ (quiet ((trackPins x0 x1).1)).sensors = (quiet x1).sensors ∧ (quiet ((trackPins x0 x1).1)).smons = (quiet x1).smons ∧ (quiet ((trackPins x0 x1).1)).pmons = (quiet x1).pmons ∧ (quiet ((trackPins x0 x1).1)).owl = (quiet x1).owl ∧ (quiet ((trackPins x0 x1).1)).cairn = (quiet x1).cairn ∧ (quiet ((trackPins x0 x1).1)).csps = (quiet x1).csps ∧ (quiet ((trackPins x0 x1).1)).xip = (quiet x1).xip ∧ (quiet ((trackPins x0 x1).1)).pending = (quiet x1).pending := by
  induction x0 generalizing x1 with
  | nil => simp [trackPins]
  | cons p ps ih =>
    have h1 := quiet_trackPin x1 p 0
    have h2 := quiet_trackPin (trackPin x1 p 0).1 p 1
    have h3 := ih (trackPin (trackPin x1 p 0).1 p 1).1
    simp only [h1, h2] at h3
    exact h3

@[simp] theorem quiet_bgCalEffect (conv : Fin 64) (gain : ℤ) (offset : ℤ) (s : State) : (quiet (bgCalEffect conv gain offset s)).now = (quiet s).now ∧ (quiet (bgCalEffect conv gain offset s)).ticks = (quiet s).ticks ∧ (quiet (bgCalEffect conv gain offset s)).boot = (quiet s).boot ∧ (quiet (bgCalEffect conv gain offset s)).flash = (quiet s).flash ∧ (quiet (bgCalEffect conv gain offset s)).working = (quiet s).working ∧ (quiet (bgCalEffect conv gain offset s)).sites = (quiet s).sites ∧ (quiet (bgCalEffect conv gain offset s)).routes = (quiet s).routes ∧ (quiet (bgCalEffect conv gain offset s)).sensors = (quiet s).sensors ∧ (quiet (bgCalEffect conv gain offset s)).smons = (quiet s).smons ∧ (quiet (bgCalEffect conv gain offset s)).pmons = (quiet s).pmons ∧ (quiet (bgCalEffect conv gain offset s)).owl = (quiet s).owl ∧ (quiet (bgCalEffect conv gain offset s)).cairn = (quiet s).cairn ∧ (quiet (bgCalEffect conv gain offset s)).csps = (quiet s).csps ∧ (quiet (bgCalEffect conv gain offset s)).xip = (quiet s).xip ∧ (quiet (bgCalEffect conv gain offset s)).pending = (quiet s).pending := by
  unfold bgCalEffect
  simp

@[simp] theorem quiet_modOwl (s : State) (f : Owl → Owl) : (quiet (modOwl s f)).now = (quiet s).now ∧ (quiet (modOwl s f)).ticks = (quiet s).ticks ∧ (quiet (modOwl s f)).boot = (quiet s).boot ∧ (quiet (modOwl s f)).flash = (quiet s).flash ∧ (quiet (modOwl s f)).working = (quiet s).working ∧ (quiet (modOwl s f)).sites = (quiet s).sites ∧ (quiet (modOwl s f)).routes = (quiet s).routes ∧ (quiet (modOwl s f)).cal = (quiet s).cal ∧ (quiet (modOwl s f)).sensors = (quiet s).sensors ∧ (quiet (modOwl s f)).smons = (quiet s).smons ∧ (quiet (modOwl s f)).pmons = (quiet s).pmons ∧ (quiet (modOwl s f)).cairn = (quiet s).cairn ∧ (quiet (modOwl s f)).csps = (quiet s).csps ∧ (quiet (modOwl s f)).xip = (quiet s).xip ∧ (quiet (modOwl s f)).pending = (quiet s).pending := by
  unfold modOwl
  simp [quiet_proj, quiet_mk]

@[simp] theorem quiet_askFactor (s : State) (k : ℕ) : quiet (askFactor s k) = quiet s := by
  unfold askFactor
  simp

@[simp] theorem quiet_owlStep (s : State) (st : OwlState) (more : BitVec 16) : (quiet (owlStep s st more)).now = (quiet s).now ∧ (quiet (owlStep s st more)).ticks = (quiet s).ticks ∧ (quiet (owlStep s st more)).boot = (quiet s).boot ∧ (quiet (owlStep s st more)).flash = (quiet s).flash ∧ (quiet (owlStep s st more)).working = (quiet s).working ∧ (quiet (owlStep s st more)).sites = (quiet s).sites ∧ (quiet (owlStep s st more)).routes = (quiet s).routes ∧ (quiet (owlStep s st more)).cal = (quiet s).cal ∧ (quiet (owlStep s st more)).sensors = (quiet s).sensors ∧ (quiet (owlStep s st more)).smons = (quiet s).smons ∧ (quiet (owlStep s st more)).pmons = (quiet s).pmons ∧ (quiet (owlStep s st more)).cairn = (quiet s).cairn ∧ (quiet (owlStep s st more)).csps = (quiet s).csps ∧ (quiet (owlStep s st more)).xip = (quiet s).xip ∧ (quiet (owlStep s st more)).pending = (quiet s).pending := by
  unfold owlStep
  simp

@[simp] theorem quiet_owlSee (s : State) : (quiet (owlSee s)).now = (quiet s).now ∧ (quiet (owlSee s)).ticks = (quiet s).ticks ∧ (quiet (owlSee s)).boot = (quiet s).boot ∧ (quiet (owlSee s)).flash = (quiet s).flash ∧ (quiet (owlSee s)).working = (quiet s).working ∧ (quiet (owlSee s)).sites = (quiet s).sites ∧ (quiet (owlSee s)).routes = (quiet s).routes ∧ (quiet (owlSee s)).cal = (quiet s).cal ∧ (quiet (owlSee s)).sensors = (quiet s).sensors ∧ (quiet (owlSee s)).smons = (quiet s).smons ∧ (quiet (owlSee s)).pmons = (quiet s).pmons ∧ (quiet (owlSee s)).cairn = (quiet s).cairn ∧ (quiet (owlSee s)).csps = (quiet s).csps ∧ (quiet (owlSee s)).xip = (quiet s).xip ∧ (quiet (owlSee s)).pending = (quiet s).pending := by
  unfold owlSee
  simp
  (repeat' split) <;> simp_all [quiet_proj, quiet_mk]

@[simp] theorem quiet_owlGraceExpiryEffect (s : State) : (quiet (owlGraceExpiryEffect s)).now = (quiet s).now ∧ (quiet (owlGraceExpiryEffect s)).ticks = (quiet s).ticks ∧ (quiet (owlGraceExpiryEffect s)).boot = (quiet s).boot ∧ (quiet (owlGraceExpiryEffect s)).flash = (quiet s).flash ∧ (quiet (owlGraceExpiryEffect s)).working = (quiet s).working ∧ (quiet (owlGraceExpiryEffect s)).sites = (quiet s).sites ∧ (quiet (owlGraceExpiryEffect s)).routes = (quiet s).routes ∧ (quiet (owlGraceExpiryEffect s)).cal = (quiet s).cal ∧ (quiet (owlGraceExpiryEffect s)).sensors = (quiet s).sensors ∧ (quiet (owlGraceExpiryEffect s)).smons = (quiet s).smons ∧ (quiet (owlGraceExpiryEffect s)).pmons = (quiet s).pmons ∧ (quiet (owlGraceExpiryEffect s)).cairn = (quiet s).cairn ∧ (quiet (owlGraceExpiryEffect s)).csps = (quiet s).csps ∧ (quiet (owlGraceExpiryEffect s)).xip = (quiet s).xip ∧ (quiet (owlGraceExpiryEffect s)).pending = (quiet s).pending := by
  unfold owlGraceExpiryEffect
  (repeat' split) <;> simp_all [quiet_proj, quiet_mk]

@[simp] theorem quiet_owlReleaseEffect (s : State) : (quiet (owlReleaseEffect s)).now = (quiet s).now ∧ (quiet (owlReleaseEffect s)).ticks = (quiet s).ticks ∧ (quiet (owlReleaseEffect s)).boot = (quiet s).boot ∧ (quiet (owlReleaseEffect s)).flash = (quiet s).flash ∧ (quiet (owlReleaseEffect s)).working = (quiet s).working ∧ (quiet (owlReleaseEffect s)).sites = (quiet s).sites ∧ (quiet (owlReleaseEffect s)).routes = (quiet s).routes ∧ (quiet (owlReleaseEffect s)).cal = (quiet s).cal ∧ (quiet (owlReleaseEffect s)).sensors = (quiet s).sensors ∧ (quiet (owlReleaseEffect s)).smons = (quiet s).smons ∧ (quiet (owlReleaseEffect s)).pmons = (quiet s).pmons ∧ (quiet (owlReleaseEffect s)).cairn = (quiet s).cairn ∧ (quiet (owlReleaseEffect s)).csps = (quiet s).csps ∧ (quiet (owlReleaseEffect s)).xip = (quiet s).xip ∧ (quiet (owlReleaseEffect s)).pending = (quiet s).pending := by
  unfold owlReleaseEffect
  simp

@[simp] theorem quiet_modSensor (s : State) (k : Fin 24) (f : Sensor → Sensor) : (quiet (modSensor s k f)).now = (quiet s).now ∧ (quiet (modSensor s k f)).ticks = (quiet s).ticks ∧ (quiet (modSensor s k f)).boot = (quiet s).boot ∧ (quiet (modSensor s k f)).flash = (quiet s).flash ∧ (quiet (modSensor s k f)).working = (quiet s).working ∧ (quiet (modSensor s k f)).sites = (quiet s).sites ∧ (quiet (modSensor s k f)).routes = (quiet s).routes ∧ (quiet (modSensor s k f)).cal = (quiet s).cal ∧ (quiet (modSensor s k f)).smons = (quiet s).smons ∧ (quiet (modSensor s k f)).pmons = (quiet s).pmons ∧ (quiet (modSensor s k f)).owl = (quiet s).owl ∧ (quiet (modSensor s k f)).cairn = (quiet s).cairn ∧ (quiet (modSensor s k f)).csps = (quiet s).csps ∧ (quiet (modSensor s k f)).xip = (quiet s).xip ∧ (quiet (modSensor s k f)).pending = (quiet s).pending := by
  unfold modSensor
  simp [quiet_proj, quiet_mk]

@[simp] theorem quiet_sensorBreaks (s : State) (k : Fin 24) : (quiet (sensorBreaks s k)).now = (quiet s).now ∧ (quiet (sensorBreaks s k)).ticks = (quiet s).ticks ∧ (quiet (sensorBreaks s k)).boot = (quiet s).boot ∧ (quiet (sensorBreaks s k)).flash = (quiet s).flash ∧ (quiet (sensorBreaks s k)).working = (quiet s).working ∧ (quiet (sensorBreaks s k)).sites = (quiet s).sites ∧ (quiet (sensorBreaks s k)).routes = (quiet s).routes ∧ (quiet (sensorBreaks s k)).cal = (quiet s).cal ∧ (quiet (sensorBreaks s k)).smons = (quiet s).smons ∧ (quiet (sensorBreaks s k)).pmons = (quiet s).pmons ∧ (quiet (sensorBreaks s k)).cairn = (quiet s).cairn ∧ (quiet (sensorBreaks s k)).csps = (quiet s).csps ∧ (quiet (sensorBreaks s k)).xip = (quiet s).xip ∧ (quiet (sensorBreaks s k)).pending = (quiet s).pending := by
  unfold sensorBreaks
  simp

@[simp] theorem quiet_tempConversionEffect (k : Fin 24) (v : ℤ) (s : State) : (quiet (tempConversionEffect k v s)).now = (quiet s).now ∧ (quiet (tempConversionEffect k v s)).ticks = (quiet s).ticks ∧ (quiet (tempConversionEffect k v s)).boot = (quiet s).boot ∧ (quiet (tempConversionEffect k v s)).flash = (quiet s).flash ∧ (quiet (tempConversionEffect k v s)).working = (quiet s).working ∧ (quiet (tempConversionEffect k v s)).sites = (quiet s).sites ∧ (quiet (tempConversionEffect k v s)).routes = (quiet s).routes ∧ (quiet (tempConversionEffect k v s)).cal = (quiet s).cal ∧ (quiet (tempConversionEffect k v s)).smons = (quiet s).smons ∧ (quiet (tempConversionEffect k v s)).pmons = (quiet s).pmons ∧ (quiet (tempConversionEffect k v s)).cairn = (quiet s).cairn ∧ (quiet (tempConversionEffect k v s)).csps = (quiet s).csps ∧ (quiet (tempConversionEffect k v s)).xip = (quiet s).xip ∧ (quiet (tempConversionEffect k v s)).pending = (quiet s).pending := by
  unfold tempConversionEffect
  simp

@[simp] theorem quiet_sensorRecoverEffect (k : Fin 24) (s : State) : (quiet (sensorRecoverEffect k s)).now = (quiet s).now ∧ (quiet (sensorRecoverEffect k s)).ticks = (quiet s).ticks ∧ (quiet (sensorRecoverEffect k s)).boot = (quiet s).boot ∧ (quiet (sensorRecoverEffect k s)).flash = (quiet s).flash ∧ (quiet (sensorRecoverEffect k s)).working = (quiet s).working ∧ (quiet (sensorRecoverEffect k s)).sites = (quiet s).sites ∧ (quiet (sensorRecoverEffect k s)).routes = (quiet s).routes ∧ (quiet (sensorRecoverEffect k s)).cal = (quiet s).cal ∧ (quiet (sensorRecoverEffect k s)).smons = (quiet s).smons ∧ (quiet (sensorRecoverEffect k s)).pmons = (quiet s).pmons ∧ (quiet (sensorRecoverEffect k s)).cairn = (quiet s).cairn ∧ (quiet (sensorRecoverEffect k s)).csps = (quiet s).csps ∧ (quiet (sensorRecoverEffect k s)).xip = (quiet s).xip ∧ (quiet (sensorRecoverEffect k s)).pending = (quiet s).pending := by
  unfold sensorRecoverEffect
  simp

@[simp] theorem quiet_thermalShutdownEffect (k : Fin 24) (s : State) : (quiet (thermalShutdownEffect k s)).now = (quiet s).now ∧ (quiet (thermalShutdownEffect k s)).ticks = (quiet s).ticks ∧ (quiet (thermalShutdownEffect k s)).boot = (quiet s).boot ∧ (quiet (thermalShutdownEffect k s)).flash = (quiet s).flash ∧ (quiet (thermalShutdownEffect k s)).working = (quiet s).working ∧ (quiet (thermalShutdownEffect k s)).sites = (quiet s).sites ∧ (quiet (thermalShutdownEffect k s)).routes = (quiet s).routes ∧ (quiet (thermalShutdownEffect k s)).cal = (quiet s).cal ∧ (quiet (thermalShutdownEffect k s)).sensors = (quiet s).sensors ∧ (quiet (thermalShutdownEffect k s)).smons = (quiet s).smons ∧ (quiet (thermalShutdownEffect k s)).pmons = (quiet s).pmons ∧ (quiet (thermalShutdownEffect k s)).cairn = (quiet s).cairn ∧ (quiet (thermalShutdownEffect k s)).csps = (quiet s).csps ∧ (quiet (thermalShutdownEffect k s)).xip = (quiet s).xip ∧ (quiet (thermalShutdownEffect k s)).pending = (quiet s).pending := by
  unfold thermalShutdownEffect
  simp [quiet_proj, quiet_mk]

@[simp] theorem quiet_modSmon (s : State) (m : Fin 12) (f : Smon → Smon) : (quiet (modSmon s m f)).now = (quiet s).now ∧ (quiet (modSmon s m f)).ticks = (quiet s).ticks ∧ (quiet (modSmon s m f)).boot = (quiet s).boot ∧ (quiet (modSmon s m f)).flash = (quiet s).flash ∧ (quiet (modSmon s m f)).working = (quiet s).working ∧ (quiet (modSmon s m f)).sites = (quiet s).sites ∧ (quiet (modSmon s m f)).routes = (quiet s).routes ∧ (quiet (modSmon s m f)).cal = (quiet s).cal ∧ (quiet (modSmon s m f)).sensors = (quiet s).sensors ∧ (quiet (modSmon s m f)).pmons = (quiet s).pmons ∧ (quiet (modSmon s m f)).owl = (quiet s).owl ∧ (quiet (modSmon s m f)).cairn = (quiet s).cairn ∧ (quiet (modSmon s m f)).csps = (quiet s).csps ∧ (quiet (modSmon s m f)).xip = (quiet s).xip ∧ (quiet (modSmon s m f)).pending = (quiet s).pending := by
  unfold modSmon
  simp [quiet_proj, quiet_mk]

@[simp] theorem quiet_deassert (s : State) (b : Fin 64) : quiet (deassert s b) = quiet s := by
  unfold deassert
  simp [quiet_proj, quiet_mk]

@[simp] theorem quiet_supplyResetFaultEffect (m : Fin 12) (s : State) : (quiet (supplyResetFaultEffect m s)).now = (quiet s).now ∧ (quiet (supplyResetFaultEffect m s)).ticks = (quiet s).ticks ∧ (quiet (supplyResetFaultEffect m s)).boot = (quiet s).boot ∧ (quiet (supplyResetFaultEffect m s)).flash = (quiet s).flash ∧ (quiet (supplyResetFaultEffect m s)).working = (quiet s).working ∧ (quiet (supplyResetFaultEffect m s)).sites = (quiet s).sites ∧ (quiet (supplyResetFaultEffect m s)).routes = (quiet s).routes ∧ (quiet (supplyResetFaultEffect m s)).cal = (quiet s).cal ∧ (quiet (supplyResetFaultEffect m s)).sensors = (quiet s).sensors ∧ (quiet (supplyResetFaultEffect m s)).pmons = (quiet s).pmons ∧ (quiet (supplyResetFaultEffect m s)).owl = (quiet s).owl ∧ (quiet (supplyResetFaultEffect m s)).cairn = (quiet s).cairn ∧ (quiet (supplyResetFaultEffect m s)).csps = (quiet s).csps ∧ (quiet (supplyResetFaultEffect m s)).xip = (quiet s).xip ∧ (quiet (supplyResetFaultEffect m s)).pending = (quiet s).pending := by
  unfold supplyResetFaultEffect
  simp

@[simp] theorem quiet_supplyDipEffect (m : Fin 12) (s : State) : (quiet (supplyDipEffect m s)).now = (quiet s).now ∧ (quiet (supplyDipEffect m s)).ticks = (quiet s).ticks ∧ (quiet (supplyDipEffect m s)).boot = (quiet s).boot ∧ (quiet (supplyDipEffect m s)).flash = (quiet s).flash ∧ (quiet (supplyDipEffect m s)).working = (quiet s).working ∧ (quiet (supplyDipEffect m s)).sites = (quiet s).sites ∧ (quiet (supplyDipEffect m s)).routes = (quiet s).routes ∧ (quiet (supplyDipEffect m s)).cal = (quiet s).cal ∧ (quiet (supplyDipEffect m s)).sensors = (quiet s).sensors ∧ (quiet (supplyDipEffect m s)).pmons = (quiet s).pmons ∧ (quiet (supplyDipEffect m s)).owl = (quiet s).owl ∧ (quiet (supplyDipEffect m s)).cairn = (quiet s).cairn ∧ (quiet (supplyDipEffect m s)).csps = (quiet s).csps ∧ (quiet (supplyDipEffect m s)).xip = (quiet s).xip ∧ (quiet (supplyDipEffect m s)).pending = (quiet s).pending := by
  unfold supplyDipEffect
  simp

@[simp] theorem quiet_suspectWindowEndEffect (m : Fin 12) (s : State) : (quiet (suspectWindowEndEffect m s)).now = (quiet s).now ∧ (quiet (suspectWindowEndEffect m s)).ticks = (quiet s).ticks ∧ (quiet (suspectWindowEndEffect m s)).boot = (quiet s).boot ∧ (quiet (suspectWindowEndEffect m s)).flash = (quiet s).flash ∧ (quiet (suspectWindowEndEffect m s)).working = (quiet s).working ∧ (quiet (suspectWindowEndEffect m s)).sites = (quiet s).sites ∧ (quiet (suspectWindowEndEffect m s)).routes = (quiet s).routes ∧ (quiet (suspectWindowEndEffect m s)).cal = (quiet s).cal ∧ (quiet (suspectWindowEndEffect m s)).sensors = (quiet s).sensors ∧ (quiet (suspectWindowEndEffect m s)).pmons = (quiet s).pmons ∧ (quiet (suspectWindowEndEffect m s)).owl = (quiet s).owl ∧ (quiet (suspectWindowEndEffect m s)).cairn = (quiet s).cairn ∧ (quiet (suspectWindowEndEffect m s)).csps = (quiet s).csps ∧ (quiet (suspectWindowEndEffect m s)).xip = (quiet s).xip ∧ (quiet (suspectWindowEndEffect m s)).pending = (quiet s).pending := by
  unfold suspectWindowEndEffect
  simp

@[simp] theorem quiet_monitorReleaseEffect (m : MonitorId) (s : State) : (quiet (monitorReleaseEffect m s)).now = (quiet s).now ∧ (quiet (monitorReleaseEffect m s)).ticks = (quiet s).ticks ∧ (quiet (monitorReleaseEffect m s)).boot = (quiet s).boot ∧ (quiet (monitorReleaseEffect m s)).flash = (quiet s).flash ∧ (quiet (monitorReleaseEffect m s)).working = (quiet s).working ∧ (quiet (monitorReleaseEffect m s)).sites = (quiet s).sites ∧ (quiet (monitorReleaseEffect m s)).routes = (quiet s).routes ∧ (quiet (monitorReleaseEffect m s)).cal = (quiet s).cal ∧ (quiet (monitorReleaseEffect m s)).pmons = (quiet s).pmons ∧ (quiet (monitorReleaseEffect m s)).owl = (quiet s).owl ∧ (quiet (monitorReleaseEffect m s)).cairn = (quiet s).cairn ∧ (quiet (monitorReleaseEffect m s)).csps = (quiet s).csps ∧ (quiet (monitorReleaseEffect m s)).xip = (quiet s).xip ∧ (quiet (monitorReleaseEffect m s)).pending = (quiet s).pending := by
  unfold monitorReleaseEffect
  (repeat' split) <;> simp_all [quiet_proj, quiet_mk]

@[simp] theorem quiet_monitorTimeoutEffect (m : Fin 12) (s : State) : (quiet (monitorTimeoutEffect m s)).now = (quiet s).now ∧ (quiet (monitorTimeoutEffect m s)).ticks = (quiet s).ticks ∧ (quiet (monitorTimeoutEffect m s)).boot = (quiet s).boot ∧ (quiet (monitorTimeoutEffect m s)).flash = (quiet s).flash ∧ (quiet (monitorTimeoutEffect m s)).working = (quiet s).working ∧ (quiet (monitorTimeoutEffect m s)).sites = (quiet s).sites ∧ (quiet (monitorTimeoutEffect m s)).routes = (quiet s).routes ∧ (quiet (monitorTimeoutEffect m s)).cal = (quiet s).cal ∧ (quiet (monitorTimeoutEffect m s)).sensors = (quiet s).sensors ∧ (quiet (monitorTimeoutEffect m s)).pmons = (quiet s).pmons ∧ (quiet (monitorTimeoutEffect m s)).owl = (quiet s).owl ∧ (quiet (monitorTimeoutEffect m s)).cairn = (quiet s).cairn ∧ (quiet (monitorTimeoutEffect m s)).csps = (quiet s).csps ∧ (quiet (monitorTimeoutEffect m s)).xip = (quiet s).xip ∧ (quiet (monitorTimeoutEffect m s)).pending = (quiet s).pending := by
  unfold monitorTimeoutEffect
  simp

@[simp] theorem quiet_pmonGateEffect (counts : List (BitVec 20)) (s : State) : (quiet (pmonGateEffect counts s)).now = (quiet s).now ∧ (quiet (pmonGateEffect counts s)).ticks = (quiet s).ticks ∧ (quiet (pmonGateEffect counts s)).boot = (quiet s).boot ∧ (quiet (pmonGateEffect counts s)).flash = (quiet s).flash ∧ (quiet (pmonGateEffect counts s)).working = (quiet s).working ∧ (quiet (pmonGateEffect counts s)).sites = (quiet s).sites ∧ (quiet (pmonGateEffect counts s)).routes = (quiet s).routes ∧ (quiet (pmonGateEffect counts s)).cal = (quiet s).cal ∧ (quiet (pmonGateEffect counts s)).sensors = (quiet s).sensors ∧ (quiet (pmonGateEffect counts s)).smons = (quiet s).smons ∧ (quiet (pmonGateEffect counts s)).owl = (quiet s).owl ∧ (quiet (pmonGateEffect counts s)).cairn = (quiet s).cairn ∧ (quiet (pmonGateEffect counts s)).csps = (quiet s).csps ∧ (quiet (pmonGateEffect counts s)).xip = (quiet s).xip ∧ (quiet (pmonGateEffect counts s)).pending = (quiet s).pending := by
  unfold pmonGateEffect
  simp [quiet_proj, quiet_mk]

@[simp] theorem quiet_hostNotice (s : State) (src : ℕ) (e : EvtSrc) : quiet (hostNotice s src e) = quiet s := by
  unfold hostNotice
  (repeat' split) <;> simp_all [quiet_proj, quiet_mk]

@[simp] theorem quiet_fireAction (src : ℕ) (e : EvtSrc) (s : State) (a : ℕ) : quiet (fireAction src e s a) = quiet s := by
  unfold fireAction
  simp

@[simp] theorem quiet_deliverEvent (s : State) (src : ℕ) (e : EvtSrc) : quiet (deliverEvent s src e) = quiet s := by
  unfold deliverEvent
  simp [quiet_proj, quiet_mk]

@[simp] theorem quiet_nextRequest (s : State) (c : Fin 47) : quiet (nextRequest s c) = quiet s := by
  unfold nextRequest
  (repeat' split) <;> simp_all [quiet_proj, quiet_mk]

@[simp] theorem quiet_eventDeliveryEffect (c : Option (Fin 47)) (s : State) : quiet (eventDeliveryEffect c s) = quiet s := by
  unfold eventDeliveryEffect
  (repeat' split) <;> simp_all [quiet_proj, quiet_mk]

@[simp] theorem quiet_hbmTrainingLossEffect (s : State) : quiet (hbmTrainingLossEffect s) = quiet s := by
  unfold hbmTrainingLossEffect
  simp

@[simp] theorem quiet_multiplierLockLossEffect (s : State) : quiet (multiplierLockLossEffect s) = quiet s := by
  unfold multiplierLockLossEffect
  simp

@[simp] theorem quiet_fatalSourceDeassertsEffect (b : Fin 64) (s : State) : quiet (fatalSourceDeassertsEffect b s) = quiet s := by
  unfold fatalSourceDeassertsEffect
  simp

@[simp] theorem quiet_undoWords (s : State) (l : List (ℕ × Word)) : quiet (undoWords s l) = quiet s := by
  unfold undoWords
  simp

@[simp] theorem quiet_undoWait (s : State) (w : Wait) : (quiet (undoWait s w)).now = (quiet s).now ∧ (quiet (undoWait s w)).ticks = (quiet s).ticks ∧ (quiet (undoWait s w)).boot = (quiet s).boot ∧ (quiet (undoWait s w)).flash = (quiet s).flash ∧ (quiet (undoWait s w)).sites = (quiet s).sites ∧ (quiet (undoWait s w)).routes = (quiet s).routes ∧ (quiet (undoWait s w)).sensors = (quiet s).sensors ∧ (quiet (undoWait s w)).smons = (quiet s).smons ∧ (quiet (undoWait s w)).pmons = (quiet s).pmons ∧ (quiet (undoWait s w)).owl = (quiet s).owl ∧ (quiet (undoWait s w)).cairn = (quiet s).cairn ∧ (quiet (undoWait s w)).csps = (quiet s).csps ∧ (quiet (undoWait s w)).xip = (quiet s).xip ∧ (quiet (undoWait s w)).pending = (quiet s).pending := by
  unfold undoWait
  dsimp only
  split <;> simp [quiet_proj, quiet_mk]

@[simp] theorem quiet_abortCommands (s : State) : (quiet (abortCommands s)).now = (quiet s).now ∧ (quiet (abortCommands s)).ticks = (quiet s).ticks ∧ (quiet (abortCommands s)).boot = (quiet s).boot ∧ (quiet (abortCommands s)).flash = (quiet s).flash ∧ (quiet (abortCommands s)).sites = (quiet s).sites ∧ (quiet (abortCommands s)).routes = (quiet s).routes ∧ (quiet (abortCommands s)).sensors = (quiet s).sensors ∧ (quiet (abortCommands s)).smons = (quiet s).smons ∧ (quiet (abortCommands s)).pmons = (quiet s).pmons ∧ (quiet (abortCommands s)).owl = (quiet s).owl ∧ (quiet (abortCommands s)).cairn = (quiet s).cairn ∧ (quiet (abortCommands s)).csps = (quiet s).csps ∧ (quiet (abortCommands s)).xip = (quiet s).xip ∧ (quiet (abortCommands s)).pending = (quiet s).pending := by
  unfold abortCommands
  dsimp only
  refine each_ind (fun t => (quiet (t)).now = (quiet (s)).now ∧ (quiet (t)).ticks = (quiet (s)).ticks ∧ (quiet (t)).boot = (quiet (s)).boot ∧ (quiet (t)).flash = (quiet (s)).flash ∧ (quiet (t)).sites = (quiet (s)).sites ∧ (quiet (t)).routes = (quiet (s)).routes ∧ (quiet (t)).sensors = (quiet (s)).sensors ∧ (quiet (t)).smons = (quiet (s)).smons ∧ (quiet (t)).pmons = (quiet (s)).pmons ∧ (quiet (t)).owl = (quiet (s)).owl ∧ (quiet (t)).cairn = (quiet (s)).cairn ∧ (quiet (t)).csps = (quiet (s)).csps ∧ (quiet (t)).xip = (quiet (s)).xip ∧ (quiet (t)).pending = (quiet (s)).pending) ?_ (fun t r ht => by simpa using ht)
  refine each_ind (fun t => (quiet (t)).now = (quiet (s)).now ∧ (quiet (t)).ticks = (quiet (s)).ticks ∧ (quiet (t)).boot = (quiet (s)).boot ∧ (quiet (t)).flash = (quiet (s)).flash ∧ (quiet (t)).sites = (quiet (s)).sites ∧ (quiet (t)).routes = (quiet (s)).routes ∧ (quiet (t)).sensors = (quiet (s)).sensors ∧ (quiet (t)).smons = (quiet (s)).smons ∧ (quiet (t)).pmons = (quiet (s)).pmons ∧ (quiet (t)).owl = (quiet (s)).owl ∧ (quiet (t)).cairn = (quiet (s)).cairn ∧ (quiet (t)).csps = (quiet (s)).csps ∧ (quiet (t)).xip = (quiet (s)).xip ∧ (quiet (t)).pending = (quiet (s)).pending) ?_ (fun t r ht => by simpa using ht)
  refine each_ind (fun t => (quiet (t)).now = (quiet (s)).now ∧ (quiet (t)).ticks = (quiet (s)).ticks ∧ (quiet (t)).boot = (quiet (s)).boot ∧ (quiet (t)).flash = (quiet (s)).flash ∧ (quiet (t)).sites = (quiet (s)).sites ∧ (quiet (t)).routes = (quiet (s)).routes ∧ (quiet (t)).sensors = (quiet (s)).sensors ∧ (quiet (t)).smons = (quiet (s)).smons ∧ (quiet (t)).pmons = (quiet (s)).pmons ∧ (quiet (t)).owl = (quiet (s)).owl ∧ (quiet (t)).cairn = (quiet (s)).cairn ∧ (quiet (t)).csps = (quiet (s)).csps ∧ (quiet (t)).xip = (quiet (s)).xip ∧ (quiet (t)).pending = (quiet (s)).pending) ?_ (fun t r ht => by split <;> simpa using ht)
  refine each_ind (fun t => (quiet (t)).now = (quiet (s)).now ∧ (quiet (t)).ticks = (quiet (s)).ticks ∧ (quiet (t)).boot = (quiet (s)).boot ∧ (quiet (t)).flash = (quiet (s)).flash ∧ (quiet (t)).sites = (quiet (s)).sites ∧ (quiet (t)).routes = (quiet (s)).routes ∧ (quiet (t)).sensors = (quiet (s)).sensors ∧ (quiet (t)).smons = (quiet (s)).smons ∧ (quiet (t)).pmons = (quiet (s)).pmons ∧ (quiet (t)).owl = (quiet (s)).owl ∧ (quiet (t)).cairn = (quiet (s)).cairn ∧ (quiet (t)).csps = (quiet (s)).csps ∧ (quiet (t)).xip = (quiet (s)).xip ∧ (quiet (t)).pending = (quiet (s)).pending) ?_ (fun t r ht => by simpa using ht)
  refine each_ind (fun t => (quiet (t)).now = (quiet (s)).now ∧ (quiet (t)).ticks = (quiet (s)).ticks ∧ (quiet (t)).boot = (quiet (s)).boot ∧ (quiet (t)).flash = (quiet (s)).flash ∧ (quiet (t)).sites = (quiet (s)).sites ∧ (quiet (t)).routes = (quiet (s)).routes ∧ (quiet (t)).sensors = (quiet (s)).sensors ∧ (quiet (t)).smons = (quiet (s)).smons ∧ (quiet (t)).pmons = (quiet (s)).pmons ∧ (quiet (t)).owl = (quiet (s)).owl ∧ (quiet (t)).cairn = (quiet (s)).cairn ∧ (quiet (t)).csps = (quiet (s)).csps ∧ (quiet (t)).xip = (quiet (s)).xip ∧ (quiet (t)).pending = (quiet (s)).pending) ?_ (fun t r ht => by split <;> simpa using ht)
  refine each_ind (fun t => (quiet (t)).now = (quiet (s)).now ∧ (quiet (t)).ticks = (quiet (s)).ticks ∧ (quiet (t)).boot = (quiet (s)).boot ∧ (quiet (t)).flash = (quiet (s)).flash ∧ (quiet (t)).sites = (quiet (s)).sites ∧ (quiet (t)).routes = (quiet (s)).routes ∧ (quiet (t)).sensors = (quiet (s)).sensors ∧ (quiet (t)).smons = (quiet (s)).smons ∧ (quiet (t)).pmons = (quiet (s)).pmons ∧ (quiet (t)).owl = (quiet (s)).owl ∧ (quiet (t)).cairn = (quiet (s)).cairn ∧ (quiet (t)).csps = (quiet (s)).csps ∧ (quiet (t)).xip = (quiet (s)).xip ∧ (quiet (t)).pending = (quiet (s)).pending) ?_ (fun t r ht => by simpa using ht)
  refine each_ind (fun t => (quiet (t)).now = (quiet (s)).now ∧ (quiet (t)).ticks = (quiet (s)).ticks ∧ (quiet (t)).boot = (quiet (s)).boot ∧ (quiet (t)).flash = (quiet (s)).flash ∧ (quiet (t)).sites = (quiet (s)).sites ∧ (quiet (t)).routes = (quiet (s)).routes ∧ (quiet (t)).sensors = (quiet (s)).sensors ∧ (quiet (t)).smons = (quiet (s)).smons ∧ (quiet (t)).pmons = (quiet (s)).pmons ∧ (quiet (t)).owl = (quiet (s)).owl ∧ (quiet (t)).cairn = (quiet (s)).cairn ∧ (quiet (t)).csps = (quiet (s)).csps ∧ (quiet (t)).xip = (quiet (s)).xip ∧ (quiet (t)).pending = (quiet (s)).pending) ?_ (fun t r ht => by simpa using ht)
  simp [quiet_proj, quiet_mk]

@[simp] theorem quiet_recoveryCompleteEffect (s : State) : quiet (recoveryCompleteEffect s) = quiet s := by
  unfold recoveryCompleteEffect
  simp [quiet_proj, quiet_mk]

@[simp] theorem quiet_faultReadEffect (h : Hdr) (addr : BitVec 64) (s : State) : quiet (faultReadEffect h addr s) = quiet s := by
  unfold faultReadEffect
  simp

@[simp] theorem quiet_faultClearEffect (h : Hdr) (mask : BitVec 64) (s : State) : quiet (faultClearEffect h mask s) = quiet s := by
  unfold faultClearEffect
  simp [quiet_proj, quiet_mk]

@[simp] theorem quiet_faultInjectEffect (h : Hdr) (bit_ : Byte) (count : Byte) (s : State) : quiet (faultInjectEffect h bit_ count s) = quiet s := by
  unfold faultInjectEffect
  simp [quiet_proj, quiet_mk]

@[simp] theorem quiet_stopRing (s : State) (q : Fin 64) (p : Packet) (st : ℕ) (info : ℕ) (mark : Sq → Sq) : quiet (stopRing s q p st info mark) = quiet s := by
  unfold stopRing
  simp

@[simp] theorem quiet_takeLocal (s : State) (p : Packet) (h : Hdr) : quiet (takeLocal s p h) = quiet s := by
  unfold takeLocal
  (repeat' split) <;> simp_all [quiet_proj, quiet_mk]

@[simp] theorem quiet_routePacket (s : State) (q : Fin 64) (p : Packet) (h : Hdr) : quiet (routePacket s q p h) = quiet s := by
  unfold routePacket
  simp

@[simp] theorem quiet_cstoreStrike (s : State) : quiet (cstoreStrike s) = quiet s := by
  unfold cstoreStrike
  have hp := quiet_accessInject s 27
  split
  · exact quiet_eq2 hp ‹_›
  · simpa using quiet_eq2 hp ‹_›
  · simpa using quiet_eq2 hp ‹_›

@[simp] theorem quiet_packetFetchEffect (q : Fin 64) (p : Packet) (readError : Bool) (s : State) : quiet (packetFetchEffect q p readError s) = quiet s := by
  unfold packetFetchEffect
  simp

@[simp] theorem quiet_sqRefused (s : State) (q : Fin 64) : quiet (sqRefused s q) = quiet s := by
  unfold sqRefused
  simp

@[simp] theorem quiet_cqRefused (s : State) (c : Fin 64) : quiet (cqRefused s c) = quiet s := by
  unfold cqRefused
  simp

@[simp] theorem quiet_doorbellWrite (s : State) (q : Fin 64) (v : Word) : quiet (doorbellWrite s q v) = quiet s := by
  unfold doorbellWrite
  simp

@[simp] theorem quiet_sqCtrlWrite (s : State) (q : Fin 64) (v : Word) : quiet (sqCtrlWrite s q v) = quiet s := by
  unfold sqCtrlWrite
  simp

@[simp] theorem quiet_sqResumeWrite (s : State) (q : Fin 64) (v : Word) : quiet (sqResumeWrite s q v) = quiet s := by
  unfold sqResumeWrite
  simp

@[simp] theorem quiet_sqWrite (s : State) (q : Fin 64) (off : ℕ) (v : Word) : quiet (sqWrite s q off v) = quiet s := by
  unfold sqWrite
  (repeat' split) <;> simp_all [quiet_proj, quiet_mk]

@[simp] theorem quiet_deliverNotices (c : Fin 64) (x1 : ℕ) (x2 : State) : quiet (deliverNotices c x1 x2) = quiet x2 := by
  induction x1 generalizing x2 with
  | zero => rfl
  | succ n ih =>
    unfold deliverNotices
    split
    · rfl
    · split
      · rw [ih]; simp [quiet_proj, quiet_mk]
      · rfl

@[simp] theorem quiet_cqCfgWrite (s : State) (c : Fin 64) (v : Word) : quiet (cqCfgWrite s c v) = quiet s := by
  unfold cqCfgWrite
  simp

@[simp] theorem quiet_cqHeadReg (s : State) (c : Fin 64) (v : Word) : quiet (cqHeadReg s c v) = quiet s := by
  unfold cqHeadReg
  simp

@[simp] theorem quiet_cqWriteReg (s : State) (c : Fin 64) (off : ℕ) (v : Word) : quiet (cqWriteReg s c off v) = quiet s := by
  unfold cqWriteReg
  (repeat' split) <;> simp_all [quiet_proj, quiet_mk]

@[simp] theorem quiet_doorbellEffect (q : Fin 64) (v : Word) (s : State) : quiet (doorbellEffect q v s) = quiet s := by
  unfold doorbellEffect
  simp

@[simp] theorem quiet_sqEnableEffect (q : Fin 64) (v : Word) (s : State) : quiet (sqEnableEffect q v s) = quiet s := by
  unfold sqEnableEffect
  simp

@[simp] theorem quiet_sqResumeEffect (q : Fin 64) (v : Word) (s : State) : quiet (sqResumeEffect q v s) = quiet s := by
  unfold sqResumeEffect
  simp

@[simp] theorem quiet_cqEnableEffect (c : Fin 64) (v : Word) (s : State) : quiet (cqEnableEffect c v s) = quiet s := by
  unfold cqEnableEffect
  simp

@[simp] theorem quiet_cqHeadWriteEffect (c : Fin 64) (v : Word) (s : State) : quiet (cqHeadWriteEffect c v s) = quiet s := by
  unfold cqHeadWriteEffect
  simp

@[simp] theorem quiet_pendingNoticeWriteEffect (c : Fin 64) (s : State) : quiet (pendingNoticeWriteEffect c s) = quiet s := by
  unfold pendingNoticeWriteEffect
  simp

@[simp] theorem quiet_cqIrqTimerEffect (c : Fin 64) (s : State) : quiet (cqIrqTimerEffect c s) = quiet s := by
  unfold cqIrqTimerEffect
  simp

@[simp] theorem quiet_dmaWriteErrorEffect (t : DmaTarget) (again : Bool) (s : State) : quiet (dmaWriteErrorEffect t again s) = quiet s := by
  unfold dmaWriteErrorEffect
  (repeat' split) <;> simp_all [quiet_proj, quiet_mk]

@[simp] theorem quiet_configWrite (s : State) (off : ℕ) (v : Word) : (quiet (configWrite s off v)).now = (quiet s).now ∧ (quiet (configWrite s off v)).ticks = (quiet s).ticks ∧ (quiet (configWrite s off v)).flash = (quiet s).flash ∧ (quiet (configWrite s off v)).working = (quiet s).working ∧ (quiet (configWrite s off v)).sites = (quiet s).sites ∧ (quiet (configWrite s off v)).routes = (quiet s).routes ∧ (quiet (configWrite s off v)).cal = (quiet s).cal ∧ (quiet (configWrite s off v)).sensors = (quiet s).sensors ∧ (quiet (configWrite s off v)).smons = (quiet s).smons ∧ (quiet (configWrite s off v)).pmons = (quiet s).pmons ∧ (quiet (configWrite s off v)).owl = (quiet s).owl ∧ (quiet (configWrite s off v)).cairn = (quiet s).cairn ∧ (quiet (configWrite s off v)).csps = (quiet s).csps ∧ (quiet (configWrite s off v)).xip = (quiet s).xip ∧ (quiet (configWrite s off v)).pending = (quiet s).pending := by
  unfold configWrite
  simp [quiet_proj, quiet_mk]

@[simp] theorem quiet_msixWrite (s : State) (v : Fin 64) (w : ℕ) (x : Word) : quiet (msixWrite s v w x) = quiet s := by
  unfold msixWrite
  simp [quiet_proj, quiet_mk]

@[simp] theorem quiet_queueWindowWrite (s : State) (id : ℕ) (w : ℕ) (v : Word) : quiet (queueWindowWrite s id w v) = quiet s := by
  unfold queueWindowWrite
  (repeat' split) <;> simp_all [quiet_proj, quiet_mk]

@[simp] theorem quiet_bar0Read (s : State) (off : ℕ) : quiet (bar0Read s off).2 = quiet s := by
  unfold bar0Read
  (repeat' split) <;> simp_all [quiet_proj, quiet_mk]

@[simp] theorem quiet_configReadEffect (off : ℕ) (s : State) : quiet (configReadEffect off s) = quiet s := by
  unfold configReadEffect
  simp [quiet_proj, quiet_mk]

@[simp] theorem quiet_bar0ReadEffect (off : ℕ) (s : State) : quiet (bar0ReadEffect off s) = quiet s := by
  unfold bar0ReadEffect
  simp [quiet_proj, quiet_mk]

@[simp] theorem quiet_linkFrameResendEffect (portB : Bool) (s : State) : quiet (linkFrameResendEffect portB s) = quiet s := by
  unfold linkFrameResendEffect
  (repeat' split) <;> simp_all [quiet_proj, quiet_mk]

@[simp] theorem quiet_ackTick (s : State) (portB : Bool) : quiet (ackTick s portB) = quiet s := by
  unfold ackTick
  (repeat' split) <;> simp_all [quiet_proj, quiet_mk]

@[simp] theorem quiet_received (s : State) (v : Via) : quiet (received s v) = quiet s := by
  unfold received
  simp

@[simp] theorem quiet_passOn (s : State) (v : Via) (m : RingMsg) : quiet (passOn s v m) = quiet s := by
  unfold passOn
  simp

@[simp] theorem quiet_sendHeld (s : State) : quiet (sendHeld s) = quiet s := by
  unfold sendHeld
  simp

@[simp] theorem quiet_setRingState (s : State) : quiet (setRingState s) = quiet s := by
  unfold setRingState
  simp

@[simp] theorem quiet_splitPacket (bound : ℕ) (q : Fin 64) (s : State) (t : Taken) : quiet (splitPacket bound q s t) = quiet s := by
  unfold splitPacket
  (repeat' split) <;> simp_all [quiet_proj, quiet_mk]

@[simp] theorem quiet_splitPackets (bound : ℕ) (s : State) : quiet (splitPackets bound s) = quiet s := by
  unfold splitPackets
  simp

@[simp] theorem quiet_rerouteFrames (portB : Bool) (s : State) : quiet (rerouteFrames portB s) = quiet s := by
  unfold rerouteFrames
  simp

@[simp] theorem quiet_linkDownEffect (l : RingLink) (unlocked : ℕ) (s : State) : quiet (linkDownEffect l unlocked s) = quiet s := by
  unfold linkDownEffect
  (repeat' split) <;> simp_all [quiet_proj, quiet_mk]

@[simp] theorem quiet_linkRestoredEffect (l : RingLink) (up : ℕ) (s : State) : quiet (linkRestoredEffect l up s) = quiet s := by
  unfold linkRestoredEffect
  simp

@[simp] theorem quiet_sendToken (s : State) : quiet (sendToken s) = quiet s := by
  unfold sendToken
  simp

@[simp] theorem quiet_enumStartEffect (s : State) : quiet (enumStartEffect s) = quiet s := by
  unfold enumStartEffect
  simp

@[simp] theorem quiet_ringAnswer (s : State) (h : Hdr) (addr : BitVec 64) (code : ℕ) : quiet (ringAnswer s h addr code) = quiet s := by
  unfold ringAnswer
  simp

@[simp] theorem quiet_ringEnumEnds (s : State) (code : ℕ) : quiet (ringEnumEnds s code) = quiet s := by
  unfold ringEnumEnds
  (repeat' split) <;> simp_all [quiet_proj, quiet_mk]

@[simp] theorem quiet_enumRetryEffect (s : State) : quiet (enumRetryEffect s) = quiet s := by
  unfold enumRetryEffect
  simp

@[simp] theorem quiet_tokenReturns (es : List Member) (s : State) : quiet (tokenReturns es s) = quiet s := by
  unfold tokenReturns
  simp

@[simp] theorem quiet_foreignToken (s : State) : quiet (foreignToken s) = quiet s := by
  unfold foreignToken
  simp

@[simp] theorem quiet_tokenPasses (count : BitVec 8) (es : List Member) (s : State) : quiet (tokenPasses count es s) = quiet s := by
  unfold tokenPasses
  simp

@[simp] theorem quiet_learnMembers (ms : List Member) (s : State) : quiet (learnMembers ms s) = quiet s := by
  unfold learnMembers
  simp

@[simp] theorem quiet_enumTokenEffect (v : Via) (count : BitVec 8) (own : Bool) (closed : Bool) (es : List Member) (s : State) : quiet (enumTokenEffect v count own closed es s) = quiet s := by
  unfold enumTokenEffect
  simp

@[simp] theorem quiet_ringEnumEffect (h : Hdr) (addr : BitVec 64) (s : State) : quiet (ringEnumEffect h addr s) = quiet s := by
  unfold ringEnumEffect
  simp

@[simp] theorem quiet_packetArrives (v : Via) (entry : BitVec 7) (q : Fin 64) (era : ℕ) (p : Packet) (s : State) : quiet (packetArrives v entry q era p s) = quiet s := by
  unfold packetArrives
  simp

@[simp] theorem quiet_ringPacketArrivalEffect (v : Via) (l : RingLoad) (s : State) : quiet (ringPacketArrivalEffect v l s) = quiet s := by
  unfold ringPacketArrivalEffect
  (repeat' split) <;> simp_all [quiet_proj, quiet_mk]

@[simp] theorem quiet_ringReplyArrivalEffect (v : Via) (entry : BitVec 7) (q : Fin 64) (era : ℕ) (seq : Word) (sender : BitVec 7) (r : Reply) (s : State) : quiet (ringReplyArrivalEffect v entry q era seq sender r s) = quiet s := by
  unfold ringReplyArrivalEffect
  simp

@[simp] theorem quiet_ringEventReceiveEffect (v : Via) (k : Fin 8) (position : BitVec 7) (s : State) : quiet (ringEventReceiveEffect v k position s) = quiet s := by
  unfold ringEventReceiveEffect
  simp

@[simp] theorem quiet_adoptDly (s : State) : (quiet (adoptDly s)).now = (quiet s).now ∧ (quiet (adoptDly s)).ticks = (quiet s).ticks ∧ (quiet (adoptDly s)).boot = (quiet s).boot ∧ (quiet (adoptDly s)).flash = (quiet s).flash ∧ (quiet (adoptDly s)).working = (quiet s).working ∧ (quiet (adoptDly s)).sites = (quiet s).sites ∧ (quiet (adoptDly s)).routes = (quiet s).routes ∧ (quiet (adoptDly s)).cal = (quiet s).cal ∧ (quiet (adoptDly s)).sensors = (quiet s).sensors ∧ (quiet (adoptDly s)).smons = (quiet s).smons ∧ (quiet (adoptDly s)).pmons = (quiet s).pmons ∧ (quiet (adoptDly s)).owl = (quiet s).owl ∧ (quiet (adoptDly s)).csps = (quiet s).csps ∧ (quiet (adoptDly s)).xip = (quiet s).xip ∧ (quiet (adoptDly s)).pending = (quiet s).pending := by
  unfold adoptDly
  (repeat' split) <;> simp_all [quiet_proj, quiet_mk]

@[simp] theorem quiet_syncReply (s : State) : (quiet (syncReply s)).now = (quiet s).now ∧ (quiet (syncReply s)).ticks = (quiet s).ticks ∧ (quiet (syncReply s)).boot = (quiet s).boot ∧ (quiet (syncReply s)).flash = (quiet s).flash ∧ (quiet (syncReply s)).working = (quiet s).working ∧ (quiet (syncReply s)).sites = (quiet s).sites ∧ (quiet (syncReply s)).routes = (quiet s).routes ∧ (quiet (syncReply s)).cal = (quiet s).cal ∧ (quiet (syncReply s)).sensors = (quiet s).sensors ∧ (quiet (syncReply s)).smons = (quiet s).smons ∧ (quiet (syncReply s)).pmons = (quiet s).pmons ∧ (quiet (syncReply s)).owl = (quiet s).owl ∧ (quiet (syncReply s)).csps = (quiet s).csps ∧ (quiet (syncReply s)).xip = (quiet s).xip ∧ (quiet (syncReply s)).pending = (quiet s).pending := by
  unfold syncReply
  (repeat' split) <;> simp_all [quiet_proj, quiet_mk]

@[simp] theorem quiet_putFrame (s : State) (f : CairnFrame) : (quiet (putFrame s f)).now = (quiet s).now ∧ (quiet (putFrame s f)).ticks = (quiet s).ticks ∧ (quiet (putFrame s f)).boot = (quiet s).boot ∧ (quiet (putFrame s f)).flash = (quiet s).flash ∧ (quiet (putFrame s f)).working = (quiet s).working ∧ (quiet (putFrame s f)).sites = (quiet s).sites ∧ (quiet (putFrame s f)).routes = (quiet s).routes ∧ (quiet (putFrame s f)).cal = (quiet s).cal ∧ (quiet (putFrame s f)).sensors = (quiet s).sensors ∧ (quiet (putFrame s f)).smons = (quiet s).smons ∧ (quiet (putFrame s f)).pmons = (quiet s).pmons ∧ (quiet (putFrame s f)).owl = (quiet s).owl ∧ (quiet (putFrame s f)).csps = (quiet s).csps ∧ (quiet (putFrame s f)).xip = (quiet s).xip ∧ (quiet (putFrame s f)).pending = (quiet s).pending := by
  unfold putFrame
  simp

@[simp] theorem quiet_cairnFrameSendEffect (s : State) : (quiet (cairnFrameSendEffect s)).now = (quiet s).now ∧ (quiet (cairnFrameSendEffect s)).ticks = (quiet s).ticks ∧ (quiet (cairnFrameSendEffect s)).boot = (quiet s).boot ∧ (quiet (cairnFrameSendEffect s)).flash = (quiet s).flash ∧ (quiet (cairnFrameSendEffect s)).working = (quiet s).working ∧ (quiet (cairnFrameSendEffect s)).sites = (quiet s).sites ∧ (quiet (cairnFrameSendEffect s)).routes = (quiet s).routes ∧ (quiet (cairnFrameSendEffect s)).cal = (quiet s).cal ∧ (quiet (cairnFrameSendEffect s)).sensors = (quiet s).sensors ∧ (quiet (cairnFrameSendEffect s)).smons = (quiet s).smons ∧ (quiet (cairnFrameSendEffect s)).pmons = (quiet s).pmons ∧ (quiet (cairnFrameSendEffect s)).owl = (quiet s).owl ∧ (quiet (cairnFrameSendEffect s)).csps = (quiet s).csps ∧ (quiet (cairnFrameSendEffect s)).xip = (quiet s).xip ∧ (quiet (cairnFrameSendEffect s)).pending = (quiet s).pending := by
  unfold cairnFrameSendEffect
  simp

@[simp] theorem quiet_cairnPairs (s : State) (stamp : T64) (e : BitVec 48) : quiet (cairnPairs s stamp e) = quiet s := by
  unfold cairnPairs
  simp

@[simp] theorem quiet_cairnFrameReceiveEffect (f : CairnFrame) (reserved : BitVec 2) (stamp : T64) (s : State) : (quiet (cairnFrameReceiveEffect f reserved stamp s)).now = (quiet s).now ∧ (quiet (cairnFrameReceiveEffect f reserved stamp s)).ticks = (quiet s).ticks ∧ (quiet (cairnFrameReceiveEffect f reserved stamp s)).boot = (quiet s).boot ∧ (quiet (cairnFrameReceiveEffect f reserved stamp s)).flash = (quiet s).flash ∧ (quiet (cairnFrameReceiveEffect f reserved stamp s)).working = (quiet s).working ∧ (quiet (cairnFrameReceiveEffect f reserved stamp s)).sites = (quiet s).sites ∧ (quiet (cairnFrameReceiveEffect f reserved stamp s)).routes = (quiet s).routes ∧ (quiet (cairnFrameReceiveEffect f reserved stamp s)).cal = (quiet s).cal ∧ (quiet (cairnFrameReceiveEffect f reserved stamp s)).sensors = (quiet s).sensors ∧ (quiet (cairnFrameReceiveEffect f reserved stamp s)).smons = (quiet s).smons ∧ (quiet (cairnFrameReceiveEffect f reserved stamp s)).pmons = (quiet s).pmons ∧ (quiet (cairnFrameReceiveEffect f reserved stamp s)).owl = (quiet s).owl ∧ (quiet (cairnFrameReceiveEffect f reserved stamp s)).csps = (quiet s).csps ∧ (quiet (cairnFrameReceiveEffect f reserved stamp s)).xip = (quiet s).xip ∧ (quiet (cairnFrameReceiveEffect f reserved stamp s)).pending = (quiet s).pending := by
  unfold cairnFrameReceiveEffect
  simp

@[simp] theorem quiet_cairnLoadEffect (bad : Option RidgeId) (s : State) : (quiet (cairnLoadEffect bad s)).ticks = (quiet s).ticks ∧ (quiet (cairnLoadEffect bad s)).boot = (quiet s).boot ∧ (quiet (cairnLoadEffect bad s)).flash = (quiet s).flash ∧ (quiet (cairnLoadEffect bad s)).working = (quiet s).working ∧ (quiet (cairnLoadEffect bad s)).sites = (quiet s).sites ∧ (quiet (cairnLoadEffect bad s)).routes = (quiet s).routes ∧ (quiet (cairnLoadEffect bad s)).cal = (quiet s).cal ∧ (quiet (cairnLoadEffect bad s)).sensors = (quiet s).sensors ∧ (quiet (cairnLoadEffect bad s)).smons = (quiet s).smons ∧ (quiet (cairnLoadEffect bad s)).pmons = (quiet s).pmons ∧ (quiet (cairnLoadEffect bad s)).owl = (quiet s).owl ∧ (quiet (cairnLoadEffect bad s)).csps = (quiet s).csps ∧ (quiet (cairnLoadEffect bad s)).xip = (quiet s).xip ∧ (quiet (cairnLoadEffect bad s)).pending = (quiet s).pending := by
  unfold cairnLoadEffect
  (repeat' split) <;> simp_all [quiet_proj, quiet_mk]

@[simp] theorem quiet_cairnRelaunchEffect (s : State) : (quiet (cairnRelaunchEffect s)).now = (quiet s).now ∧ (quiet (cairnRelaunchEffect s)).ticks = (quiet s).ticks ∧ (quiet (cairnRelaunchEffect s)).boot = (quiet s).boot ∧ (quiet (cairnRelaunchEffect s)).flash = (quiet s).flash ∧ (quiet (cairnRelaunchEffect s)).working = (quiet s).working ∧ (quiet (cairnRelaunchEffect s)).sites = (quiet s).sites ∧ (quiet (cairnRelaunchEffect s)).routes = (quiet s).routes ∧ (quiet (cairnRelaunchEffect s)).cal = (quiet s).cal ∧ (quiet (cairnRelaunchEffect s)).sensors = (quiet s).sensors ∧ (quiet (cairnRelaunchEffect s)).smons = (quiet s).smons ∧ (quiet (cairnRelaunchEffect s)).pmons = (quiet s).pmons ∧ (quiet (cairnRelaunchEffect s)).owl = (quiet s).owl ∧ (quiet (cairnRelaunchEffect s)).csps = (quiet s).csps ∧ (quiet (cairnRelaunchEffect s)).xip = (quiet s).xip ∧ (quiet (cairnRelaunchEffect s)).pending = (quiet s).pending := by
  unfold cairnRelaunchEffect
  (repeat' split) <;> simp_all [quiet_proj, quiet_mk]

@[simp] theorem quiet_cairnMissedEffect (s : State) : (quiet (cairnMissedEffect s)).now = (quiet s).now ∧ (quiet (cairnMissedEffect s)).ticks = (quiet s).ticks ∧ (quiet (cairnMissedEffect s)).boot = (quiet s).boot ∧ (quiet (cairnMissedEffect s)).flash = (quiet s).flash ∧ (quiet (cairnMissedEffect s)).working = (quiet s).working ∧ (quiet (cairnMissedEffect s)).sites = (quiet s).sites ∧ (quiet (cairnMissedEffect s)).routes = (quiet s).routes ∧ (quiet (cairnMissedEffect s)).cal = (quiet s).cal ∧ (quiet (cairnMissedEffect s)).sensors = (quiet s).sensors ∧ (quiet (cairnMissedEffect s)).smons = (quiet s).smons ∧ (quiet (cairnMissedEffect s)).pmons = (quiet s).pmons ∧ (quiet (cairnMissedEffect s)).owl = (quiet s).owl ∧ (quiet (cairnMissedEffect s)).csps = (quiet s).csps ∧ (quiet (cairnMissedEffect s)).xip = (quiet s).xip ∧ (quiet (cairnMissedEffect s)).pending = (quiet s).pending := by
  unfold cairnMissedEffect
  simp

@[simp] theorem quiet_modMember (s : State) (k : ℕ) (f : Member → Member) : quiet (modMember s k f) = quiet s := by
  unfold modMember
  simp

@[simp] theorem quiet_drivePulse (s : State) (k : Bool) (t : T64) : (quiet (drivePulse s k t)).now = (quiet s).now ∧ (quiet (drivePulse s k t)).ticks = (quiet s).ticks ∧ (quiet (drivePulse s k t)).boot = (quiet s).boot ∧ (quiet (drivePulse s k t)).flash = (quiet s).flash ∧ (quiet (drivePulse s k t)).working = (quiet s).working ∧ (quiet (drivePulse s k t)).sites = (quiet s).sites ∧ (quiet (drivePulse s k t)).routes = (quiet s).routes ∧ (quiet (drivePulse s k t)).cal = (quiet s).cal ∧ (quiet (drivePulse s k t)).sensors = (quiet s).sensors ∧ (quiet (drivePulse s k t)).smons = (quiet s).smons ∧ (quiet (drivePulse s k t)).pmons = (quiet s).pmons ∧ (quiet (drivePulse s k t)).owl = (quiet s).owl ∧ (quiet (drivePulse s k t)).csps = (quiet s).csps ∧ (quiet (drivePulse s k t)).xip = (quiet s).xip ∧ (quiet (drivePulse s k t)).pending = (quiet s).pending := by
  unfold drivePulse
  simp

@[simp] theorem quiet_seePulse (parent : Byte) (output : Byte) (s : State) : (quiet (seePulse parent output s)).now = (quiet s).now ∧ (quiet (seePulse parent output s)).ticks = (quiet s).ticks ∧ (quiet (seePulse parent output s)).boot = (quiet s).boot ∧ (quiet (seePulse parent output s)).flash = (quiet s).flash ∧ (quiet (seePulse parent output s)).working = (quiet s).working ∧ (quiet (seePulse parent output s)).sites = (quiet s).sites ∧ (quiet (seePulse parent output s)).routes = (quiet s).routes ∧ (quiet (seePulse parent output s)).cal = (quiet s).cal ∧ (quiet (seePulse parent output s)).sensors = (quiet s).sensors ∧ (quiet (seePulse parent output s)).smons = (quiet s).smons ∧ (quiet (seePulse parent output s)).pmons = (quiet s).pmons ∧ (quiet (seePulse parent output s)).owl = (quiet s).owl ∧ (quiet (seePulse parent output s)).csps = (quiet s).csps ∧ (quiet (seePulse parent output s)).xip = (quiet s).xip ∧ (quiet (seePulse parent output s)).pending = (quiet s).pending := by
  unfold seePulse
  simp

@[simp] theorem quiet_discoveryPulseEffect (parent : Byte) (output : Byte) (s : State) : (quiet (discoveryPulseEffect parent output s)).now = (quiet s).now ∧ (quiet (discoveryPulseEffect parent output s)).ticks = (quiet s).ticks ∧ (quiet (discoveryPulseEffect parent output s)).boot = (quiet s).boot ∧ (quiet (discoveryPulseEffect parent output s)).flash = (quiet s).flash ∧ (quiet (discoveryPulseEffect parent output s)).working = (quiet s).working ∧ (quiet (discoveryPulseEffect parent output s)).sites = (quiet s).sites ∧ (quiet (discoveryPulseEffect parent output s)).routes = (quiet s).routes ∧ (quiet (discoveryPulseEffect parent output s)).cal = (quiet s).cal ∧ (quiet (discoveryPulseEffect parent output s)).sensors = (quiet s).sensors ∧ (quiet (discoveryPulseEffect parent output s)).smons = (quiet s).smons ∧ (quiet (discoveryPulseEffect parent output s)).pmons = (quiet s).pmons ∧ (quiet (discoveryPulseEffect parent output s)).owl = (quiet s).owl ∧ (quiet (discoveryPulseEffect parent output s)).csps = (quiet s).csps ∧ (quiet (discoveryPulseEffect parent output s)).xip = (quiet s).xip ∧ (quiet (discoveryPulseEffect parent output s)).pending = (quiet s).pending := by
  unfold discoveryPulseEffect
  simp

@[simp] theorem quiet_echoPulseEffect (stamp : T64) (s : State) : (quiet (echoPulseEffect stamp s)).now = (quiet s).now ∧ (quiet (echoPulseEffect stamp s)).ticks = (quiet s).ticks ∧ (quiet (echoPulseEffect stamp s)).boot = (quiet s).boot ∧ (quiet (echoPulseEffect stamp s)).flash = (quiet s).flash ∧ (quiet (echoPulseEffect stamp s)).working = (quiet s).working ∧ (quiet (echoPulseEffect stamp s)).sites = (quiet s).sites ∧ (quiet (echoPulseEffect stamp s)).routes = (quiet s).routes ∧ (quiet (echoPulseEffect stamp s)).cal = (quiet s).cal ∧ (quiet (echoPulseEffect stamp s)).sensors = (quiet s).sensors ∧ (quiet (echoPulseEffect stamp s)).smons = (quiet s).smons ∧ (quiet (echoPulseEffect stamp s)).pmons = (quiet s).pmons ∧ (quiet (echoPulseEffect stamp s)).owl = (quiet s).owl ∧ (quiet (echoPulseEffect stamp s)).csps = (quiet s).csps ∧ (quiet (echoPulseEffect stamp s)).xip = (quiet s).xip ∧ (quiet (echoPulseEffect stamp s)).pending = (quiet s).pending := by
  unfold echoPulseEffect
  simp

@[simp] theorem quiet_echoTurnaroundEffect (s : State) : (quiet (echoTurnaroundEffect s)).now = (quiet s).now ∧ (quiet (echoTurnaroundEffect s)).ticks = (quiet s).ticks ∧ (quiet (echoTurnaroundEffect s)).boot = (quiet s).boot ∧ (quiet (echoTurnaroundEffect s)).flash = (quiet s).flash ∧ (quiet (echoTurnaroundEffect s)).working = (quiet s).working ∧ (quiet (echoTurnaroundEffect s)).sites = (quiet s).sites ∧ (quiet (echoTurnaroundEffect s)).routes = (quiet s).routes ∧ (quiet (echoTurnaroundEffect s)).cal = (quiet s).cal ∧ (quiet (echoTurnaroundEffect s)).sensors = (quiet s).sensors ∧ (quiet (echoTurnaroundEffect s)).smons = (quiet s).smons ∧ (quiet (echoTurnaroundEffect s)).pmons = (quiet s).pmons ∧ (quiet (echoTurnaroundEffect s)).owl = (quiet s).owl ∧ (quiet (echoTurnaroundEffect s)).csps = (quiet s).csps ∧ (quiet (echoTurnaroundEffect s)).xip = (quiet s).xip ∧ (quiet (echoTurnaroundEffect s)).pending = (quiet s).pending := by
  unfold echoTurnaroundEffect
  (repeat' split) <;> simp_all [quiet_proj, quiet_mk]

@[simp] theorem quiet_echoReturnEffect (output : Bool) (driven : T64) (returned : T64) (s : State) : (quiet (echoReturnEffect output driven returned s)).now = (quiet s).now ∧ (quiet (echoReturnEffect output driven returned s)).ticks = (quiet s).ticks ∧ (quiet (echoReturnEffect output driven returned s)).boot = (quiet s).boot ∧ (quiet (echoReturnEffect output driven returned s)).flash = (quiet s).flash ∧ (quiet (echoReturnEffect output driven returned s)).working = (quiet s).working ∧ (quiet (echoReturnEffect output driven returned s)).sites = (quiet s).sites ∧ (quiet (echoReturnEffect output driven returned s)).routes = (quiet s).routes ∧ (quiet (echoReturnEffect output driven returned s)).cal = (quiet s).cal ∧ (quiet (echoReturnEffect output driven returned s)).sensors = (quiet s).sensors ∧ (quiet (echoReturnEffect output driven returned s)).smons = (quiet s).smons ∧ (quiet (echoReturnEffect output driven returned s)).pmons = (quiet s).pmons ∧ (quiet (echoReturnEffect output driven returned s)).owl = (quiet s).owl ∧ (quiet (echoReturnEffect output driven returned s)).csps = (quiet s).csps ∧ (quiet (echoReturnEffect output driven returned s)).xip = (quiet s).xip ∧ (quiet (echoReturnEffect output driven returned s)).pending = (quiet s).pending := by
  unfold echoReturnEffect
  simp

@[simp] theorem quiet_gatherHops (s : State) (hops : List Word) : (quiet (gatherHops s hops)).now = (quiet s).now ∧ (quiet (gatherHops s hops)).ticks = (quiet s).ticks ∧ (quiet (gatherHops s hops)).boot = (quiet s).boot ∧ (quiet (gatherHops s hops)).flash = (quiet s).flash ∧ (quiet (gatherHops s hops)).working = (quiet s).working ∧ (quiet (gatherHops s hops)).sites = (quiet s).sites ∧ (quiet (gatherHops s hops)).routes = (quiet s).routes ∧ (quiet (gatherHops s hops)).cal = (quiet s).cal ∧ (quiet (gatherHops s hops)).sensors = (quiet s).sensors ∧ (quiet (gatherHops s hops)).smons = (quiet s).smons ∧ (quiet (gatherHops s hops)).pmons = (quiet s).pmons ∧ (quiet (gatherHops s hops)).owl = (quiet s).owl ∧ (quiet (gatherHops s hops)).csps = (quiet s).csps ∧ (quiet (gatherHops s hops)).xip = (quiet s).xip ∧ (quiet (gatherHops s hops)).pending = (quiet s).pending := by
  unfold gatherHops
  simp

@[simp] theorem quiet_learnTree (is : List SyncInfo) (s : State) : (quiet (learnTree is s)).now = (quiet s).now ∧ (quiet (learnTree is s)).ticks = (quiet s).ticks ∧ (quiet (learnTree is s)).boot = (quiet s).boot ∧ (quiet (learnTree is s)).flash = (quiet s).flash ∧ (quiet (learnTree is s)).working = (quiet s).working ∧ (quiet (learnTree is s)).sites = (quiet s).sites ∧ (quiet (learnTree is s)).routes = (quiet s).routes ∧ (quiet (learnTree is s)).cal = (quiet s).cal ∧ (quiet (learnTree is s)).sensors = (quiet s).sensors ∧ (quiet (learnTree is s)).smons = (quiet s).smons ∧ (quiet (learnTree is s)).pmons = (quiet s).pmons ∧ (quiet (learnTree is s)).owl = (quiet s).owl ∧ (quiet (learnTree is s)).csps = (quiet s).csps ∧ (quiet (learnTree is s)).xip = (quiet s).xip ∧ (quiet (learnTree is s)).pending = (quiet s).pending := by
  unfold learnTree
  simp

@[simp] theorem quiet_newDly (d : ℤ) (s : State) : (quiet (newDly d s)).now = (quiet s).now ∧ (quiet (newDly d s)).ticks = (quiet s).ticks ∧ (quiet (newDly d s)).boot = (quiet s).boot ∧ (quiet (newDly d s)).flash = (quiet s).flash ∧ (quiet (newDly d s)).working = (quiet s).working ∧ (quiet (newDly d s)).sites = (quiet s).sites ∧ (quiet (newDly d s)).routes = (quiet s).routes ∧ (quiet (newDly d s)).cal = (quiet s).cal ∧ (quiet (newDly d s)).sensors = (quiet s).sensors ∧ (quiet (newDly d s)).smons = (quiet s).smons ∧ (quiet (newDly d s)).pmons = (quiet s).pmons ∧ (quiet (newDly d s)).owl = (quiet s).owl ∧ (quiet (newDly d s)).csps = (quiet s).csps ∧ (quiet (newDly d s)).xip = (quiet s).xip ∧ (quiet (newDly d s)).pending = (quiet s).pending := by
  unfold newDly
  simp

@[simp] theorem quiet_bgTrackEchoEffect (hops : List Word) (dly : List Word) (s : State) : (quiet (bgTrackEchoEffect hops dly s)).now = (quiet s).now ∧ (quiet (bgTrackEchoEffect hops dly s)).ticks = (quiet s).ticks ∧ (quiet (bgTrackEchoEffect hops dly s)).boot = (quiet s).boot ∧ (quiet (bgTrackEchoEffect hops dly s)).flash = (quiet s).flash ∧ (quiet (bgTrackEchoEffect hops dly s)).working = (quiet s).working ∧ (quiet (bgTrackEchoEffect hops dly s)).sites = (quiet s).sites ∧ (quiet (bgTrackEchoEffect hops dly s)).routes = (quiet s).routes ∧ (quiet (bgTrackEchoEffect hops dly s)).cal = (quiet s).cal ∧ (quiet (bgTrackEchoEffect hops dly s)).sensors = (quiet s).sensors ∧ (quiet (bgTrackEchoEffect hops dly s)).smons = (quiet s).smons ∧ (quiet (bgTrackEchoEffect hops dly s)).pmons = (quiet s).pmons ∧ (quiet (bgTrackEchoEffect hops dly s)).owl = (quiet s).owl ∧ (quiet (bgTrackEchoEffect hops dly s)).csps = (quiet s).csps ∧ (quiet (bgTrackEchoEffect hops dly s)).xip = (quiet s).xip ∧ (quiet (bgTrackEchoEffect hops dly s)).pending = (quiet s).pending := by
  unfold bgTrackEchoEffect
  simp
  (repeat' split) <;> simp_all [quiet_proj, quiet_mk]

@[simp] theorem quiet_syncCalEffect (h : Hdr) (options : Byte) (s : State) : (quiet (syncCalEffect h options s)).now = (quiet s).now ∧ (quiet (syncCalEffect h options s)).ticks = (quiet s).ticks ∧ (quiet (syncCalEffect h options s)).boot = (quiet s).boot ∧ (quiet (syncCalEffect h options s)).flash = (quiet s).flash ∧ (quiet (syncCalEffect h options s)).working = (quiet s).working ∧ (quiet (syncCalEffect h options s)).sites = (quiet s).sites ∧ (quiet (syncCalEffect h options s)).routes = (quiet s).routes ∧ (quiet (syncCalEffect h options s)).cal = (quiet s).cal ∧ (quiet (syncCalEffect h options s)).sensors = (quiet s).sensors ∧ (quiet (syncCalEffect h options s)).smons = (quiet s).smons ∧ (quiet (syncCalEffect h options s)).pmons = (quiet s).pmons ∧ (quiet (syncCalEffect h options s)).owl = (quiet s).owl ∧ (quiet (syncCalEffect h options s)).csps = (quiet s).csps ∧ (quiet (syncCalEffect h options s)).xip = (quiet s).xip ∧ (quiet (syncCalEffect h options s)).pending = (quiet s).pending := by
  unfold syncCalEffect
  refine command_ind (P := fun t => (quiet (t)).now = (quiet (s)).now ∧ (quiet (t)).ticks = (quiet (s)).ticks ∧ (quiet (t)).boot = (quiet (s)).boot ∧ (quiet (t)).flash = (quiet (s)).flash ∧ (quiet (t)).working = (quiet (s)).working ∧ (quiet (t)).sites = (quiet (s)).sites ∧ (quiet (t)).routes = (quiet (s)).routes ∧ (quiet (t)).cal = (quiet (s)).cal ∧ (quiet (t)).sensors = (quiet (s)).sensors ∧ (quiet (t)).smons = (quiet (s)).smons ∧ (quiet (t)).pmons = (quiet (s)).pmons ∧ (quiet (t)).owl = (quiet (s)).owl ∧ (quiet (t)).csps = (quiet (s)).csps ∧ (quiet (t)).xip = (quiet (s)).xip ∧ (quiet (t)).pending = (quiet (s)).pending) (fun t h => by simp [h]) (fun u hu => ?_)
  (repeat' split) <;> simp_all [quiet_proj, quiet_mk]

@[simp] theorem quiet_syncCollect (is : List SyncInfo) (o : Byte) (s : State) : (quiet (syncCollect is o s)).now = (quiet s).now ∧ (quiet (syncCollect is o s)).ticks = (quiet s).ticks ∧ (quiet (syncCollect is o s)).boot = (quiet s).boot ∧ (quiet (syncCollect is o s)).flash = (quiet s).flash ∧ (quiet (syncCollect is o s)).working = (quiet s).working ∧ (quiet (syncCollect is o s)).sites = (quiet s).sites ∧ (quiet (syncCollect is o s)).routes = (quiet s).routes ∧ (quiet (syncCollect is o s)).cal = (quiet s).cal ∧ (quiet (syncCollect is o s)).sensors = (quiet s).sensors ∧ (quiet (syncCollect is o s)).smons = (quiet s).smons ∧ (quiet (syncCollect is o s)).pmons = (quiet s).pmons ∧ (quiet (syncCollect is o s)).owl = (quiet s).owl ∧ (quiet (syncCollect is o s)).csps = (quiet s).csps ∧ (quiet (syncCollect is o s)).xip = (quiet s).xip ∧ (quiet (syncCollect is o s)).pending = (quiet s).pending := by
  unfold syncCollect
  simp

@[simp] theorem quiet_syncCalDoneEffect (is : List SyncInfo) (vals : List Word) (s : State) : (quiet (syncCalDoneEffect is vals s)).now = (quiet s).now ∧ (quiet (syncCalDoneEffect is vals s)).ticks = (quiet s).ticks ∧ (quiet (syncCalDoneEffect is vals s)).boot = (quiet s).boot ∧ (quiet (syncCalDoneEffect is vals s)).flash = (quiet s).flash ∧ (quiet (syncCalDoneEffect is vals s)).working = (quiet s).working ∧ (quiet (syncCalDoneEffect is vals s)).sites = (quiet s).sites ∧ (quiet (syncCalDoneEffect is vals s)).routes = (quiet s).routes ∧ (quiet (syncCalDoneEffect is vals s)).cal = (quiet s).cal ∧ (quiet (syncCalDoneEffect is vals s)).sensors = (quiet s).sensors ∧ (quiet (syncCalDoneEffect is vals s)).smons = (quiet s).smons ∧ (quiet (syncCalDoneEffect is vals s)).pmons = (quiet s).pmons ∧ (quiet (syncCalDoneEffect is vals s)).owl = (quiet s).owl ∧ (quiet (syncCalDoneEffect is vals s)).csps = (quiet s).csps ∧ (quiet (syncCalDoneEffect is vals s)).xip = (quiet s).xip ∧ (quiet (syncCalDoneEffect is vals s)).pending = (quiet s).pending := by
  unfold syncCalDoneEffect
  simp
  (repeat' split) <;> simp_all [quiet_proj, quiet_mk]

@[simp] theorem quiet_regWrite (p : Path) (i : ℕ) (v : Word) (s : State) (h_i : Plain i) (h_b : i < 8192) : (quiet (regWrite p i v s)).now = (quiet s).now ∧ (quiet (regWrite p i v s)).ticks = (quiet s).ticks ∧ (quiet (regWrite p i v s)).boot = (quiet s).boot ∧ (quiet (regWrite p i v s)).flash = (quiet s).flash ∧ (quiet (regWrite p i v s)).working = (quiet s).working ∧ (quiet (regWrite p i v s)).sites = (quiet s).sites ∧ (quiet (regWrite p i v s)).routes = (quiet s).routes ∧ (quiet (regWrite p i v s)).cal = (quiet s).cal ∧ (quiet (regWrite p i v s)).sensors = (quiet s).sensors ∧ (quiet (regWrite p i v s)).smons = (quiet s).smons ∧ (quiet (regWrite p i v s)).pmons = (quiet s).pmons ∧ (quiet (regWrite p i v s)).owl = (quiet s).owl ∧ (quiet (regWrite p i v s)).cairn = (quiet s).cairn ∧ (quiet (regWrite p i v s)).xip = (quiet s).xip ∧ (quiet (regWrite p i v s)).pending = (quiet s).pending := by
  unfold regWrite
  split
  · rw [quiet_paramWriteEffect _ _ _ _ (by rwa [show (BitVec.ofNat 16 i).toNat % 8192 = i by simp; omega])]; simp
  · rw [quiet_windowWrite _ _ _ h_i]; simp
  · apply quiet_slaveApply; simpa using h_i
  · simp
  · simp

@[simp] theorem quiet_pinCfgEffect (path : Path) (p : PinId) (v : Word) (s : State) : (quiet (pinCfgEffect path p v s)).now = (quiet s).now ∧ (quiet (pinCfgEffect path p v s)).ticks = (quiet s).ticks ∧ (quiet (pinCfgEffect path p v s)).boot = (quiet s).boot ∧ (quiet (pinCfgEffect path p v s)).flash = (quiet s).flash ∧ (quiet (pinCfgEffect path p v s)).working = (quiet s).working ∧ (quiet (pinCfgEffect path p v s)).sites = (quiet s).sites ∧ (quiet (pinCfgEffect path p v s)).routes = (quiet s).routes ∧ (quiet (pinCfgEffect path p v s)).cal = (quiet s).cal ∧ (quiet (pinCfgEffect path p v s)).sensors = (quiet s).sensors ∧ (quiet (pinCfgEffect path p v s)).smons = (quiet s).smons ∧ (quiet (pinCfgEffect path p v s)).pmons = (quiet s).pmons ∧ (quiet (pinCfgEffect path p v s)).owl = (quiet s).owl ∧ (quiet (pinCfgEffect path p v s)).cairn = (quiet s).cairn ∧ (quiet (pinCfgEffect path p v s)).xip = (quiet s).xip ∧ (quiet (pinCfgEffect path p v s)).pending = (quiet s).pending := by
  unfold pinCfgEffect
  apply quiet_regWrite
  · simp only [Plain, pinW]; omega
  · simp only [pinW]; omega

@[simp] theorem quiet_pinPmuCfgEffect (path : Path) (p : PinId) (v : Word) (s : State) : (quiet (pinPmuCfgEffect path p v s)).now = (quiet s).now ∧ (quiet (pinPmuCfgEffect path p v s)).ticks = (quiet s).ticks ∧ (quiet (pinPmuCfgEffect path p v s)).boot = (quiet s).boot ∧ (quiet (pinPmuCfgEffect path p v s)).flash = (quiet s).flash ∧ (quiet (pinPmuCfgEffect path p v s)).working = (quiet s).working ∧ (quiet (pinPmuCfgEffect path p v s)).sites = (quiet s).sites ∧ (quiet (pinPmuCfgEffect path p v s)).routes = (quiet s).routes ∧ (quiet (pinPmuCfgEffect path p v s)).cal = (quiet s).cal ∧ (quiet (pinPmuCfgEffect path p v s)).sensors = (quiet s).sensors ∧ (quiet (pinPmuCfgEffect path p v s)).smons = (quiet s).smons ∧ (quiet (pinPmuCfgEffect path p v s)).pmons = (quiet s).pmons ∧ (quiet (pinPmuCfgEffect path p v s)).owl = (quiet s).owl ∧ (quiet (pinPmuCfgEffect path p v s)).cairn = (quiet s).cairn ∧ (quiet (pinPmuCfgEffect path p v s)).xip = (quiet s).xip ∧ (quiet (pinPmuCfgEffect path p v s)).pending = (quiet s).pending := by
  unfold pinPmuCfgEffect
  apply quiet_regWrite
  · simp only [Plain, pinW]; omega
  · simp only [pinW]; omega

@[simp] theorem quiet_dpsCfgEffect (path : Path) (n : RidgeId) (v : Word) (s : State) : (quiet (dpsCfgEffect path n v s)).now = (quiet s).now ∧ (quiet (dpsCfgEffect path n v s)).ticks = (quiet s).ticks ∧ (quiet (dpsCfgEffect path n v s)).boot = (quiet s).boot ∧ (quiet (dpsCfgEffect path n v s)).flash = (quiet s).flash ∧ (quiet (dpsCfgEffect path n v s)).working = (quiet s).working ∧ (quiet (dpsCfgEffect path n v s)).sites = (quiet s).sites ∧ (quiet (dpsCfgEffect path n v s)).routes = (quiet s).routes ∧ (quiet (dpsCfgEffect path n v s)).cal = (quiet s).cal ∧ (quiet (dpsCfgEffect path n v s)).sensors = (quiet s).sensors ∧ (quiet (dpsCfgEffect path n v s)).smons = (quiet s).smons ∧ (quiet (dpsCfgEffect path n v s)).pmons = (quiet s).pmons ∧ (quiet (dpsCfgEffect path n v s)).owl = (quiet s).owl ∧ (quiet (dpsCfgEffect path n v s)).cairn = (quiet s).cairn ∧ (quiet (dpsCfgEffect path n v s)).xip = (quiet s).xip ∧ (quiet (dpsCfgEffect path n v s)).pending = (quiet s).pending := by
  unfold dpsCfgEffect
  apply quiet_regWrite
  · simp only [Plain, dpsW]; omega
  · simp only [dpsW]; omega

@[simp] theorem quiet_dpsLevelEffect (path : Path) (n : RidgeId) (v : Word) (s : State) : (quiet (dpsLevelEffect path n v s)).now = (quiet s).now ∧ (quiet (dpsLevelEffect path n v s)).ticks = (quiet s).ticks ∧ (quiet (dpsLevelEffect path n v s)).boot = (quiet s).boot ∧ (quiet (dpsLevelEffect path n v s)).flash = (quiet s).flash ∧ (quiet (dpsLevelEffect path n v s)).working = (quiet s).working ∧ (quiet (dpsLevelEffect path n v s)).sites = (quiet s).sites ∧ (quiet (dpsLevelEffect path n v s)).routes = (quiet s).routes ∧ (quiet (dpsLevelEffect path n v s)).cal = (quiet s).cal ∧ (quiet (dpsLevelEffect path n v s)).sensors = (quiet s).sensors ∧ (quiet (dpsLevelEffect path n v s)).smons = (quiet s).smons ∧ (quiet (dpsLevelEffect path n v s)).pmons = (quiet s).pmons ∧ (quiet (dpsLevelEffect path n v s)).owl = (quiet s).owl ∧ (quiet (dpsLevelEffect path n v s)).cairn = (quiet s).cairn ∧ (quiet (dpsLevelEffect path n v s)).xip = (quiet s).xip ∧ (quiet (dpsLevelEffect path n v s)).pending = (quiet s).pending := by
  unfold dpsLevelEffect
  apply quiet_regWrite
  · simp only [Plain, dpsW]; omega
  · simp only [dpsW]; omega

@[simp] theorem quiet_dpsNcoFreqEffect (path : Path) (n : RidgeId) (v : Word) (s : State) : (quiet (dpsNcoFreqEffect path n v s)).now = (quiet s).now ∧ (quiet (dpsNcoFreqEffect path n v s)).ticks = (quiet s).ticks ∧ (quiet (dpsNcoFreqEffect path n v s)).boot = (quiet s).boot ∧ (quiet (dpsNcoFreqEffect path n v s)).flash = (quiet s).flash ∧ (quiet (dpsNcoFreqEffect path n v s)).working = (quiet s).working ∧ (quiet (dpsNcoFreqEffect path n v s)).sites = (quiet s).sites ∧ (quiet (dpsNcoFreqEffect path n v s)).routes = (quiet s).routes ∧ (quiet (dpsNcoFreqEffect path n v s)).cal = (quiet s).cal ∧ (quiet (dpsNcoFreqEffect path n v s)).sensors = (quiet s).sensors ∧ (quiet (dpsNcoFreqEffect path n v s)).smons = (quiet s).smons ∧ (quiet (dpsNcoFreqEffect path n v s)).pmons = (quiet s).pmons ∧ (quiet (dpsNcoFreqEffect path n v s)).owl = (quiet s).owl ∧ (quiet (dpsNcoFreqEffect path n v s)).cairn = (quiet s).cairn ∧ (quiet (dpsNcoFreqEffect path n v s)).xip = (quiet s).xip ∧ (quiet (dpsNcoFreqEffect path n v s)).pending = (quiet s).pending := by
  unfold dpsNcoFreqEffect
  apply quiet_regWrite
  · simp only [Plain, dpsW]; omega
  · simp only [dpsW]; omega

@[simp] theorem quiet_dpsNcoPhaseEffect (path : Path) (n : RidgeId) (v : Word) (s : State) : (quiet (dpsNcoPhaseEffect path n v s)).now = (quiet s).now ∧ (quiet (dpsNcoPhaseEffect path n v s)).ticks = (quiet s).ticks ∧ (quiet (dpsNcoPhaseEffect path n v s)).boot = (quiet s).boot ∧ (quiet (dpsNcoPhaseEffect path n v s)).flash = (quiet s).flash ∧ (quiet (dpsNcoPhaseEffect path n v s)).working = (quiet s).working ∧ (quiet (dpsNcoPhaseEffect path n v s)).sites = (quiet s).sites ∧ (quiet (dpsNcoPhaseEffect path n v s)).routes = (quiet s).routes ∧ (quiet (dpsNcoPhaseEffect path n v s)).cal = (quiet s).cal ∧ (quiet (dpsNcoPhaseEffect path n v s)).sensors = (quiet s).sensors ∧ (quiet (dpsNcoPhaseEffect path n v s)).smons = (quiet s).smons ∧ (quiet (dpsNcoPhaseEffect path n v s)).pmons = (quiet s).pmons ∧ (quiet (dpsNcoPhaseEffect path n v s)).owl = (quiet s).owl ∧ (quiet (dpsNcoPhaseEffect path n v s)).cairn = (quiet s).cairn ∧ (quiet (dpsNcoPhaseEffect path n v s)).xip = (quiet s).xip ∧ (quiet (dpsNcoPhaseEffect path n v s)).pending = (quiet s).pending := by
  unfold dpsNcoPhaseEffect
  apply quiet_regWrite
  · simp only [Plain, dpsW]; omega
  · simp only [dpsW]; omega

@[simp] theorem quiet_dpsStatusEffect (path : Path) (n : RidgeId) (v : Word) (s : State) : (quiet (dpsStatusEffect path n v s)).now = (quiet s).now ∧ (quiet (dpsStatusEffect path n v s)).ticks = (quiet s).ticks ∧ (quiet (dpsStatusEffect path n v s)).boot = (quiet s).boot ∧ (quiet (dpsStatusEffect path n v s)).flash = (quiet s).flash ∧ (quiet (dpsStatusEffect path n v s)).working = (quiet s).working ∧ (quiet (dpsStatusEffect path n v s)).sites = (quiet s).sites ∧ (quiet (dpsStatusEffect path n v s)).routes = (quiet s).routes ∧ (quiet (dpsStatusEffect path n v s)).cal = (quiet s).cal ∧ (quiet (dpsStatusEffect path n v s)).sensors = (quiet s).sensors ∧ (quiet (dpsStatusEffect path n v s)).smons = (quiet s).smons ∧ (quiet (dpsStatusEffect path n v s)).pmons = (quiet s).pmons ∧ (quiet (dpsStatusEffect path n v s)).owl = (quiet s).owl ∧ (quiet (dpsStatusEffect path n v s)).cairn = (quiet s).cairn ∧ (quiet (dpsStatusEffect path n v s)).xip = (quiet s).xip ∧ (quiet (dpsStatusEffect path n v s)).pending = (quiet s).pending := by
  unfold dpsStatusEffect
  apply quiet_regWrite
  · simp only [Plain, dpsW]; omega
  · simp only [dpsW]; omega

@[simp] theorem quiet_stopAwgWriteEffect (path : Path) (n : RidgeId) (s : State) : (quiet (stopAwgWriteEffect path n s)).now = (quiet s).now ∧ (quiet (stopAwgWriteEffect path n s)).ticks = (quiet s).ticks ∧ (quiet (stopAwgWriteEffect path n s)).boot = (quiet s).boot ∧ (quiet (stopAwgWriteEffect path n s)).flash = (quiet s).flash ∧ (quiet (stopAwgWriteEffect path n s)).working = (quiet s).working ∧ (quiet (stopAwgWriteEffect path n s)).sites = (quiet s).sites ∧ (quiet (stopAwgWriteEffect path n s)).routes = (quiet s).routes ∧ (quiet (stopAwgWriteEffect path n s)).cal = (quiet s).cal ∧ (quiet (stopAwgWriteEffect path n s)).sensors = (quiet s).sensors ∧ (quiet (stopAwgWriteEffect path n s)).smons = (quiet s).smons ∧ (quiet (stopAwgWriteEffect path n s)).pmons = (quiet s).pmons ∧ (quiet (stopAwgWriteEffect path n s)).owl = (quiet s).owl ∧ (quiet (stopAwgWriteEffect path n s)).cairn = (quiet s).cairn ∧ (quiet (stopAwgWriteEffect path n s)).xip = (quiet s).xip ∧ (quiet (stopAwgWriteEffect path n s)).pending = (quiet s).pending := by
  unfold stopAwgWriteEffect
  apply quiet_regWrite
  · simp only [Plain, aptW]; omega
  · simp only [aptW]; omega

@[simp] theorem quiet_stopAcqWriteEffect (path : Path) (n : RidgeId) (s : State) : (quiet (stopAcqWriteEffect path n s)).now = (quiet s).now ∧ (quiet (stopAcqWriteEffect path n s)).ticks = (quiet s).ticks ∧ (quiet (stopAcqWriteEffect path n s)).boot = (quiet s).boot ∧ (quiet (stopAcqWriteEffect path n s)).flash = (quiet s).flash ∧ (quiet (stopAcqWriteEffect path n s)).working = (quiet s).working ∧ (quiet (stopAcqWriteEffect path n s)).sites = (quiet s).sites ∧ (quiet (stopAcqWriteEffect path n s)).routes = (quiet s).routes ∧ (quiet (stopAcqWriteEffect path n s)).cal = (quiet s).cal ∧ (quiet (stopAcqWriteEffect path n s)).sensors = (quiet s).sensors ∧ (quiet (stopAcqWriteEffect path n s)).smons = (quiet s).smons ∧ (quiet (stopAcqWriteEffect path n s)).pmons = (quiet s).pmons ∧ (quiet (stopAcqWriteEffect path n s)).owl = (quiet s).owl ∧ (quiet (stopAcqWriteEffect path n s)).cairn = (quiet s).cairn ∧ (quiet (stopAcqWriteEffect path n s)).xip = (quiet s).xip ∧ (quiet (stopAcqWriteEffect path n s)).pending = (quiet s).pending := by
  unfold stopAcqWriteEffect
  apply quiet_regWrite
  · simp only [Plain, aptW]; omega
  · simp only [aptW]; omega

@[simp] theorem quiet_aptNcoFreqEffect (path : Path) (n : RidgeId) (v : Word) (s : State) : (quiet (aptNcoFreqEffect path n v s)).now = (quiet s).now ∧ (quiet (aptNcoFreqEffect path n v s)).ticks = (quiet s).ticks ∧ (quiet (aptNcoFreqEffect path n v s)).boot = (quiet s).boot ∧ (quiet (aptNcoFreqEffect path n v s)).flash = (quiet s).flash ∧ (quiet (aptNcoFreqEffect path n v s)).working = (quiet s).working ∧ (quiet (aptNcoFreqEffect path n v s)).sites = (quiet s).sites ∧ (quiet (aptNcoFreqEffect path n v s)).routes = (quiet s).routes ∧ (quiet (aptNcoFreqEffect path n v s)).cal = (quiet s).cal ∧ (quiet (aptNcoFreqEffect path n v s)).sensors = (quiet s).sensors ∧ (quiet (aptNcoFreqEffect path n v s)).smons = (quiet s).smons ∧ (quiet (aptNcoFreqEffect path n v s)).pmons = (quiet s).pmons ∧ (quiet (aptNcoFreqEffect path n v s)).owl = (quiet s).owl ∧ (quiet (aptNcoFreqEffect path n v s)).cairn = (quiet s).cairn ∧ (quiet (aptNcoFreqEffect path n v s)).xip = (quiet s).xip ∧ (quiet (aptNcoFreqEffect path n v s)).pending = (quiet s).pending := by
  unfold aptNcoFreqEffect
  apply quiet_regWrite
  · simp only [Plain, aptW]; omega
  · simp only [aptW]; omega

@[simp] theorem quiet_aptNcoPhaseEffect (path : Path) (n : RidgeId) (v : Word) (s : State) : (quiet (aptNcoPhaseEffect path n v s)).now = (quiet s).now ∧ (quiet (aptNcoPhaseEffect path n v s)).ticks = (quiet s).ticks ∧ (quiet (aptNcoPhaseEffect path n v s)).boot = (quiet s).boot ∧ (quiet (aptNcoPhaseEffect path n v s)).flash = (quiet s).flash ∧ (quiet (aptNcoPhaseEffect path n v s)).working = (quiet s).working ∧ (quiet (aptNcoPhaseEffect path n v s)).sites = (quiet s).sites ∧ (quiet (aptNcoPhaseEffect path n v s)).routes = (quiet s).routes ∧ (quiet (aptNcoPhaseEffect path n v s)).cal = (quiet s).cal ∧ (quiet (aptNcoPhaseEffect path n v s)).sensors = (quiet s).sensors ∧ (quiet (aptNcoPhaseEffect path n v s)).smons = (quiet s).smons ∧ (quiet (aptNcoPhaseEffect path n v s)).pmons = (quiet s).pmons ∧ (quiet (aptNcoPhaseEffect path n v s)).owl = (quiet s).owl ∧ (quiet (aptNcoPhaseEffect path n v s)).cairn = (quiet s).cairn ∧ (quiet (aptNcoPhaseEffect path n v s)).xip = (quiet s).xip ∧ (quiet (aptNcoPhaseEffect path n v s)).pending = (quiet s).pending := by
  unfold aptNcoPhaseEffect
  apply quiet_regWrite
  · simp only [Plain, aptW]; omega
  · simp only [aptW]; omega

@[simp] theorem quiet_aptHostRdEffect (path : Path) (n : RidgeId) (v : Word) (s : State) : (quiet (aptHostRdEffect path n v s)).now = (quiet s).now ∧ (quiet (aptHostRdEffect path n v s)).ticks = (quiet s).ticks ∧ (quiet (aptHostRdEffect path n v s)).boot = (quiet s).boot ∧ (quiet (aptHostRdEffect path n v s)).flash = (quiet s).flash ∧ (quiet (aptHostRdEffect path n v s)).working = (quiet s).working ∧ (quiet (aptHostRdEffect path n v s)).sites = (quiet s).sites ∧ (quiet (aptHostRdEffect path n v s)).routes = (quiet s).routes ∧ (quiet (aptHostRdEffect path n v s)).cal = (quiet s).cal ∧ (quiet (aptHostRdEffect path n v s)).sensors = (quiet s).sensors ∧ (quiet (aptHostRdEffect path n v s)).smons = (quiet s).smons ∧ (quiet (aptHostRdEffect path n v s)).pmons = (quiet s).pmons ∧ (quiet (aptHostRdEffect path n v s)).owl = (quiet s).owl ∧ (quiet (aptHostRdEffect path n v s)).cairn = (quiet s).cairn ∧ (quiet (aptHostRdEffect path n v s)).xip = (quiet s).xip ∧ (quiet (aptHostRdEffect path n v s)).pending = (quiet s).pending := by
  unfold aptHostRdEffect
  apply quiet_regWrite
  · simp only [Plain, aptW]; omega
  · simp only [aptW]; omega

@[simp] theorem quiet_rdgCapHostRdEffect (path : Path) (r : RidgeId) (v : Word) (s : State) : (quiet (rdgCapHostRdEffect path r v s)).now = (quiet s).now ∧ (quiet (rdgCapHostRdEffect path r v s)).ticks = (quiet s).ticks ∧ (quiet (rdgCapHostRdEffect path r v s)).boot = (quiet s).boot ∧ (quiet (rdgCapHostRdEffect path r v s)).flash = (quiet s).flash ∧ (quiet (rdgCapHostRdEffect path r v s)).working = (quiet s).working ∧ (quiet (rdgCapHostRdEffect path r v s)).sites = (quiet s).sites ∧ (quiet (rdgCapHostRdEffect path r v s)).routes = (quiet s).routes ∧ (quiet (rdgCapHostRdEffect path r v s)).cal = (quiet s).cal ∧ (quiet (rdgCapHostRdEffect path r v s)).sensors = (quiet s).sensors ∧ (quiet (rdgCapHostRdEffect path r v s)).smons = (quiet s).smons ∧ (quiet (rdgCapHostRdEffect path r v s)).pmons = (quiet s).pmons ∧ (quiet (rdgCapHostRdEffect path r v s)).owl = (quiet s).owl ∧ (quiet (rdgCapHostRdEffect path r v s)).cairn = (quiet s).cairn ∧ (quiet (rdgCapHostRdEffect path r v s)).xip = (quiet s).xip ∧ (quiet (rdgCapHostRdEffect path r v s)).pending = (quiet s).pending := by
  unfold rdgCapHostRdEffect
  apply quiet_regWrite
  · simp only [Plain, rdgW]; omega
  · simp only [rdgW]; omega

@[simp] theorem quiet_replayEffect (path : Path) (v : Word) (s : State) : (quiet (replayEffect path v s)).now = (quiet s).now ∧ (quiet (replayEffect path v s)).ticks = (quiet s).ticks ∧ (quiet (replayEffect path v s)).boot = (quiet s).boot ∧ (quiet (replayEffect path v s)).flash = (quiet s).flash ∧ (quiet (replayEffect path v s)).working = (quiet s).working ∧ (quiet (replayEffect path v s)).sites = (quiet s).sites ∧ (quiet (replayEffect path v s)).routes = (quiet s).routes ∧ (quiet (replayEffect path v s)).cal = (quiet s).cal ∧ (quiet (replayEffect path v s)).sensors = (quiet s).sensors ∧ (quiet (replayEffect path v s)).smons = (quiet s).smons ∧ (quiet (replayEffect path v s)).pmons = (quiet s).pmons ∧ (quiet (replayEffect path v s)).owl = (quiet s).owl ∧ (quiet (replayEffect path v s)).cairn = (quiet s).cairn ∧ (quiet (replayEffect path v s)).xip = (quiet s).xip ∧ (quiet (replayEffect path v s)).pending = (quiet s).pending := by
  unfold replayEffect
  apply quiet_regWrite
  · exact ⟨by decide, by decide, by decide⟩
  · decide

@[simp] theorem quiet_reclaimEffect (path : Path) (v : Word) (s : State) : (quiet (reclaimEffect path v s)).now = (quiet s).now ∧ (quiet (reclaimEffect path v s)).ticks = (quiet s).ticks ∧ (quiet (reclaimEffect path v s)).boot = (quiet s).boot ∧ (quiet (reclaimEffect path v s)).flash = (quiet s).flash ∧ (quiet (reclaimEffect path v s)).working = (quiet s).working ∧ (quiet (reclaimEffect path v s)).sites = (quiet s).sites ∧ (quiet (reclaimEffect path v s)).routes = (quiet s).routes ∧ (quiet (reclaimEffect path v s)).cal = (quiet s).cal ∧ (quiet (reclaimEffect path v s)).sensors = (quiet s).sensors ∧ (quiet (reclaimEffect path v s)).smons = (quiet s).smons ∧ (quiet (reclaimEffect path v s)).pmons = (quiet s).pmons ∧ (quiet (reclaimEffect path v s)).owl = (quiet s).owl ∧ (quiet (reclaimEffect path v s)).cairn = (quiet s).cairn ∧ (quiet (reclaimEffect path v s)).xip = (quiet s).xip ∧ (quiet (reclaimEffect path v s)).pending = (quiet s).pending := by
  unfold reclaimEffect
  apply quiet_regWrite
  · exact ⟨by decide, by decide, by decide⟩
  · decide

@[simp] theorem quiet_glbEvtFireEffect (path : Path) (v : Word) (s : State) : (quiet (glbEvtFireEffect path v s)).now = (quiet s).now ∧ (quiet (glbEvtFireEffect path v s)).ticks = (quiet s).ticks ∧ (quiet (glbEvtFireEffect path v s)).boot = (quiet s).boot ∧ (quiet (glbEvtFireEffect path v s)).flash = (quiet s).flash ∧ (quiet (glbEvtFireEffect path v s)).working = (quiet s).working ∧ (quiet (glbEvtFireEffect path v s)).sites = (quiet s).sites ∧ (quiet (glbEvtFireEffect path v s)).routes = (quiet s).routes ∧ (quiet (glbEvtFireEffect path v s)).cal = (quiet s).cal ∧ (quiet (glbEvtFireEffect path v s)).sensors = (quiet s).sensors ∧ (quiet (glbEvtFireEffect path v s)).smons = (quiet s).smons ∧ (quiet (glbEvtFireEffect path v s)).pmons = (quiet s).pmons ∧ (quiet (glbEvtFireEffect path v s)).owl = (quiet s).owl ∧ (quiet (glbEvtFireEffect path v s)).cairn = (quiet s).cairn ∧ (quiet (glbEvtFireEffect path v s)).xip = (quiet s).xip ∧ (quiet (glbEvtFireEffect path v s)).pending = (quiet s).pending := by
  unfold glbEvtFireEffect
  apply quiet_regWrite
  · exact ⟨by decide, by decide, by decide⟩
  · decide

@[simp] theorem quiet_resetEffect (path : Path) (r : RidgeId) (s : State) : (quiet (resetEffect path r s)).now = (quiet s).now ∧ (quiet (resetEffect path r s)).ticks = (quiet s).ticks ∧ (quiet (resetEffect path r s)).boot = (quiet s).boot ∧ (quiet (resetEffect path r s)).flash = (quiet s).flash ∧ (quiet (resetEffect path r s)).working = (quiet s).working ∧ (quiet (resetEffect path r s)).sites = (quiet s).sites ∧ (quiet (resetEffect path r s)).routes = (quiet s).routes ∧ (quiet (resetEffect path r s)).cal = (quiet s).cal ∧ (quiet (resetEffect path r s)).sensors = (quiet s).sensors ∧ (quiet (resetEffect path r s)).smons = (quiet s).smons ∧ (quiet (resetEffect path r s)).pmons = (quiet s).pmons ∧ (quiet (resetEffect path r s)).owl = (quiet s).owl ∧ (quiet (resetEffect path r s)).cairn = (quiet s).cairn ∧ (quiet (resetEffect path r s)).xip = (quiet s).xip ∧ (quiet (resetEffect path r s)).pending = (quiet s).pending := by
  unfold resetEffect
  apply quiet_regWrite
  · simp only [Plain, rdgW]; omega
  · simp only [rdgW]; omega

@[simp] theorem quiet_paramReadEffect (path : Path) (first : BitVec 16) (count : BitVec 16) (addr : BitVec 64) (s : State) : (quiet (paramReadEffect path first count addr s)).now = (quiet s).now ∧ (quiet (paramReadEffect path first count addr s)).ticks = (quiet s).ticks ∧ (quiet (paramReadEffect path first count addr s)).boot = (quiet s).boot ∧ (quiet (paramReadEffect path first count addr s)).flash = (quiet s).flash ∧ (quiet (paramReadEffect path first count addr s)).working = (quiet s).working ∧ (quiet (paramReadEffect path first count addr s)).sites = (quiet s).sites ∧ (quiet (paramReadEffect path first count addr s)).routes = (quiet s).routes ∧ (quiet (paramReadEffect path first count addr s)).cal = (quiet s).cal ∧ (quiet (paramReadEffect path first count addr s)).sensors = (quiet s).sensors ∧ (quiet (paramReadEffect path first count addr s)).smons = (quiet s).smons ∧ (quiet (paramReadEffect path first count addr s)).pmons = (quiet s).pmons ∧ (quiet (paramReadEffect path first count addr s)).owl = (quiet s).owl ∧ (quiet (paramReadEffect path first count addr s)).cairn = (quiet s).cairn ∧ (quiet (paramReadEffect path first count addr s)).xip = (quiet s).xip ∧ (quiet (paramReadEffect path first count addr s)).pending = (quiet s).pending := by
  unfold paramReadEffect
  split
  · simp
  · split <;> simp [configReadEffect, quiet_proj, quiet_mk]

@[simp] theorem quiet_tickPort (s : State) (n : RidgeId) : quiet (tickPort s n) = quiet s := by
  unfold tickPort
  simp

@[simp] theorem quiet_tickRidge (s : State) (r : RidgeId) : quiet (tickRidge s r) = quiet s := by
  unfold tickRidge
  simp

@[simp] theorem quiet_clockTick (s : State) : (quiet (clockTick s)).boot = (quiet s).boot ∧ (quiet (clockTick s)).flash = (quiet s).flash ∧ (quiet (clockTick s)).working = (quiet s).working ∧ (quiet (clockTick s)).sites = (quiet s).sites ∧ (quiet (clockTick s)).routes = (quiet s).routes ∧ (quiet (clockTick s)).cal = (quiet s).cal ∧ (quiet (clockTick s)).sensors = (quiet s).sensors ∧ (quiet (clockTick s)).smons = (quiet s).smons ∧ (quiet (clockTick s)).pmons = (quiet s).pmons ∧ (quiet (clockTick s)).owl = (quiet s).owl ∧ (quiet (clockTick s)).cairn = (quiet s).cairn ∧ (quiet (clockTick s)).csps = (quiet s).csps ∧ (quiet (clockTick s)).xip = (quiet s).xip ∧ (quiet (clockTick s)).pending = (quiet s).pending := by
  unfold clockTick
  simp [quiet_proj, quiet_mk]

/-! ### What a host reset, and so any write of a parameter word, leaves alone -/

/-- The AON island, the flash, the routes and the waiting commands are as before. -/
def Kept (s t : State) : Prop :=
  (quiet t).ticks = (quiet s).ticks ∧ (quiet t).flash = (quiet s).flash ∧ (quiet t).routes = (quiet s).routes ∧
    (quiet t).sensors = (quiet s).sensors ∧ (quiet t).smons = (quiet s).smons ∧ (quiet t).pmons = (quiet s).pmons ∧
    (quiet t).owl = (quiet s).owl ∧ (quiet t).pending = (quiet s).pending

theorem Kept.refl (s : State) : Kept s s := ⟨rfl, rfl, rfl, rfl, rfl, rfl, rfl, rfl⟩

theorem Kept.trans {s t u : State} (h : Kept s t) (k : Kept t u) : Kept s u := by
  obtain ⟨a, b, c, d, e, f, g, i⟩ := h
  obtain ⟨a', b', c', d', e', f', g', i'⟩ := k
  exact ⟨a'.trans a, b'.trans b, c'.trans c, d'.trans d, e'.trans e, f'.trans f, g'.trans g, i'.trans i⟩

theorem Kept.of_quiet {s t : State} (h : quiet t = quiet s) : Kept s t :=
  ⟨congrArg Quiet.ticks h, congrArg Quiet.flash h, congrArg Quiet.routes h, congrArg Quiet.sensors h, congrArg Quiet.smons h,
    congrArg Quiet.pmons h, congrArg Quiet.owl h, congrArg Quiet.pending h⟩

theorem Kept.then_quiet {s t u : State} (h : Kept s t) (k : quiet u = quiet t) : Kept s u := h.trans (.of_quiet k)

theorem kept_strapWords (s : State) : Kept s (strapWords s) := by
  have h := quiet_strapWords s
  exact ⟨h.2.1, h.2.2.2.1, h.2.2.2.2.2.2.1, h.2.2.2.2.2.2.2.2.1, h.2.2.2.2.2.2.2.2.2.1, h.2.2.2.2.2.2.2.2.2.2.1,
    h.2.2.2.2.2.2.2.2.2.2.2.1, h.2.2.2.2.2.2.2.2.2.2.2.2.2.2⟩

theorem kept_hostReset (s : State) (z : Straps) : Kept s (hostReset s z) := by
  unfold hostReset
  split
  · exact .refl s
  · dsimp only
    refine Kept.trans ?_ (kept_strapWords _)
    refine Kept.then_quiet ?_ (quiet_peerResetB ..)
    refine Kept.then_quiet ?_ (quiet_senseFuses ..)
    exact ⟨rfl, rfl, rfl, rfl, rfl, rfl, rfl, rfl⟩

theorem kept_act (s : State) (i v : Nat) : Kept s (act s i v) := by
  by_cases h : i = 0x1948
  · subst h
    unfold act
    simp only [locate]
    norm_num
    split
    · exact kept_hostReset ..
    · exact .refl s
  · exact .of_quiet (quiet_act s i v h)

theorem kept_applyWord (s : State) (i v : Nat) : Kept s (applyWord s i v) := by
  have h := most_applyWord s i v
  exact ⟨h.2.1, h.2.2.2.1, h.2.2.2.2.2.2.1, h.2.2.2.2.2.2.2.2.1, h.2.2.2.2.2.2.2.2.2.1, h.2.2.2.2.2.2.2.2.2.2.1,
    h.2.2.2.2.2.2.2.2.2.2.2.1, h.2.2.2.2.2.2.2.2.2.2.2.2.2.2⟩

theorem kept_writeEffect (s : State) (i v : Nat) : Kept s (writeEffect s i v) := by
  unfold writeEffect
  split
  · exact .refl s
  · dsimp only
    split
    · exact .refl s
    · exact .refl s
    · exact .of_quiet (by simp)
    · exact kept_act ..
    all_goals
      have hp := quiet_accessInject (applyWord s i (v &&& ‹WordInfo›.mask)) 26
      refine Kept.trans (kept_applyWord s i (v &&& ‹WordInfo›.mask)) (.of_quiet ?_)
      split
      · exact quiet_eq2 hp ‹_›
      · simpa using quiet_eq2 hp ‹_›

theorem kept_tryWrite (s : State) (i v : Nat) : Kept s (tryWrite s i v).1 := by
  unfold tryWrite
  split
  · exact .refl s
  · exact kept_writeEffect ..

theorem kept_writeAll (k : Nat) (l : List (Nat × Nat)) (s : State) : Kept s (writeAll k l s).1 := by
  induction l generalizing k s with
  | nil => exact .refl s
  | cons e es ih =>
    obtain ⟨i, v⟩ := e
    have h1 := kept_tryWrite s i v
    unfold writeAll
    split
    · rename_i t h; rw [h] at h1; exact h1.trans (ih ..)
    · rename_i t st h; rw [h] at h1; exact h1

theorem kept_packetWrites (h : Hdr) (op : Nat) (l : List (Nat × Nat)) (s : State) : Kept s (packetWrites h op l s) := by
  unfold packetWrites
  have h1 := kept_writeAll 0 l s
  split
  · exact .of_quiet (by simp)
  · split
    · exact .of_quiet (by simp)
    · rename_i t hh
      rw [hh] at h1
      split
      · exact h1
      · exact h1.then_quiet (by simp)

theorem kept_applyTimed (s : State) (x : Timed) : Kept s (applyTimed s x) := by
  unfold applyTimed
  dsimp only
  have h1 := kept_tryWrite { s with link := { s.link with timed := s.link.timed.erase x } } x.index x.value.toNat
  split
  · rename_i t hh; rw [hh] at h1; exact (Kept.trans (.of_quiet rfl) h1).then_quiet (quiet_timedPhase ..)
  · rename_i t st hh; rw [hh] at h1; exact (Kept.trans (.of_quiet rfl) h1).then_quiet (by simp)

theorem kept_timedWriteApplyEffect (s : State) : Kept s (timedWriteApplyEffect s) := by
  unfold timedWriteApplyEffect
  split
  · exact .refl s
  · split
    · exact .refl s
    · exact kept_applyTimed ..

theorem kept_command {s : State} {h : Hdr} {w : Row} {need : List Need} {body : State → State} (hb : ∀ u, Kept u (body u)) :
    Kept s (command s h w need body) :=
  command_ind (Kept s) (fun _ h => .of_quiet h) (fun u hu => Kept.trans (.of_quiet hu) (hb u))

theorem kept_paramWriteEffect (h : Hdr) (index : BitVec 16) (value : Word) (s : State) : Kept s (paramWriteEffect h index value s) := by
  unfold paramWriteEffect
  refine kept_command fun u => ?_
  split
  · exact .of_quiet (by simp)
  · exact kept_packetWrites ..

theorem kept_paramWriteMultiEffect (h : Hdr) (count : BitVec 16) (pairs : List (BitVec 16 × Word)) (s : State) :
    Kept s (paramWriteMultiEffect h count pairs s) := by
  unfold paramWriteMultiEffect
  refine kept_command fun u => ?_
  split
  · exact .of_quiet (by simp)
  · split
    · exact .of_quiet (by simp)
    · exact kept_packetWrites ..

theorem kept_windowWrite (s : State) (i v : Nat) : Kept s (windowWrite s i v) := by
  unfold windowWrite
  have h1 := kept_tryWrite s i v
  split
  · exact .refl s
  · split
    · exact .of_quiet (by simp)
    · split
      · rename_i t hh; rw [hh] at h1; exact h1.then_quiet (by simp)
      · rename_i t st hh; rw [hh] at h1; exact h1.then_quiet (by simp)

theorem kept_modCsp (s : State) (n : Fin 2) (f : Csp → Csp) : Kept s (modCsp s n f) := ⟨rfl, rfl, rfl, rfl, rfl, rfl, rfl, rfl⟩

theorem kept_slaveApply (s : State) (n : Fin 2) (a : Nat) (ws : List Nat) : Kept s (slaveApply s n a ws) := by
  unfold slaveApply
  dsimp only
  have h1 := kept_writeAll 0 (ws.zipIdx.map fun x => (a + x.2, x.1)) s
  split
  · exact .refl s
  · split
    · unfold slaveRefused; exact (kept_modCsp ..).then_quiet (quiet_setBits ..)
    · split
      · rename_i t hh; rw [hh] at h1; exact h1.then_quiet (by simp)
      · unfold slaveRefused; exact (kept_modCsp ..).then_quiet (quiet_setBits ..)

theorem kept_cspWriteApplyEffect (n : Fin 2) (s : State) : Kept s (cspWriteApplyEffect n s) := by
  unfold cspWriteApplyEffect
  split
  · exact .refl s
  · exact (kept_slaveApply ..).trans (kept_modCsp ..)

theorem kept_regWrite (p : Path) (i : Nat) (v : Word) (s : State) : Kept s (regWrite p i v s) := by
  unfold regWrite
  split
  · exact kept_paramWriteEffect ..
  · exact kept_windowWrite ..
  · exact kept_slaveApply ..
  · exact .refl s
  · exact .refl s

theorem kept_hostResetEffect (p : Option Path) (z : Straps) (s : State) : Kept s (hostResetEffect p z s) := by
  unfold hostResetEffect
  split
  · exact kept_regWrite ..
  · split
    · exact .refl s
    · exact kept_hostReset ..

theorem kept_bar0Write (s : State) (off : Nat) (v : Word) : Kept s (bar0Write s off v) := by
  unfold bar0Write
  split
  · exact .refl s
  · split
    · exact kept_windowWrite ..
    · exact .of_quiet (by (repeat' split) <;> simp)

theorem kept_registerWriteEffect (p : Path) (loc : RegLoc) (v : Word) (s : State) : Kept s (registerWriteEffect p loc v s) := by
  unfold registerWriteEffect
  split
  · exact kept_regWrite ..
  · split
    · exact kept_bar0Write ..
    · exact .refl s
  · split
    · unfold configWrite; (repeat' split) <;> exact ⟨rfl, rfl, rfl, rfl, rfl, rfl, rfl, rfl⟩
    · exact .refl s

theorem kept_applyOverdue (n : Nat) (s : State) : Kept s (applyOverdue n s) := by
  induction n generalizing s with
  | zero => exact .refl s
  | succ n ih =>
    unfold applyOverdue
    split
    · exact .refl s
    · split
      · exact (kept_applyTimed ..).trans (ih _)
      · exact .refl s

theorem kept_abortCommands (s : State) : Kept s (abortCommands s) := by
  obtain ⟨-, hticks, -, hflash, -, hroutes, hsensors, hsmons, hpmons, howl, -, -, -, hpending⟩ := quiet_abortCommands s
  exact ⟨hticks, hflash, hroutes, hsensors, hsmons, hpmons, howl, hpending⟩

theorem kept_recover (s : State) : Kept s (recover s) := by
  unfold recover
  dsimp only
  refine Kept.trans ?_ (kept_applyOverdue ..)
  refine Kept.trans ?_ (kept_abortCommands _)
  refine Kept.of_quiet ?_
  rw [quiet_endTickets, quiet_each _ _ _ (fun s id => quiet_rollbackQueue s id _), quiet_loseEvents, quiet_idleCols, quiet_peerResetB,
    quiet_each _ _ _ (fun s r => quiet_cancelLaunch s r)]
  rfl

theorem kept_quietPeriodEndEffect (s : State) : Kept s (quietPeriodEndEffect s) := by
  unfold quietPeriodEndEffect
  split
  · split
    · exact .refl s
    · split
      · exact ⟨rfl, rfl, rfl, rfl, rfl, rfl, rfl, rfl⟩
      · exact kept_recover s
  · exact .refl s

end Sys2Proof.Machine
end

