-- ==== Sys2Proof/Laws/Params.lean ====
section
/-! SUPPORT. The words of the parameter map: where each lies, and a read after a write (R4, R405). -/

namespace Sys2Proof.Machine

/-! ### Where the words lie -/

@[simp] theorem locate_pinW (p : PinId) (k : Nat) (h : k < 16) : locate (pinW p k) = (.pin, p.val, k) := by
  have hp := p.isLt
  have h1 : pinW p k < 0x1000 := by unfold pinW; omega
  unfold locate
  rw [if_pos h1]
  unfold pinW
  have h2 : (16 * p.val + k) / 16 = p.val := by omega
  have h3 : (16 * p.val + k) % 16 = k := by omega
  rw [h2, h3]

@[simp] theorem locate_rdgW (r : RidgeId) (k : Nat) (h : k < 64) : locate (rdgW r k) = (.ridge, r.val, k) := by
  have hr := r.isLt
  have h1 : ¬rdgW r k < 0x1000 := by unfold rdgW; omega
  have h2 : rdgW r k < 0x1400 := by unfold rdgW; omega
  unfold locate
  rw [if_neg h1, if_pos h2]
  unfold rdgW
  have h3 : (0x1000 + 64 * r.val + k - 0x1000) / 64 = r.val := by omega
  have h4 : (0x1000 + 64 * r.val + k - 0x1000) % 64 = k := by omega
  rw [h3, h4]

@[simp] theorem locate_dpsW (n : RidgeId) (k : Nat) (h : k < 32) : locate (dpsW n k) = (.dps, n.val, k) := by
  have hr := n.isLt
  have h1 : ¬dpsW n k < 0x1000 := by unfold dpsW; omega
  have h2 : ¬dpsW n k < 0x1400 := by unfold dpsW; omega
  have h3 : dpsW n k < 0x1600 := by unfold dpsW; omega
  unfold locate
  rw [if_neg h1, if_neg h2, if_pos h3]
  unfold dpsW
  have h4 : (0x1400 + 32 * n.val + k - 0x1400) / 32 = n.val := by omega
  have h5 : (0x1400 + 32 * n.val + k - 0x1400) % 32 = k := by omega
  rw [h4, h5]

@[simp] theorem locate_aptW (n : RidgeId) (k : Nat) (h : k < 32) : locate (aptW n k) = (.port, n.val, k) := by
  have hr := n.isLt
  have h1 : ¬aptW n k < 0x1000 := by unfold aptW; omega
  have h2 : ¬aptW n k < 0x1400 := by unfold aptW; omega
  have h3 : ¬aptW n k < 0x1600 := by unfold aptW; omega
  have h4 : aptW n k < 0x1800 := by unfold aptW; omega
  unfold locate
  rw [if_neg h1, if_neg h2, if_neg h3, if_pos h4]
  unfold aptW
  have h5 : (0x1600 + 32 * n.val + k - 0x1600) / 32 = n.val := by omega
  have h6 : (0x1600 + 32 * n.val + k - 0x1600) % 32 = k := by omega
  rw [h5, h6]

@[simp] theorem wordInfo_pinW (p : PinId) (k : Nat) (h : k < 16) : wordInfo (pinW p k) = pinWord k := by
  have hp := p.isLt
  have h1 : ¬0x1A00 ≤ pinW p k := by unfold pinW; omega
  unfold wordInfo
  rw [if_neg h1, locate_pinW p k h]

@[simp] theorem wordInfo_rdgW (r : RidgeId) (k : Nat) (h : k < 64) : wordInfo (rdgW r k) = ridgeWord k := by
  have hp := r.isLt
  have h1 : ¬0x1A00 ≤ rdgW r k := by unfold rdgW; omega
  unfold wordInfo
  rw [if_neg h1, locate_rdgW r k h]

@[simp] theorem wordInfo_dpsW (n : RidgeId) (k : Nat) (h : k < 32) : wordInfo (dpsW n k) = dpsWord k := by
  have hp := n.isLt
  have h1 : ¬0x1A00 ≤ dpsW n k := by unfold dpsW; omega
  unfold wordInfo
  rw [if_neg h1, locate_dpsW n k h]

@[simp] theorem wordInfo_aptW (n : RidgeId) (k : Nat) (h : k < 32) : wordInfo (aptW n k) = portWord k := by
  have hp := n.isLt
  have h1 : ¬0x1A00 ≤ aptW n k := by unfold aptW; omega
  unfold wordInfo
  rw [if_neg h1, locate_aptW n k h]

theorem ofNat_pin (p : PinId) : Fin.ofNat 256 p.val = p := by
  apply Fin.ext; exact Nat.mod_eq_of_lt p.isLt

theorem ofNat_ridge (r : RidgeId) : Fin.ofNat 16 r.val = r := by
  apply Fin.ext; exact Nat.mod_eq_of_lt r.isLt

theorem ofNat_pinRidge (p : PinId) : Fin.ofNat 16 (p.val / 16) = pinRidge p := by
  apply Fin.ext
  have := p.isLt
  show p.val / 16 % 16 = p.val / 16
  omega

/-! ### A read after a write -/

theorem word_putWord_same (s : State) (i v : Nat) (h : swf resetWord s.params = true) : word (putWord s i v) i = v % 2 ^ 32 := by
  simp [word, putWord, sget_sput_same _ _ _ _ h]

theorem word_putWord_other (s : State) (i j v : Nat) (h : j ≠ i) : word (putWord s i v) j = word s j := by
  simp [word, putWord, sget_sput_other _ _ _ _ _ h]

theorem word_of_params {s t : State} (h : t.params = s.params) (i : Nat) : word t i = word s i := by simp [word, h]

theorem field_of_word {s t : State} {i : Nat} (h : word t i = word s i) (hi lo : Nat) : field t i hi lo = field s i hi lo := by
  simp [field, h]

theorem isSet_of_word {s t : State} {i : Nat} (h : word t i = word s i) (b : Nat) : isSet t i b = isSet s i b := by
  simp [isSet, h]

end Sys2Proof.Machine
end

