-- ==== Sys2Proof/Laws/PerInstr.lean ====
section
/-! SUPPORT. What the terms of each command have in common, constructor by constructor: the marks of its row of Table 11-9, and the
parameter word it writes. -/

namespace Sys2Proof.Laws.Shape

open Sys2Proof.Machine

/-- The marks of a row of Table 11-9: the opcodes that a loader serves (R339), that the ROM baseline refuses (R338), that a launch
word may time (R282) and that MULTICAST may carry (R289). -/
def marksOk (w : Row) : Bool :=
  decide (1 ≤ w.units) && decide (w.op < 0x80) && (w.loader == decide (w.op ∈ [0x01, 0x60, 0x7F])) &&
    (w.baseline == !decide (w.op ∈ [0x52, 0x59])) && (w.timed == decide (w.op ∈ [0x02, 0x04, 0x20, 0x21, 0x28, 0x29, 0x2B])) &&
    (w.mc == decide (w.op ∈ [0x02, 0x04, 0x19, 0x20, 0x21, 0x38, 0x40]))

/-- A command packet has the marks of its row; a command that writes one parameter word carries a path for writes and an index of the
map, and is well formed only so. -/
def Statement (i : Instr) : Prop :=
  (∀ h w, packetRow i = some (h, w) → marksOk w = true) ∧
  (∀ p n v, regRow i = some (p, n, v) → n < 8192 ∧ (i.wellFormed = true → p.writes = true))

/-- An ECHO has at least the two units of its header and address. -/
theorem echoUnits_pos (h : Hdr) : 1 ≤ echoUnits h := by
  unfold echoUnits
  dsimp only
  split <;> split <;> omega

/-- A command that is no packet and writes no parameter word. -/
theorem of_none {i : Instr} (h1 : packetRow i = none) (h2 : regRow i = none) : Statement i := by
  constructor
  · intro h w e; rw [h1] at e; cases e
  · intro p n v e; rw [h2] at e; cases e

/-- A command packet that is no register row. -/
theorem of_packet {i : Instr} {h : Hdr} {w : Row} (h1 : packetRow i = some (h, w)) (h2 : regRow i = none) (h3 : marksOk w = true) :
    Statement i := by
  constructor
  · intro h' w' e; rw [h1] at e; cases e; exact h3
  · intro p n v e; rw [h2] at e; cases e

/-- A register row that is no command packet. -/
theorem of_word {i : Instr} {p : Path} {n : Nat} {v : Word} (h1 : packetRow i = none) (h2 : regRow i = some (p, n, v))
    (h3 : n < 8192) (h4 : i.wellFormed = true → p.writes = true) : Statement i := by
  constructor
  · intro h w e; rw [h1] at e; cases e
  · intro p' n' v' e; rw [h2] at e; cases e; exact ⟨h3, h4⟩

theorem identify (h : Hdr) (addr : BitVec 64) : Statement (.identify h addr) := of_packet rfl rfl rfl
theorem paramWrite (h : Hdr) (index : BitVec 16) (value : Word) : Statement (.paramWrite h index value) := by
  constructor
  · intro h' w e; cases e; rfl
  · intro p n v e; cases e; exact ⟨by omega, fun _ => rfl⟩
theorem paramRead (p : Path) (first : BitVec 16) (count : BitVec 16) (addr : BitVec 64) :
    Statement (.paramRead p first count addr) := by
  cases p with
  | packet h => exact of_packet rfl rfl rfl
  | window => exact of_none rfl rfl
  | slave n => exact of_none rfl rfl
  | bar0 o => exact of_none rfl rfl
  | config o => exact of_none rfl rfl
theorem paramWriteMulti (h : Hdr) (count : BitVec 16) (pairs : List (BitVec 16 × Word)) :
    Statement (.paramWriteMulti h count pairs) := of_packet rfl rfl (by simp [marksOk]; try omega)
theorem saveState (h : Hdr) : Statement (.saveState h) := of_packet rfl rfl rfl
theorem saveStateDone (readBackOk : Bool) : Statement (.saveStateDone readBackOk) := of_none rfl rfl
theorem restoreState (h : Hdr) (source : Byte) (crcOk : Bool) : Statement (.restoreState h source crcOk) := of_packet rfl rfl rfl
theorem segLoad (h : Hdr) (handle : Word) (addr : BitVec 64) : Statement (.segLoad h handle addr) := of_packet rfl rfl rfl
theorem segLoadDone (handle : Handle) (img : SegImage) : Statement (.segLoadDone handle img) := of_none rfl rfl
theorem segRelease (h : Hdr) (handle : Word) : Statement (.segRelease h handle) := of_packet rfl rfl rfl
theorem segPin (h : Hdr) (handle : Word) : Statement (.segPin h handle) := of_packet rfl rfl rfl
theorem segUnpin (h : Hdr) (handle : Word) : Statement (.segUnpin h handle) := of_packet rfl rfl rfl
theorem progBind (h : Hdr) (handle : Word) (unbind : Bool) (maxBody d : Byte) (targets : List Word) :
    Statement (.progBind h handle unbind maxBody d targets) := of_packet rfl rfl (by simp [marksOk]; try omega)
theorem timingWrite (h : Hdr) (bank first count : Byte) (records : List SetRecord) :
    Statement (.timingWrite h bank first count records) := of_packet rfl rfl (by simp [marksOk]; try omega)
theorem timingSwap (h : Hdr) : Statement (.timingSwap h) := of_packet rfl rfl rfl
theorem timingSwapApply (r : RidgeId) : Statement (.timingSwapApply r) := of_none rfl rfl
theorem timingCopyDone (r : RidgeId) : Statement (.timingCopyDone r) := of_none rfl rfl
theorem launch (h : Hdr) (resume bySite : Bool) (site : Byte) (mask : BitVec 16) :
    Statement (.launch h resume bySite site mask) := of_packet rfl rfl rfl
theorem launchTick (r : RidgeId) : Statement (.launchTick r) := of_none rfl rfl
theorem halt (h : Hdr) (park bySite : Bool) (site : Byte) (mask : BitVec 16) :
    Statement (.halt h park bySite site mask) := of_packet rfl rfl rfl
theorem haltAtBoundary (r : RidgeId) : Statement (.haltAtBoundary r) := of_none rfl rfl
theorem eventJumpArm (h : Hdr) (source : Byte) (disarm : Bool) (target : Word) :
    Statement (.eventJumpArm h source disarm target) := of_packet rfl rfl rfl
theorem eventJumpLatch (r : RidgeId) : Statement (.eventJumpLatch r) := of_none rfl rfl
theorem eventJump (r : RidgeId) : Statement (.eventJump r) := of_none rfl rfl
theorem measure (h : Hdr) (selector nMinus1 : BitVec 16) (conv : BitVec 6) (pinned : Bool) (queue : BitVec 16) :
    Statement (.measure h selector nMinus1 conv pinned queue) := of_packet rfl rfl rfl
theorem measureStart (ticket : BitVec 17) : Statement (.measureStart ticket) := of_none rfl rfl
theorem measureEnd (ticket : BitVec 17) (samples : List Int) (atLimit : Bool) :
    Statement (.measureEnd ticket samples atLimit) := of_none rfl rfl
theorem timeMeasure (h : Hdr) (pinA edges pinB timu : Byte) (count queue : BitVec 16) (limit : BitVec 64) :
    Statement (.timeMeasure h pinA edges pinB timu count queue limit) := of_packet rfl rfl rfl
theorem timuJobStart (ticket : BitVec 17) : Statement (.timuJobStart ticket) := of_none rfl rfl
theorem timuJobEnd (ticket : BitVec 17) : Statement (.timuJobEnd ticket) := of_none rfl rfl
theorem captureArm (h : Hdr) (bySite siteLanes : Bool) (site : Byte) (laneMask frames queue : BitVec 16) (buf : BitVec 64) (nb : Word) :
    Statement (.captureArm h bySite siteLanes site laneMask frames queue buf nb) := of_packet rfl rfl rfl
theorem acqArm (h : Hdr) (dig awg stream : Bool) (k : BitVec 16) (pre post : Word) (frames queue : BitVec 16) (buf : BitVec 64) (nb : Word) :
    Statement (.acqArm h dig awg stream k pre post frames queue buf nb) := of_packet rfl rfl rfl
theorem queueConfig (h : Hdr) (queue : BitVec 16) (enable ringSize : Byte) (reservation : Word) (ringBase wbAddr : BitVec 64) (cring : Byte) (drainThr : BitVec 16) (stale : Word) :
    Statement (.queueConfig h queue enable ringSize reservation ringBase wbAddr cring drainThr stale) := of_packet rfl rfl rfl
theorem queueFlush (h : Hdr) (queue : BitVec 16) (mode : Byte) : Statement (.queueFlush h queue mode) := of_packet rfl rfl rfl
theorem queueFlushBoundary (queue : BitVec 14) : Statement (.queueFlushBoundary queue) := of_none rfl rfl
theorem eventRoute (h : Hdr) (source action : Byte) (enable : Bool) :
    Statement (.eventRoute h source action enable) := of_packet rfl rfl rfl
theorem siteMap (h : Hdr) (site : Byte) (clear : Bool) (mask : BitVec 256) :
    Statement (.siteMap h site clear mask) := of_packet rfl rfl rfl
theorem calRun (h : Hdr) (scope : Byte) : Statement (.calRun h scope) := of_packet rfl rfl rfl
theorem calRunDone (results : List CalResult) : Statement (.calRunDone results) := of_none rfl rfl
theorem faultRead (h : Hdr) (addr : BitVec 64) : Statement (.faultRead h addr) := of_packet rfl rfl rfl
theorem faultClear (h : Hdr) (mask : BitVec 64) : Statement (.faultClear h mask) := of_packet rfl rfl rfl
theorem faultInject (h : Hdr) (bit count : Byte) : Statement (.faultInject h bit count) := of_packet rfl rfl rfl
theorem ringEnum (h : Hdr) (addr : BitVec 64) : Statement (.ringEnum h addr) := of_packet rfl rfl rfl
theorem syncCal (h : Hdr) (options : Byte) : Statement (.syncCal h options) := of_packet rfl rfl rfl
theorem syncCalDone (members : List SyncInfo) (dly : List Word) : Statement (.syncCalDone members dly) := of_none rfl rfl
theorem fwUpdate (h : Hdr) (target : Byte) (len : Word) (addr : BitVec 64) (img : FwImage) :
    Statement (.fwUpdate h target len addr img) := of_packet rfl rfl rfl
theorem fwUpdateDone : Statement .fwUpdateDone := of_none rfl rfl
theorem echo (h : Hdr) (addr : BitVec 64) (data : List Byte) : Statement (.echo h addr data) :=
  of_packet rfl rfl (by simp [marksOk, echoUnits_pos])
theorem nop (r : RidgeId) (parityError : Bool) : Statement (.nop r parityError) := of_none rfl rfl
theorem repeatVector (r : RidgeId) : Statement (.repeatVector r) := of_none rfl rfl
theorem loopBegin (r : RidgeId) : Statement (.loopBegin r) := of_none rfl rfl
theorem loopEnd (r : RidgeId) : Statement (.loopEnd r) := of_none rfl rfl
theorem loopExit (r : RidgeId) : Statement (.loopExit r) := of_none rfl rfl
theorem jump (r : RidgeId) : Statement (.jump r) := of_none rfl rfl
theorem call (r : RidgeId) : Statement (.call r) := of_none rfl rfl
theorem ret (r : RidgeId) : Statement (.ret r) := of_none rfl rfl
theorem jumpFail (r : RidgeId) : Statement (.jumpFail r) := of_none rfl rfl
theorem jumpPass (r : RidgeId) : Statement (.jumpPass r) := of_none rfl rfl
theorem jumpTimeout (r : RidgeId) : Statement (.jumpTimeout r) := of_none rfl rfl
theorem clrFail (r : RidgeId) : Statement (.clrFail r) := of_none rfl rfl
theorem matchVector (r : RidgeId) : Statement (.matchVector r) := of_none rfl rfl
theorem matchEnd (r : RidgeId) : Statement (.matchEnd r) := of_none rfl rfl
theorem apgLoad (r : RidgeId) : Statement (.apgLoad r) := of_none rfl rfl
theorem apgOp (r : RidgeId) : Statement (.apgOp r) := of_none rfl rfl
theorem signal (r : RidgeId) : Statement (.signal r) := of_none rfl rfl
theorem checkpoint (r : RidgeId) : Statement (.checkpoint r) := of_none rfl rfl
theorem haltOpcode (r : RidgeId) : Statement (.haltOpcode r) := of_none rfl rfl
theorem illegalOpcode (r : RidgeId) : Statement (.illegalOpcode r) := of_none rfl rfl
theorem stagingFetchDone (r : RidgeId) (handle : Handle) (read : Secded) :
    Statement (.stagingFetchDone r handle read) := of_none rfl rfl
theorem holdResume (r : RidgeId) : Statement (.holdResume r) := of_none rfl rfl
theorem holdTimeout (r : RidgeId) : Statement (.holdTimeout r) := of_none rfl rfl
theorem owlFactorApply (r : RidgeId) : Statement (.owlFactorApply r) := of_none rfl rfl
theorem refclkLoss : Statement .refclkLoss := of_none rfl rfl
theorem refclkPresent : Statement .refclkPresent := of_none rfl rfl
theorem clockRevert : Statement .clockRevert := of_none rfl rfl
theorem tcompUpdate : Statement .tcompUpdate := of_none rfl rfl
theorem ageUpdate (residual : Int) : Statement (.ageUpdate residual) := of_none rfl rfl
theorem pinCfg (path : Path) (p : PinId) (value : Word) :
    Statement (.pinCfg path p value) := of_word rfl rfl (by simp only [pinW]; omega) id
theorem pinModeDone (p : PinId) (voltage : Int) : Statement (.pinModeDone p voltage) := of_none rfl rfl
theorem pinPmuCfg (path : Path) (p : PinId) (value : Word) :
    Statement (.pinPmuCfg path p value) := of_word rfl rfl (by simp only [pinW]; omega) id
theorem driverOvercurrent (p : PinId) : Statement (.driverOvercurrent p) := of_none rfl rfl
theorem pmuCompliance (p : PinId) : Statement (.pmuCompliance p) := of_none rfl rfl
theorem pmuComplianceEnd (p : PinId) : Statement (.pmuComplianceEnd p) := of_none rfl rfl
theorem comparatorTransition (p : PinId) (voltage : Int) (stamp : T64) :
    Statement (.comparatorTransition p voltage stamp) := of_none rfl rfl
theorem dpsCfg (path : Path) (n : RidgeId) (value : Word) :
    Statement (.dpsCfg path n value) := of_word rfl rfl (by simp only [dpsW]; omega) id
theorem dpsLevel (path : Path) (n : RidgeId) (value : Word) :
    Statement (.dpsLevel path n value) := of_word rfl rfl (by simp only [dpsW]; omega) id
theorem dpsSlewUpdate (n : RidgeId) : Statement (.dpsSlewUpdate n) := of_none rfl rfl
theorem dpsCurrentLimit (n : RidgeId) : Statement (.dpsCurrentLimit n) := of_none rfl rfl
theorem dpsCompliance (n : RidgeId) : Statement (.dpsCompliance n) := of_none rfl rfl
theorem dpsLimitClear (n : RidgeId) : Statement (.dpsLimitClear n) := of_none rfl rfl
theorem dpsOpenLoad (n : RidgeId) : Statement (.dpsOpenLoad n) := of_none rfl rfl
theorem dpsSenseOpen (n : RidgeId) : Statement (.dpsSenseOpen n) := of_none rfl rfl
theorem dpsSenseRestore (n : RidgeId) : Statement (.dpsSenseRestore n) := of_none rfl rfl
theorem boosterFault (n : RidgeId) : Statement (.boosterFault n) := of_none rfl rfl
theorem dpsNcoUpdate (n : RidgeId) : Statement (.dpsNcoUpdate n) := of_none rfl rfl
theorem dpsNcoFreq (path : Path) (n : RidgeId) (value : Word) :
    Statement (.dpsNcoFreq path n value) := of_word rfl rfl (by simp only [dpsW]; omega) id
theorem dpsNcoPhase (path : Path) (n : RidgeId) (value : Word) :
    Statement (.dpsNcoPhase path n value) := of_word rfl rfl (by simp only [dpsW]; omega) id
theorem dpsPowerWindow (power : List (BitVec 16)) (current : List (BitVec 16)) :
    Statement (.dpsPowerWindow power current) := of_none rfl rfl
theorem dpsCapRelease (n : RidgeId) : Statement (.dpsCapRelease n) := of_none rfl rfl
theorem dpsStatus (path : Path) (n : RidgeId) (value : Word) :
    Statement (.dpsStatus path n value) := of_word rfl rfl (by simp only [dpsW]; omega) id
theorem awgStart (n : RidgeId) : Statement (.awgStart n) := of_none rfl rfl
theorem awgSegmentEnd (e : AwgEnd) : Statement (.awgSegmentEnd e) := of_none rfl rfl
theorem stopAwg (path : Path) (n : RidgeId) : Statement (.stopAwg path n) := of_word rfl rfl (by simp only [aptW]; omega) id
theorem stopAcq (path : Path) (n : RidgeId) : Statement (.stopAcq path n) := of_word rfl rfl (by simp only [aptW]; omega) id
theorem aptNcoFreq (path : Path) (n : RidgeId) (value : Word) :
    Statement (.aptNcoFreq path n value) := of_word rfl rfl (by simp only [aptW]; omega) id
theorem aptNcoPhase (path : Path) (n : RidgeId) (value : Word) :
    Statement (.aptNcoPhase path n value) := of_word rfl rfl (by simp only [aptW]; omega) id
theorem acqStart (n : RidgeId) : Statement (.acqStart n) := of_none rfl rfl
theorem analogTrigger (n : RidgeId) (s0 s1 : BitVec 16) (place : TrigPlace) :
    Statement (.analogTrigger n s0 s1 place) := of_none rfl rfl
theorem triggerHoldoffEnd (n : RidgeId) : Statement (.triggerHoldoffEnd n) := of_none rfl rfl
theorem recordComplete (n : RidgeId) (samples : List (BitVec 16)) : Statement (.recordComplete n samples) := of_none rfl rfl
theorem acqPostEnd (n : RidgeId) (samples : List (BitVec 16)) : Statement (.acqPostEnd n samples) := of_none rfl rfl
theorem analogBlockComplete (n : RidgeId) (samples : List (BitVec 16)) :
    Statement (.analogBlockComplete n samples) := of_none rfl rfl
theorem analogBlockCopy (n : RidgeId) (read : Secded) : Statement (.analogBlockCopy n read) := of_none rfl rfl
theorem aptHostRd (path : Path) (n : RidgeId) (value : Word) :
    Statement (.aptHostRd path n value) := of_word rfl rfl (by simp only [aptW]; omega) id
theorem captureWindowEnd (r : RidgeId) : Statement (.captureWindowEnd r) := of_none rfl rfl
theorem captureBlockTimeout (r : RidgeId) : Statement (.captureBlockTimeout r) := of_none rfl rfl
theorem captureBlockCopy (r : RidgeId) (read : Secded) : Statement (.captureBlockCopy r read) := of_none rfl rfl
theorem rdgCapHostRd (path : Path) (r : RidgeId) (value : Word) :
    Statement (.rdgCapHostRd path r value) := of_word rfl rfl (by simp only [rdgW]; omega) id
theorem anchor (r : RidgeId) : Statement (.anchor r) := of_none rfl rfl
theorem packetAdmission (queue : BitVec 14) : Statement (.packetAdmission queue) := of_none rfl rfl
theorem staleTimer (queue : BitVec 14) : Statement (.staleTimer queue) := of_none rfl rfl
theorem drainStart (queue : BitVec 14) (uncorrectable : List (BitVec 12)) :
    Statement (.drainStart queue uncorrectable) := of_none rfl rfl
theorem drainDone (queue : BitVec 14) : Statement (.drainDone queue) := of_none rfl rfl
theorem queueHeadWrite (queue : BitVec 14) (value : Word) : Statement (.queueHeadWrite queue value) := of_none rfl rfl
theorem doorbell (ring : Fin 64) (value : Word) : Statement (.doorbell ring value) := of_none rfl rfl
theorem packetFetch (ring : Fin 64) (pkt : Packet) (completionError : Bool) :
    Statement (.packetFetch ring pkt completionError) := of_none rfl rfl
theorem sqEnable (ring : Fin 64) (value : Word) : Statement (.sqEnable ring value) := of_none rfl rfl
theorem sqResume (ring : Fin 64) (value : Word) : Statement (.sqResume ring value) := of_none rfl rfl
theorem cqEnable (ring : Fin 64) (value : Word) : Statement (.cqEnable ring value) := of_none rfl rfl
theorem cqHeadWrite (ring : Fin 64) (value : Word) : Statement (.cqHeadWrite ring value) := of_none rfl rfl
theorem pendingNoticeWrite (ring : Fin 64) : Statement (.pendingNoticeWrite ring) := of_none rfl rfl
theorem cqIrqTimer (ring : Fin 64) : Statement (.cqIrqTimer ring) := of_none rfl rfl
theorem dmaWriteError (target : DmaTarget) (again : Bool) : Statement (.dmaWriteError target again) := of_none rfl rfl
theorem timedWriteApply : Statement .timedWriteApply := of_none rfl rfl
theorem registerWrite (path : Path) (loc : RegLoc) (value : Word) : Statement (.registerWrite path loc value) := by
  cases loc with
  | param index => exact of_word rfl rfl index.isLt id
  | bar0 o => exact of_none rfl rfl
  | config o => exact of_none rfl rfl
theorem replay (path : Path) (value : Word) : Statement (.replay path value) := of_word rfl rfl (by decide) id
theorem reclaim (path : Path) (value : Word) : Statement (.reclaim path value) := of_word rfl rfl (by decide) id
theorem linkFrameResend (portB : Bool) : Statement (.linkFrameResend portB) := of_none rfl rfl
theorem linkDown (l : LinkTime) : Statement (.linkDown l) := of_none rfl rfl
theorem linkRestored (l : LinkTime) : Statement (.linkRestored l) := of_none rfl rfl
theorem ringPacketArrival (reverse : Bool) (seq : Nat) (load : RingLoad) :
    Statement (.ringPacketArrival reverse seq load) := of_none rfl rfl
theorem ringReplyArrival (via : Via) (to_ : ReplyTo) (sender : BitVec 7) (reply : Reply) :
    Statement (.ringReplyArrival via to_ sender reply) := of_none rfl rfl
theorem enumStart : Statement .enumStart := of_none rfl rfl
theorem enumRetry : Statement .enumRetry := of_none rfl rfl
theorem enumToken (via : Via) (count : BitVec 8) (own closed : Bool) (entries : List Member) :
    Statement (.enumToken via count own closed entries) := of_none rfl rfl
theorem cairnFrameSend : Statement .cairnFrameSend := of_none rfl rfl
theorem cairnFrameReceive (f : CairnFrame) (reserved : BitVec 2) (stamp : T64) :
    Statement (.cairnFrameReceive f reserved stamp) := of_none rfl rfl
theorem cairnLoad (replicaDisagrees : Option RidgeId) : Statement (.cairnLoad replicaDisagrees) := of_none rfl rfl
theorem cairnRelaunch : Statement .cairnRelaunch := of_none rfl rfl
theorem cairnMissed : Statement .cairnMissed := of_none rfl rfl
theorem discoveryPulse (parent : Byte) (output : Byte) : Statement (.discoveryPulse parent output) := of_none rfl rfl
theorem echoPulse (stamp : T64) : Statement (.echoPulse stamp) := of_none rfl rfl
theorem echoTurnaround : Statement .echoTurnaround := of_none rfl rfl
theorem echoReturn (output : Bool) (driven returned : T64) : Statement (.echoReturn output driven returned) := of_none rfl rfl
theorem bgTrackEcho (e : HopEcho) : Statement (.bgTrackEcho e) := of_none rfl rfl
theorem ringEventReceive (via : Via) (e : RingEvent) : Statement (.ringEventReceive via e) := of_none rfl rfl
theorem cspWrite (n : Fin 2) (f : CspFrame) : Statement (.cspWrite n f) := of_none rfl rfl
theorem cspWriteApply (n : Fin 2) : Statement (.cspWriteApply n) := of_none rfl rfl
theorem cspRead (n : Fin 2) (f : CspFrame) : Statement (.cspRead n f) := of_none rfl rfl
theorem cspStatus (n : Fin 2) (f : CspFrame) : Statement (.cspStatus n f) := of_none rfl rfl
theorem xipMiss (addr : BitVec 32) : Statement (.xipMiss addr) := of_none rfl rfl
theorem xipLineFill (addr : BitVec 32) : Statement (.xipLineFill addr) := of_none rfl rfl
theorem porRelease (straps : Straps) (fuses : Fuses) : Statement (.porRelease straps fuses) := of_none rfl rfl
theorem foxRelease : Statement .foxRelease := of_none rfl rfl
theorem sfdpRead (valid xspiProfile sizeOk : Bool) (continuous : Bool) :
    Statement (.sfdpRead valid xspiProfile sizeOk continuous) := of_none rfl rfl
theorem firmwareVerify (img : Option FwImage) : Statement (.firmwareVerify img) := of_none rfl rfl
theorem patchLoad (img : Option FwImage) : Statement (.patchLoad img) := of_none rfl rfl
theorem pcieLinkUp : Statement .pcieLinkUp := of_none rfl rfl
theorem powerupCalDone : Statement .powerupCalDone := of_none rfl rfl
theorem hbmTrainingDone (slotsOk : List Bool) : Statement (.hbmTrainingDone slotsOk) := of_none rfl rfl
theorem rsiApply (newerReadsOk otherReadsOk : Bool) : Statement (.rsiApply newerReadsOk otherReadsOk) := of_none rfl rfl
theorem foxWatchdog : Statement .foxWatchdog := of_none rfl rfl
theorem tempConversion (sensor : Fin 24) (value : Int) : Statement (.tempConversion sensor value) := of_none rfl rfl
theorem sensorRecover (sensor : Fin 24) : Statement (.sensorRecover sensor) := of_none rfl rfl
theorem owlGraceExpiry : Statement .owlGraceExpiry := of_none rfl rfl
theorem owlRelease : Statement .owlRelease := of_none rfl rfl
theorem thermalShutdown (sensor : Fin 24) : Statement (.thermalShutdown sensor) := of_none rfl rfl
theorem supplyResetFault (m : Fin 12) : Statement (.supplyResetFault m) := of_none rfl rfl
theorem supplyDip (m : Fin 12) : Statement (.supplyDip m) := of_none rfl rfl
theorem suspectWindowEnd (m : Fin 12) : Statement (.suspectWindowEnd m) := of_none rfl rfl
theorem monitorRelease (m : MonitorId) : Statement (.monitorRelease m) := of_none rfl rfl
theorem monitorTimeout (m : Fin 12) : Statement (.monitorTimeout m) := of_none rfl rfl
theorem pmonGate (counts : List (BitVec 20)) : Statement (.pmonGate counts) := of_none rfl rfl
theorem eventDelivery (col : Option (Fin 47)) : Statement (.eventDelivery col) := of_none rfl rfl
theorem glbEvtFire (path : Path) (value : Word) : Statement (.glbEvtFire path value) := of_word rfl rfl (by decide) id
theorem bgCal (conv : Fin 64) (gain offset : Int) : Statement (.bgCal conv gain offset) := of_none rfl rfl
theorem parkWaitExpiry : Statement .parkWaitExpiry := of_none rfl rfl
theorem quietPeriodEnd : Statement .quietPeriodEnd := of_none rfl rfl
theorem recoveryComplete : Statement .recoveryComplete := of_none rfl rfl
theorem hostReset (path : Option Path) (straps : Straps) : Statement (.hostReset path straps) := by
  cases path with
  | some p => exact of_word rfl rfl (by decide) id
  | none => exact of_none rfl rfl
theorem reset (path : Path) (r : RidgeId) : Statement (.reset path r) := of_word rfl rfl (by simp only [rdgW]; omega) id
theorem ridgeResetRelease (r : RidgeId) : Statement (.ridgeResetRelease r) := of_none rfl rfl
theorem hbmTrainingLoss : Statement .hbmTrainingLoss := of_none rfl rfl
theorem multiplierLockLoss : Statement .multiplierLockLoss := of_none rfl rfl
theorem fatalSourceDeasserts (bit : Fin 64) : Statement (.fatalSourceDeasserts bit) := of_none rfl rfl
theorem porNAssert : Statement .porNAssert := of_none rfl rfl
theorem badCmdFrame (n : Fin 2) (f : CspFrame) : Statement (.badCmdFrame n f) := of_none rfl rfl

end Sys2Proof.Laws.Shape
end

