-- ==== Sys2Proof/Laws/Vectors.lean ====
section
/-! SUPPORT. A vector that the sequencer executes: its readiness once, for every opcode. -/

namespace Sys2Proof.Machine

/-- A vector with one of the row's opcodes runs its body on the state that it sees. -/
theorem withVector_executes {s : State} {r : RidgeId} {v : Vec} {op : Nat → Bool} {body : Vec → State → State}
    (h : Executes s r v) (ho : op v.opcode = true) : withVector s r false op body = parkCheck (body v (seen s r)) := by
  unfold withVector
  simp only [h.1, Bool.not_true, Bool.false_eq_true, if_false, h.2.1]
  rw [ho]
  simp only [accessInject, h.2.2, Bool.not_true, Bool.false_eq_true, if_false, seen]

end Sys2Proof.Machine
end

