-- ==== Sys2Proof/Tests/Slice0.lean ====
section
/-! SUPPORT. The author's own tests: ill-formed terms, states that meet the hypotheses of each statement, clause by clause, and the
spec's own numbers. -/

namespace Sys2Proof.Tests

open Sys2Proof Sys2Proof.Machine

set_option Elab.async false

/-! ### States and headers -/

/-- A header of a packet of ring 0, with a LENGTH and a ridge column. -/
def hdr (len : Nat) (r : BitVec 4) : Hdr :=
  { ring := 0, seq := 0, tag := 0, length := BitVec.ofNat 16 len, ridge := r, launchAt := none, suppress := false,
    multicast := false, asap := false, remote := none }

/-- The same with a launch word. -/
def hdrAt (len : Nat) (t : T64) : Hdr := { hdr len 0xF#4 with launchAt := some t }

/-- A device at a stage, with POR_N high and Fox running its firmware. -/
def stage (n : BitVec 3) : State :=
  { State.reset with boot := { State.reset.boot with stage := n, por := false, foxUp := true, romLoader := false }
                     smons := State.reset.smons.map fun m => { m with released := true } }

/-- A booted device. -/
def up : State := stage 6

/-- A booted device with a long command in progress. -/
def busy (j : LongJob) : State := { up with link := { up.link with longs := [⟨hdr 2 0xF#4, 0, j⟩] } }

/-- A device with an injection. -/
def injected (b : Fin 64) (d : Bool) (s : State) : State := { s with bear := { s.bear with inject := [⟨b, 1, d⟩] } }

/-- A device in a state of Bear. -/
def bear (b : BearState) (s : State) : State := { s with bear := { s.bear with state := b } }

/-- A ridge in a state. -/
def ridge (r : RidgeId) (st : SeqState) (s : State) : State := modR s r fun x => { x with st := st }

/-! ### Terms that are no commands -/

theorem test_illformed_paths :
    (Instr.paramRead .window 0 2 0).wellFormed = false ∧ (Instr.paramRead (.bar0 0) 0 0 0).wellFormed = false ∧
    (Instr.paramRead (.slave 0) 0 17 0).wellFormed = false ∧ (Instr.pinCfg (.bar0 0) 0 0).wellFormed = false ∧
    (Instr.dpsCfg (.bar0 0) 0 0).wellFormed = false ∧ (Instr.reset (.bar0 0) 0).wellFormed = false ∧
    (Instr.registerWrite (.slave 0) (.bar0 0) 0).wellFormed = false ∧
    (Instr.registerWrite (.bar0 0) (.param 0) 0).wellFormed = false ∧
    (Instr.hostReset (some (.bar0 0)) up.boot.straps).wellFormed = false := by decide +kernel

theorem test_illformed_counts :
    (Instr.paramWriteMulti (hdr 3 0xF#4) 2 [(0, 0)]).wellFormed = false ∧
    (Instr.progBind (hdr 2 0) 0 false 0 1 []).wellFormed = false ∧
    (Instr.timingWrite (hdr 35 0) 0 0 1 []).wellFormed = false ∧
    (Instr.timingWrite (hdr 35 0) 0 0 1 [⟨0, 0, 0, []⟩]).wellFormed = false ∧
    (Instr.measureEnd 0 [] false).wellFormed = false ∧ (Instr.echo (hdr 2 0xF#4) 0 (List.replicate 33 0)).wellFormed = false ∧
    (Instr.syncCalDone (List.replicate 129 ⟨none, false, 0, 0⟩) []).wellFormed = false ∧
    (Instr.syncCalDone [] (List.replicate 129 0)).wellFormed = false ∧ (Instr.bgTrackEcho ⟨List.replicate 129 0, []⟩).wellFormed = false ∧
    (Instr.dpsPowerWindow [] []).wellFormed = false ∧ (Instr.hbmTrainingDone []).wellFormed = false ∧
    (Instr.pmonGate []).wellFormed = false := by decide +kernel

theorem test_illformed_shapes :
    (Instr.segLoadDone 0 ⟨0, 0, 0, 0, 0, 0, [], [], 0, []⟩).wellFormed = false ∧
    (Instr.packetFetch 0 ⟨0, 0, 1, 0, 0, 0, 0, [0]⟩ false).wellFormed = false ∧
    (Instr.ringPacketArrival false 0 (.packet 1 0 0 ⟨0, 0, 1, 0, 0, 0, 0, [0]⟩)).wellFormed = false ∧
    (Instr.enumToken ⟨false, 0⟩ 0 false false []).wellFormed = false ∧ (Instr.discoveryPulse 0 2).wellFormed = false ∧
    (Instr.cspWrite 0 ⟨0, 0, 1, [0], 0, 18, 0⟩).wellFormed = false ∧ (Instr.cspRead 0 ⟨0, 0, 0, [0], 0, 22, 0⟩).wellFormed = false ∧
    (Instr.cspStatus 0 ⟨0, 0, 0, [0], 0, 18, 0⟩).wellFormed = false ∧
    (Instr.porRelease up.boot.straps { up.boot.fuses with xoTcomp := [] }).wellFormed = false := by decide +kernel

/-! ### States that meet the hypotheses of the statements -/
theorem witness_StepRunsFrontCommand :
    ({ up with pending := [.pcieLinkUp] } : State).pending = .pcieLinkUp :: [] ∧ Instr.pcieLinkUp.wellFormed = true ∧
    ({ up with pending := [.pmonGate []] } : State).pending = .pmonGate [] :: [] ∧ (Instr.pmonGate []).wellFormed = false := by
  decide +kernel

theorem witness_StepOnEmptyQueue :
    (up.pending = [] ∧ ({ up with link := { up.link with inbox := [.saveState (hdr 1 0xF#4)] } } : State).link.inbox =
      .saveState (hdr 1 0xF#4) :: []) ∧
    (up.pending = [] ∧ up.link.inbox = [] ∧ up.boot.por = false) ∧
    (State.reset.pending = [] ∧ State.reset.link.inbox = [] ∧ State.reset.boot.por = true) := by decide +kernel

theorem witness_InvariantKept : Inv up ∧ ∃ t, step up = .next t := by
  refine ⟨⟨⟨?_, ?_⟩, ?_, ?_⟩, _, rfl⟩
  · unfold PinsSafe; decide +kernel
  · unfold SuppliesOff; decide +kernel
  · unfold Canonical; decide +kernel
  · unfold SitesDisjoint; decide +kernel

theorem witness_Footprints : Comp.flash ∉ footprint .pcieLinkUp ∧ ∃ t, exec .pcieLinkUp up = .next t :=
  ⟨by decide, _, rfl⟩

theorem witness_PacketsNotTaken :
    packetRow (.saveState (hdr 1 0xF#4)) = some (hdr 1 0xF#4, ⟨0x08, 1, .none, false, false, true, false⟩) ∧
    canTake (stage 5) (hdr 1 0xF#4) = false := by decide +kernel

theorem witness_AdmissionRefusals :
    (packetRow (.saveState (hdr 2 0xF#4)) = some (hdr 2 0xF#4, ⟨0x08, 1, .none, false, false, true, false⟩) ∧ up.boot.por = false ∧
      canTake up (hdr 2 0xF#4) = true ∧ injectOn up 28 = none ∧
      admission up (hdr 2 0xF#4) ⟨0x08, 1, .none, false, false, true, false⟩ = some (BAD_LENGTH, 1)) ∧
    ({ hdr 1 0xF#4 with multicast := true } : Hdr).multicast = true ∧
    ((hdr 1 0xF#4).multicast = false ∧ (stage 7).boot.stage = 7) ∧
    ((hdr 2 0xF#4).multicast = false ∧ up.boot.stage = 6 ∧
      ({ up with boot := { up.boot with mode := .baseline } } : State).boot.mode = .baseline) ∧
    ((hdr 1 0#4).multicast = false ∧ up.boot.stage = 6 ∧ up.boot.mode = .normal ∧ (hdr 1 0#4).ridge ≠ 0xF#4) ∧
    ((hdr 9 0xF#4).multicast = false ∧ (hdr 9 0xF#4).ridge = 0xF#4 ∧ (hdr 9 0xF#4).launchAt = none ∧ (hdr 9 0xF#4).length.toNat ≠ 1) ∧
    ((hdrAt 2 0).launchAt = some 0 ∧ (hdrAt 2 0).length.toNat = 1 + 1 ∧ (hdrAt 2 0).ridge = 0xF#4) ∧
    ((hdrAt 3 0x1D4BFFF).launchAt = some 0x1D4BFFF ∧ (hdrAt 3 0x1D4BFFF).length.toNat = 2 + 1 ∧ (hdrAt 3 0).asap = false ∧
      timeDiff 0x1D4BFFF up.now < 30000 * 1024) := by decide +kernel

theorem witness_InjectedPackets :
    packetRow (.saveState (hdr 1 0xF#4)) = some (hdr 1 0xF#4, ⟨0x08, 1, .none, false, false, true, false⟩) ∧
    (injected 28 true up).boot.por = false ∧ canTake (injected 28 true up) (hdr 1 0xF#4) = true ∧
    injectOn (injected 28 true up) 28 = some true := by decide +kernel

/-- The command waits for what a long command holds. -/
def waits (j : LongJob) (h : Hdr) (w : Row) (need : List Need) : Bool :=
  canTake (busy j) h && (injectOn (busy j) 28).isNone && (admission (busy j) h w).isNone && heldByLong (busy j) need

theorem witness_LongCommandsHold :
    waits (.segLoad 5 none) (hdr 2 0xF#4) ⟨0x10, 2, .none, false, false, true, false⟩ [.handle (h20 5).toNat] = true ∧
    waits (.segLoad 5 none) (hdr 2 3#4) ⟨0x12, 2, .named, false, false, true, false⟩ [.handle (h20 5).toNat, .ridge 3] = true ∧
    waits (.flush 7) (hdr 3 0xF#4) ⟨0x30, 3, .none, false, false, true, false⟩ [.queue ((7 : BitVec 16).toNat % 16384)] = true ∧
    waits (.flush 7) (hdr 2 0xF#4) ⟨0x28, 2, .none, true, false, true, false⟩ [.queue ((7 : BitVec 16).toNat % 16384)] = true ∧
    waits (.fwUpdate true default) (hdr 1 0xF#4) ⟨0x08, 1, .none, false, false, true, false⟩ [.flash] = true ∧
    waits (.syncCal 1 false) (hdr 2 0xF#4) ⟨0x58, 2, .none, false, false, true, false⟩ [.dectik] = true ∧
    waits (.calRun 1 [3]) (hdr 2 3#4) ⟨0x48, 2, .either, false, false, true, false⟩ ((hdrRidges (hdr 2 3#4)).map .ridge) = true := by
  decide +kernel

theorem witness_RegisterRows :
    (regRow (.pinCfg .window 255 1) = some (.window, pinW 255 0, 1) ∧ windowTakes (stage 5) (pinW 255 0) = false) ∧
    (windowTakes up (pinW 255 0) = true ∧ writeRefusal up (pinW 255 0) 1 = none) ∧
    (windowTakes up (pinW 255 0) = true ∧ writeRefusal (ridge 15 .armed up) (pinW 255 0) 1 = some BUSY) ∧
    (let s := busy (.calRun 1 [15])
     windowTakes s (rdgW 15 0x18) = true ∧ heldByLong s (wordNeed (rdgW 15 0x18)) = true ∧ heldByLong up (wordNeed (rdgW 15 0x18)) = false) ∧
    (regRow (.paramWrite (hdr 2 0xF#4) 0x1948 1) = some (.packet (hdr 2 0xF#4), 0x1948, 1) ∧ (hdr 2 0xF#4).launchAt = none ∧
      Admitted up (hdr 2 0xF#4) ⟨0x02, 2, .none, true, true, true, false⟩ (wordNeed 0x1948) ∧
      writeRefusal (ensureTaken up (hdr 2 0xF#4) 0x02) 0x1948 1 = none ∧
      isHostReset (ensureTaken up (hdr 2 0xF#4) 0x02) (0x1948, 1) = true) ∧
    (Admitted up (hdr 2 0xF#4) ⟨0x02, 2, .none, true, true, true, false⟩ (wordNeed (dpsW 0 9)) ∧
      writeRefusal (ensureTaken up (hdr 2 0xF#4) 0x02) (dpsW 0 9) 500 = none ∧
      isHostReset (ensureTaken up (hdr 2 0xF#4) 0x02) (dpsW 0 9, 500) = false) ∧
    writeRefusal (ensureTaken up (hdr 2 0xF#4) 0x02) 1 1000 = some BAD_PARAM ∧
    (regRow (.dpsNcoFreq (.slave 1) 15 500) = some (.slave 1, dpsW 15 9, 500) ∧ windowTakes up (dpsW 15 9) = true ∧
      writeRefusal up (dpsW 15 9) 500 = none ∧ windowTakes (bear .safe up) (dpsW 15 9) = false ∧
      writeRefusal up 0x19FF 3 = some BAD_PARAM ∧ windowTakes up 0x19FF = true) := by decide +kernel

/-- The access, mask and reset value of a word. -/
def info (i : Nat) : Option (Access × Nat × Nat) := (wordInfo i).map fun w => (w.access, w.mask, w.reset)

theorem witness_WriteRefusals :
    wordInfo 0x19FF = none ∧
    (info (pinW 0 1) = some (.rw, 0xFFFF, 0x4000) ∧ staticOk (pinW 0 1) (1000 &&& 0xFFFF) = false) ∧
    (info (pinW 255 0) = some (.rwl, 0xFF, 0) ∧ staticOk (pinW 255 0) (0 &&& 0xFF) = true ∧
      runs (ridge 15 .armed up) (pinRidge 255) = true) ∧
    ((info (rdgW 15 0x18)).map (·.1) = some .rwl ∧ staticOk (rdgW 15 0x18) (1 &&& 0x7FF) = true ∧
      runs (ridge 15 .parked up) 15 = true) ∧
    ((info (dpsW 15 0)).map (·.1) = some .rwl ∧ staticOk (dpsW 15 0) (0 &&& 0x3FF) = true ∧
      runs (ridge 15 .running up) 15 = true) ∧
    ((info 4098).map (·.1) = some .rc ∧ (info 15).map (·.1) = some .w1c) ∧
    ((0 : Nat) ≤ 3072 ∧ runs up 15 = false ∧ 3072 < (allRidges.map fun q => if q = 15 then 193 else quota up q).sum) ∧
    (8 ≤ 3072 ∧ runs (ridge 15 .bound up) 15 = false ∧
      8 < requirement (ridge 15 .bound up) 15 + (ridge 15 .bound up).ridges[(15 : RidgeId)].pins.length) := by decide +kernel

theorem witness_PinLevelsReadBack :
    (1 ≤ 10 ∧ writeRefusal up (pinW 255 10) (0x4000 : Word).toNat = none ∧ writeRefusal up (pinW 0 1) (0x4000 : Word).toNat = none) ∧
    Canonical up ∧ injectOn up 26 = none := by unfold Canonical; decide +kernel

/-- The PMU of pin 255 forces a current. -/
def pmuFi : State := putWord up (pinW 255 11) 1

theorem witness_PinRegisterWrites :
    (injectOn up 26 = none ∧ 4 % 4 = field up (pinW 255 0) 1 0 ∧ 3 % 4 ≠ field up (pinW 255 0) 1 0) ∧
    (isSet up (pinW 255 11) 0 = false ∧ isSet pmuFi (pinW 255 11) 0 = true ∧ injectOn pmuFi 26 = none) ∧
    16 % 16 = field (putWord up (pinW 255 11) 0) (pinW 255 11) 3 0 ∧ Canonical pmuFi ∧ Canonical up ∧ up.pins[(255 : PinId)].changing = false ∧
    pinSafe up (pinRidge 255) = false := by
  unfold Canonical; decide +kernel

/-- DPS 15 forces a voltage at a level. -/
def dpsFv : State := modDps (putWord up (dpsW 15 0) 1) 15 fun x => { x with out := .fv, level := 100, target := 100 }

theorem witness_SupplyRegisterWrites :
    (Canonical up ∧ injectOn up 26 = none ∧ dpsHeld up 15 = false ∧ dpsForcedOff up 15 = false ∧ up.dps[(15 : RidgeId)].out = .off ∧
      bits 1 4 2 = dpsRange up 15 ∧ bit 1 6 = dpsNcoEn up 15 ∧ up.smons[(9 : Fin 12)].released = true) ∧
    (bits 0 4 2 = dpsRange up 15 ∧ bit 0 6 = dpsNcoEn up 15 ∧ bit 0 5 = false) ∧
    (Canonical dpsFv ∧ injectOn dpsFv 26 = none ∧ dpsHeld dpsFv 15 = false ∧ dpsForcedOff dpsFv 15 = false ∧
      dpsFv.dps[(15 : RidgeId)].out = .fv ∧ dpsFv.dps[(15 : RidgeId)].level ≠ 0 ∧ bits 0x20 4 2 = dpsRange dpsFv 15 ∧
      bit 0x20 6 = dpsNcoEn dpsFv 15 ∧ bit 0x20 5 = true ∧ 0x20 % 4 = 0) ∧
    (dpsFv.dps[(15 : RidgeId)].closing = false ∧ dpsMode dpsFv 15 = 1 ∧ 65535 < 65536) ∧
    (bit 0x200 9 = true ∧ bit 0x1FF 9 = false) := by unfold Canonical; decide +kernel

theorem witness_PortAndGlobalWrites : Canonical up ∧ injectOn up 26 = none ∧ 1 % 2 = 1 := by unfold Canonical; decide +kernel

theorem witness_ParamReads :
    (up.boot.por = false ∧ Admitted up (hdr 2 0xF#4) ⟨0x03, 2, .none, false, false, true, false⟩ []) ∧
    ((257 : BitVec 16).toNat > 256 ∧ (0x19FF : BitVec 16).toNat % 8192 + 2 > 0x1A00) ∧
    (1 ≤ (256 : BitVec 16).toNat ∧ (256 : BitVec 16).toNat ≤ 256 ∧ (0x1900 : BitVec 16).toNat % 8192 + 256 ≤ 0x1A00) ∧
    viaSummit up = false ∧
    (let s := putWord up (gCSPCFG 1) 1
     let t := putWord (stage 5) (gCSPCFG 1) 1
     isSet s (gCSPCFG 1) 0 = true ∧ tooSoon s 1 0 = false ∧ booted s = true ∧ booted t = false ∧ tooSoon t 1 0 = false ∧
      (gID ≤ gID ∧ gID + 1 ≤ gSTATUS + 1) ∧ ¬(gID ≤ 5 ∧ 5 + 1 ≤ gSTATUS + 1) ∧
      tooSoon (modCsp s 1 fun x => { x with writeAt := some 0 }) 1 0 = true) ∧
    State.reset.boot.por = true := by decide +kernel

/-- A snapshot of the high half of the counter at 4122 is held for the window. -/
def snapped : State := { up with link := { up.link with snaps := [(0, 4123, 7)] } }

theorem witness_ReadSemantics :
    (up.link.snaps.find? fun x => decide (x.1 = 0 ∧ x.2.1 = 4122)) = none ∧ wordInfo 0x19FF = none ∧
    (info 4144).map (·.1) = some .wo ∧ ((info 4098).map (·.1) = some .rc ∧ 4098 ≠ 0x1917) ∧
    (info 4122).map (·.1) ≠ some .rc ∧ isLow 4122 = true ∧ isLow 4123 = false ∧
    (snapped.link.snaps.find? fun x => decide (x.1 = 0 ∧ x.2.1 = 4122)) = none ∧ Canonical up := by
  unfold Canonical; decide +kernel

/-- A PARAM_WRITE_MULTI of some pairs runs on a booted device. -/
def multi (len : Nat) (pairs : List (BitVec 16 × Word)) : Bool :=
  let n := pairs.length
  decide (Admitted up (hdr len 0xF#4) ⟨0x04, 2 + cdiv n 2, .none, true, true, true, false⟩
    (((pairs.take n).map fun p => (p.1.toNat % 8192, p.2.toNat)).flatMap fun x => wordNeed x.1))

/-- The quota of ridge 15 is 8 slots less than after reset. -/
def lessQuota : State := putWord up (rdgW 15 0x10) 184

theorem witness_MultiIsAtomic :
    multi 2 [] = true ∧ multi 3 [(5129, 500), (1, 1000)] = true ∧
    (firstRefused (ensureTaken up (hdr 3 0xF#4) 0x04) 0 [(5129, 500), (1, 1000)] = some (1, BAD_PARAM)) ∧
    (let l := [(rdgW 0 0x10, 200), (rdgW 1 0x10, 193)]
     let u := ensureTaken lessQuota (hdr 3 0xF#4) 0x04
     Admitted lessQuota (hdr 3 0xF#4) ⟨0x04, 2 + cdiv 2 2, .none, true, true, true, false⟩ (l.flatMap fun x => wordNeed x.1) ∧
      firstRefused u 0 l = none ∧ (writeAll 0 l u).2 = some (1, BAD_PARAM)) ∧
    (let l := [(5129, 500), (5130, 1)]
     let u := ensureTaken up (hdr 3 0xF#4) 0x04
     firstRefused u 0 l = none ∧ (writeAll 0 l u).2 = none ∧ l.any (isHostReset u) = false) ∧
    (writeRefusal up 5129 500 = none ∧ writeRefusal up 1 1000 = some BAD_PARAM) := by decide +kernel

/-- A booted device with timed writes. -/
def timed (l : List Timed) : State := { up with link := { up.link with timed := l } }

theorem witness_TimedWrites :
    (startTime up (hdrAt 3 0x1D4C000) up.now = some 0x1D4C000 ∧
      Admitted up (hdrAt 3 0x1D4C000) ⟨0x02, 2, .none, true, true, true, false⟩ (wordNeed (dpsW 0 9))) ∧
    (timedBad (0x19FF, 1) = true ∧ timedBad (dpsW 0 9, 500) = false ∧ up.link.timed.length < 256) ∧
    (256 ≤ (timed (List.replicate 256 ⟨5129, 500, 0⟩)).link.timed.length ∧
      Admitted (timed (List.replicate 256 ⟨5129, 500, 0⟩)) (hdrAt 3 0x1D4C000) ⟨0x02, 2, .none, true, true, true, false⟩ (wordNeed (dpsW 0 9))) ∧
    ([(5129, 500), (0x19FF, 1)].findIdx? timedBad = some 1 ∧ [(5129, 500), (5130, 1)].findIdx? timedBad = none) ∧
    Admitted up (hdrAt 4 0x1D4C000) ⟨0x04, 2 + cdiv 2 2, .none, true, true, true, false⟩ (([5129, 5130]).flatMap fun x => wordNeed x) ∧
    (timed []).link.timed = [] ∧
    (firstTimed (timed [⟨5129, 500, 1⟩]) = some ⟨5129, 500, 1⟩ ∧ reached up.now 1 = false) ∧
    (firstTimed (timed [⟨5129, 500, 0⟩]) = some ⟨5129, 500, 0⟩ ∧ reached up.now 0 = true ∧ Live (timed [⟨5129, 500, 0⟩]) ∧
      writeRefusal (timed []) 5129 500 = none ∧ writeRefusal (timed []) 1 1000 = some BAD_PARAM) ∧
    (∀ y ∈ (timed [⟨5129, 500, 1⟩]).link.timed, (timeDiff y.at_ up.now).natAbs < 2 ^ 62) := by decide +kernel

/-- Pin 255 in a condition. -/
def pin (f : Pin → Pin) : State := modPin up 255 f

/-- Pin 255 with a comparator that has stood at low since instant 0. -/
def seesLow : State := pin fun x => { x with hist := [(0, some .low)], belowVol := true }

/-- An open stream of ridge 15 that records its 16 lanes. -/
def stream : Stream :=
  { ticket := 5, bySite := none, lanes := 0xFFFF, queue := 0, frames := [], buf := 0, nb := 1, cur := [], curTime := 0, curLast := 0,
    openedAt := 0, curLost := false, curFailLost := false, closed := [], copied := 0, nextBlock := 0, elastic := 0, elasticAt := 0, lost := 0,
    lostFirst := 0, held := [], ahead := [], active := true, since := 0, anchorAt := 0, rdAt := none, fin := none }

theorem witness_PinEvents :
    (let s := pin fun x => { x with changing := true }
     let t := putWord s (pinW 255 0) 1
     s.pins[(255 : PinId)].changing = true ∧ pinSafe s (pinRidge 255) = false ∧ field s (pinW 255 0) 1 0 = 0 ∧
      t.pins[(255 : PinId)].changing = true ∧ pinSafe t (pinRidge 255) = false ∧ field t (pinW 255 0) 1 0 ≠ 0) ∧
    up.pins[(255 : PinId)].changing = false ∧
    (let s := { pin fun x => { x with drv := .vih } with sites := up.sites.set 63 (BitVec.ofNat 256 (2 ^ 255)) }
     s.pins[(255 : PinId)].drv ≠ .hiz ∧ siteOf s 255 = some 63) ∧
    (let s := pin fun x => { x with drv := .vil }; s.pins[(255 : PinId)].drv ≠ .hiz ∧ siteOf s 255 = none) ∧
    up.pins[(255 : PinId)].drv = .hiz ∧
    (let s := pin fun x => { x with mode := 2 }; s.pins[(255 : PinId)].mode = 2#2 ∧ s.pins[(255 : PinId)].complyNow = false) ∧
    up.pins[(255 : PinId)].mode ≠ 2#2 := by decide +kernel

/-- VOH and VOL of pin 255 are 2 and 1 codes of a volt apart, with a hysteresis of 10 mV. -/
def thresholds (s : State) : State := putWord (putWord (putWord s (pinW 255 0) 0x31) (pinW 255 4) 0x6000) (pinW 255 5) 0x5000

theorem witness_PinEvents_comparator :
    (let s := thresholds seesLow
     let voh := levelOf (field s (pinW 255 4) 15 0)
     let vol := levelOf (field s (pinW 255 5) 15 0)
     0 < halfHyst s 255 ∧ vol + halfHyst s 255 < voh - halfHyst s 255 ∧ voh + halfHyst s 255 < voh + 10 ^ 9 ∧
      vol - 10 ^ 9 < vol - halfHyst s 255 ∧ (compareAt s 255 (vol - 10 ^ 9)).1 = .low ∧ (compareAt s 255 (voh + 10 ^ 9)).1 ≠ .low) ∧
    (seesLow.pins[(255 : PinId)].hist = (0, some .low) :: [] ∧ later 0 0 = false ∧ reached seesLow.now 0 = true ∧
      later 0 (seesLow.now - 1024) = true ∧
      records seesLow 255 0 = false ∧ records (modR seesLow 15 fun x => { x with stream := some stream }) 255 0 = true) ∧
    up.pins[(255 : PinId)].evaluated = false ∧ reached seesLow.now 1 = false ∧ later 0 ({ seesLow with now := 2048 }.now - 1024) = false ∧
    (let s := pin fun x => { x with hist := [(5, some .low)] }; s.pins[(255 : PinId)].hist = (5, some .low) :: [] ∧ later 5 0 = true) := by
  decide +kernel

/-- DPS 15 in a condition. -/
def dps (f : Dps → Dps) : State := modDps up 15 f

theorem witness_SupplyEvents :
    (let s := dps fun x => { x with out := .fv }; s.dps[(15 : RidgeId)].out = .fv ∧ s.dps[(15 : RidgeId)].limitNow = false) ∧
    up.dps[(15 : RidgeId)].out ≠ .fv ∧
    (let s := dps fun x => { x with out := .fi }; s.dps[(15 : RidgeId)].out = .fi ∧ s.dps[(15 : RidgeId)].complyNow = false) ∧
    (let s := putWord (dps fun x => { x with out := .fv }) (dpsW 15 0) 0x80
     s.dps[(15 : RidgeId)].out = .fv ∧ dpsOpt s 15 7 = true) ∧
    dpsOpt up 15 7 = false ∧
    (let s := dps fun x => { x with out := .fi }; s.dps[(15 : RidgeId)].out ≠ .off ∧ s.dps[(15 : RidgeId)].internalSense = false) ∧
    up.dps[(15 : RidgeId)].out = .off ∧
    (dps fun x => { x with boostEn := true }).dps[(15 : RidgeId)].boostEn = true ∧ up.dps[(15 : RidgeId)].boostEn = false ∧
    (let s := dps fun x => { x with effLimit := some 100, current := -89 }
     s.dps[(15 : RidgeId)].effLimit = some 100 ∧ 10 * s.dps[(15 : RidgeId)].current.natAbs < 9 * 100) ∧
    9 * 100 ≤ 10 * (dps fun x => { x with effLimit := some 100, current := 90 }).dps[(15 : RidgeId)].current.natAbs := by
  decide +kernel

theorem witness_SupplySlewAndSine :
    (Canonical (dps fun x => { x with out := .fv, level := 5, target := 0 })) ∧
    (let s := { dps fun x => { x with out := .fv, level := 5, target := 0 } with ticks := 2 ^ 22 }
     s.dps[(15 : RidgeId)].out ≠ .off ∧ s.dps[(15 : RidgeId)].level ≠ s.dps[(15 : RidgeId)].target ∧ dpsForcedOff s 15 = false ∧
      usTicks (field s (dpsW 15 5) 9 0) ≤ s.ticks - s.dps[(15 : RidgeId)].slewAt) ∧
    up.dps[(15 : RidgeId)].out = .off ∧
    (let s := putWord (dps fun x => { x with out := .fv }) (dpsW 15 0) 0x41
     coarse s.now % 150 = 0 ∧ (0 : T64) = BitVec.ofNat 64 (coarse s.now * 1024) ∧ s.dps[(15 : RidgeId)].out = .fv ∧ dpsNcoEn s 15 = true ∧
      dpsHeld s 15 = false ∧ s.dps[(15 : RidgeId)].ncoAt ≠ some 0) ∧ dpsNcoEn up 15 = false ∧
    coarse (1024 : T64) % 150 ≠ 0 := by
  unfold Canonical; decide +kernel

theorem witness_DissipationCap :
    (allRidges.map fun n => if dpsBoosted up n then 12 else (((List.replicate 16 750#16)).getD n.val 0).toNat).sum = 12000 ∧
    (let s := dps fun x => { x with out := .fv }
     Canonical s ∧ dpsForcedOff s 15 = false ∧ s.dps[(15 : RidgeId)].out ≠ .off ∧
      12000 < (allRidges.map fun n => if dpsBoosted s n then 12 else ((12001#16 :: []).getD n.val 0).toNat).sum ∧
      dpsBoosted (modDps s 15 fun x => { x with cfgNow := 0x15 }) 15 = true) ∧
    (dpsForcedOff up 15 = false ∧ up.dps[(15 : RidgeId)].out = .off) := by unfold Canonical; decide +kernel

/-- A booted device at a later instant. -/
def later_ : State := { up with now := 2 ^ 40, ticks := 2 ^ 30, boot := { up.boot with pcieUp := true, busMaster := true } }

/-- Port 15 in a condition. -/
def port (f : Port → Port) : State := modPort later_ 15 f

/-- A running playback of the image 3. -/
def playing : Awg := ⟨false, 3, 3, 0, 0, false, [3], 0⟩

/-- An image with a successor and a span. -/
def image (next : Handle) (span : Nat) (analog pending : Bool) : Image :=
  { frame := 0x500, analog := analog, next := next, span := span, relPending := pending, crc := 0, payload := [] }

/-- The playing port, with some images. -/
def plays (l : List (Handle × Image)) : State := each l (fun s x => putImg s x.1 (some x.2)) (port fun p => { p with awg := some playing })

theorem witness_AwgPlayback :
    (let s := port fun p => { p with awgAt := some 0 }; s.ports[(15 : RidgeId)].awgAt = some 0 ∧ reached s.now 0 = true ∧ Live s) ∧
    later_.ports[(15 : RidgeId)].awgAt = none ∧
    ((plays []).ports[(15 : RidgeId)].awg = some playing ∧ playing.sine = false ∧ Live (plays []) ∧
      reached (plays []).now (playing.segAt + samplesFu 8192) = true ∧ getImg (plays []) playing.cur = none) ∧
    (getImg (plays [(3, image 0 3 true false)]) 3 = some (image 0 3 true false) ∧ playing.played + 1 < 3) ∧
    (getImg (plays [(3, image noHandle 1 true false)]) 3 = some (image noHandle 1 true false) ∧ 1 ≤ playing.played + 1) ∧
    (let s := plays [(3, image 4 1 true false), (4, image 4 1 true false)]
     getImg s 3 = some (image 4 1 true false) ∧ (4 : Handle) ≠ noHandle ∧ getImg s 4 = some (image 4 1 true false) ∧ takesRef s 4 = true) ∧
    (let s := plays [(3, image 4 1 true true)]; getImg s 3 = some (image 4 1 true true) ∧ takesRef s 3 = false ∧ (3 : Handle) ∈ playing.refs) ∧
    (let s := plays [(3, image 4 1 true false), (4, image 4 1 false false)]; getImg s 4 = some (image 4 1 false false)) ∧
    (let s := plays [(4, image 4 1 true true)]
     getImg s 4 = some (image 4 1 true true) ∧ takesRef s 4 = false ∧ (4 : Handle) ∉ playing.refs) ∧
    later_.ports[(15 : RidgeId)].awg = none := by decide +kernel

/-- Queue 7 is enabled. -/
def queue7 : State := modQ later_ 7 fun q => { q with enabled := true, reservation := 4096 }

/-- An acquisition. -/
def acq : AcqArgs := ⟨true, false, true, 1, 0, 0, 4, 7, 0, 4⟩

theorem witness_AcquisitionArmed :
    Admitted queue7 (hdr 3 15#4) ⟨0x2B, 3, .named, true, false, true, false⟩ [.ridge 15, .queue 7] ∧
    injectOn queue7 25 = none ∧ injectOn queue7 29 = none ∧
    acqRefusal (ensureTaken queue7 (hdr 3 15#4) 0x2B) 15 acq = none ∧
    acqRefusal (ensureTaken queue7 (hdr 3 15#4) 0x2B) 15 { acq with frames := 3 } = some (BAD_PARAM, 0) := by decide +kernel

/-- An acquisition in progress on port 15. -/
def acq0 : Acq :=
  { ticket := 5, queue := 7, stream := true, k := 1, pre := 0, post := 1, frames := [0x500, 0x501, 0x502, 0x503], buf := 0, nb := 4,
    startAt := 0, started := true, nextIndex := 0, decim := 0, decimChanged := false, blocks := [], copied := 0, nextBlock := 0, records := 0,
    triggers := 0, armed := true, firstOk := 0, holdFrom := none, holdEvents := 0, trigIndex := none, postLeft := none,
    eventAt := none, stopAt := none, ended := false, rdAt := none }

def acquires (a : Acq) : State := port fun p => { p with acq := some a }

theorem witness_TriggerEngine :
    (let s := acquires { acq0 with started := false }; s.ports[(15 : RidgeId)].acq = some { acq0 with started := false } ∧
      reached s.now acq0.startAt = true ∧ Live s) ∧
    (let s := acquires acq0
     s.ports[(15 : RidgeId)].acq = some acq0 ∧ acq0.nextIndex ≤ 0 ∧ reached s.now (acq0.instant 1) = true ∧ Live s ∧
      trigSource s 15 = 0 ∧ acq0.triggers = 0 ∧ acq0.armed = true ∧ acq0.ended = false ∧ acq0.stopAt = none) ∧
    (let s := putWord (putWord (acquires acq0) (aptW 15 10) 1) (aptW 15 11) 0x20010
     let level := signed 16 (field s (aptW 15 11) 15 0)
     trigSource s 15 = 1 ∧ isSet s (aptW 15 10) 2 = false ∧ level = 16 ∧ field s (aptW 15 11) 30 16 = 2 ∧
      triggers false level 2 (adcCode 12).toInt (adcCode 16).toInt (adcCode 12).toInt 0 0 1 = true ∧
      triggers false level 2 (adcCode 12).toInt (adcCode 12).toInt (adcCode 12).toInt 0 0 1 = false ∧
      crosses false level (adcCode 12).toInt (adcCode 12).toInt = false ∧
      triggers false level 4 (adcCode 12).toInt (adcCode 16).toInt (adcCode 16).toInt 0 0 2 = false ∧
      crosses false level (adcCode 12).toInt (adcCode 16).toInt = true ∧ triggers true level 2 20 16 20 0 0 1 = true) ∧
    (let a := { acq0 with eventAt := some 1 }
     let s := putWord (acquires a) (aptW 15 10) 2
     trigSource s 15 = 2 ∧ a.firstOk ≤ 1 ∧ a.eventAt.map a.indexAt = some 1 ∧ acq0.eventAt.map acq0.indexAt ≠ some 1) ∧
    (let s := acquires { acq0 with holdFrom := some 0, armed := false }
     isSet s (aptW 15 10) 3 = false ∧ reached s.now (acq0.instant (0 + 1 + word s (aptW 15 12))) = true ∧
      isSet (putWord s (aptW 15 10) 8) (aptW 15 10) 3 = true ∧ acq0.holdEvents = 0) ∧
    later_.ports[(15 : RidgeId)].acq = none := by decide +kernel

theorem witness_AcquisitionBlocks :
    (let a := { acq0 with stream := false, trigIndex := some 0, frames := [0x500] }
     let s := acquires a
     s.ports[(15 : RidgeId)].acq = some a ∧ Live s ∧ a.ended = false ∧ [5#16].length = (0 / 2 ^ 0 + 1) * 2 ^ 0 - 0 ∧ reached s.now (a.instant 0) = true ∧
      recordBlocks a 0 false true ([5#16].map adcCode) (cdiv (outputs 0 ([5#16].map adcCode)).length 8192) 0 (outputs 0 ([5#16].map adcCode)) ≠ []) ∧
    (let a := { acq0 with postLeft := some 1 }
     let s := acquires a
     s.ports[(15 : RidgeId)].acq = some a ∧ 1 ≤ 8192 ∧ [5#16].length = 1 * 2 ^ a.decim ∧
      a.started = true ∧ a.stopAt = none ∧ reached s.now (a.instant (a.nextIndex + 1 - 1)) = true) ∧
    (let a := { acq0 with stopAt := some 2 }
     [5#16, 6#16].length = min (8192 * 2 ^ a.decim) (2 - a.nextIndex) ∧ outputs a.decim ([5#16, 6#16].map adcCode) ≠ [] ∧ a.postLeft = none ∧
      reached (acquires a).now (a.instant (a.nextIndex + 2 - 1)) = true) ∧
    (let a := { acq0 with stopAt := some 1, decim := 1 }
     [5#16].length = min (8192 * 2 ^ a.decim) (1 - a.nextIndex) ∧ outputs a.decim ([5#16].map adcCode) = []) ∧
    later_.ports[(15 : RidgeId)].acq = none := by decide +kernel

/-- A block of an acquisition. -/
def block (last : Bool) : AcqBlock :=
  { samples := [5], number := 0, time := 0, decim := 0, last := last, overflow := false, decimChanged := false, overrange := false,
    shortPre := false, recordStart := true, record := 0 }

theorem witness_AnalogBlockCopy :
    (let a := { acq0 with blocks := [block true] }
     let s := acquires a
     injectOn s 22 = none ∧ nextAcq s.ports[(15 : RidgeId)] = some a ∧ a.blocks.drop a.copied = block true :: [] ∧ dmaRoute s = true ∧
      hostRoom (block true).number (a.rdAt.getD (word s (aptW 15 16))) a.nb = true) ∧
    hostRoom 4 0 4 = false ∧ dmaRoute up = false ∧ nextAcq up.ports[(15 : RidgeId)] = none := by decide +kernel

/-- Queue 7 has no room left. -/
def full7 : State := modQ queue7 7 fun q => { q with reservation := 4, held := 300000 }

/-- As many tickets in flight as there are numbers. -/
def exhausted : State :=
  { queue7 with tickets := List.replicate 131072 ⟨0, 7, 0, 0, false, .acquire 0⟩ }

/-- A launch time that every check admits. -/
def soonEnough : T64 := 2 ^ 40 + 2 ^ 26

theorem witness_TicketNumbers :
    queue7.tickets.length < 131072 ∧ (0 : Nat) < ((5 : BitVec 17) - 3#17 - 1#17).toNat := by decide +kernel

theorem witness_MeasureArmed :
    (Admitted queue7 (hdr 2 0xF#4) ⟨0x28, 2, .none, true, false, true, false⟩ [.queue 7] ∧ injectOn queue7 25 = none ∧
      injectOn queue7 29 = none) ∧
    (let u := ensureTaken queue7 (hdr 2 0xF#4) 0x28
     measureBad u 0x6000 7 (convChoice u 0 0 0x6000 none) = false ∧ ticketsOut queue7 = false ∧ (hdr 2 0xF#4).launchAt = none ∧
      measureBad u 0x6024 7 (convChoice u 0 0 0x6024 none) = true) ∧
    (let h := hdrAt 3 soonEnough
     let u := ensureTaken queue7 h 0x28
     Admitted queue7 h ⟨0x28, 2, .none, true, false, true, false⟩ [.queue 7] ∧
      (bookAt u h soonEnough fun i => bestPlace u.convPtr (places u none 0x6000 1 (convChoice u 0 0 0x6000 none) leadFu i)).isSome = true ∧
      canHold u 7 3 = true) ∧
    (let h := hdrAt 3 soonEnough
     let u := ensureTaken full7 h 0x28
     measureBad u 0x6000 7 (convChoice u 0 0 0x6000 none) = false ∧
      (bookAt u h soonEnough fun i => bestPlace u.convPtr (places u none 0x6000 1 (convChoice u 0 0 0x6000 none) leadFu i)).isSome = true ∧
      canHold u 7 3 = false) := by decide +kernel

theorem witness_TicketsOut :
    Admitted exhausted (hdr 2 0xF#4) ⟨0x28, 2, .none, true, false, true, false⟩ [.queue 7] ∧ injectOn exhausted 25 = none ∧
    injectOn exhausted 29 = none ∧ ticketsOut exhausted = true :=
  ⟨by decide +kernel, by decide +kernel, by decide +kernel, decide_eq_true (by
    rw [show exhausted.tickets = List.replicate 131072 ⟨0, 7, 0, 0, false, .acquire 0⟩ from rfl, List.length_replicate])⟩

/-- Pin 255 can be timed. -/
def timable : State := modPin queue7 255 fun x => { x with mode := 1 }

def timuArgs : TimuArgs := ⟨255, 0, 0, 0, 1, 7, 2 ^ 20⟩

theorem witness_TimeMeasureArmed :
    (Admitted timable (hdr 2 0xF#4) ⟨0x29, 2, .none, true, false, true, false⟩ [.queue 7] ∧ injectOn timable 25 = none ∧
      injectOn timable 29 = none ∧ timuBad (ensureTaken timable (hdr 2 0xF#4) 0x29) timuArgs = false ∧ ticketsOut timable = false ∧
      timuBad (ensureTaken timable (hdr 2 0xF#4) 0x29) { timuArgs with count := 0 } = true) ∧
    (let h := hdrAt 3 soonEnough
     let u := ensureTaken timable h 0x29
     let job := timuArgs.job u.now u.now true 0
     let len := (job.interval u.now).2 - (job.interval u.now).1
     timuBad u timuArgs = false ∧ Admitted timable h ⟨0x29, 2, .none, true, false, true, false⟩ [.queue 7] ∧
      (bookAt u h soonEnough fun i => bestTimu u none (timuChoice u 0 0 none) len leadFu i).isSome = true ∧
      canHold u 7 (Job.timu job).entries = true ∧ canHold full7 7 (Job.timu job).entries = false) := by decide +kernel

/-- A MEASURE job and a TIMU job, booked, with their tickets. -/
def meas (started : Bool) : MeasJob := ⟨0x6000, 1, 0, none, false, false, 0, 0, started, 0, false, false⟩

def timu (started : Bool) : TimuJob :=
  ⟨255, 0, none, 0, 0, false, false, false, 0, 0, 0, 1, 2 ^ 20, started, [(5, false)], false⟩

def jobs (j : Job) : State := { queue7 with tickets := [⟨5, 7, 0, 0, true, j⟩] }

theorem witness_TicketJobs :
    (findTicket (jobs (.measure (meas false))) 5 = some ⟨5, 7, 0, 0, true, .measure (meas false)⟩ ∧
      reached queue7.now (meas false).first = true ∧ Live (jobs (.measure (meas false))) ∧
      injectOn (jobs (.measure (meas false))) 31 = none ∧
      injectOn (injected 31 true (jobs (.measure (meas false)))) 31 = some true) ∧
    (findTicket (jobs (.measure (meas true))) 5 = some ⟨5, 7, 0, 0, true, .measure (meas true)⟩ ∧ [(3 : Int)].length = (meas true).n ∧
      reached queue7.now ((meas true).first + ticksFu (usTicks 1)) = true) ∧
    (findTicket queue7 5 = none) ∧
    (findTicket (jobs (.timu (timu false))) 5 = some ⟨5, 7, 0, 0, true, .timu (timu false)⟩ ∧
      reached queue7.now (timu false).start = true ∧ injectOn (injected 30 false (jobs (.timu (timu false)))) 30 = some false) ∧
    (findTicket (jobs (.timu (timu true))) 5 = some ⟨5, 7, 0, 0, true, .timu (timu true)⟩ ∧
      (timu true).count ≤ (timu true).stamps.length ∧ reached queue7.now ((timu true).start + ticksFu (2 ^ 20)) = true) := by
  decide +kernel

/-- A capture on ridge 15. -/
def cap : CapArgs := ⟨false, false, 0, 0xFFFF, 4, 7, 0, 4⟩

theorem witness_CaptureArmed :
    Admitted queue7 (hdr 3 15#4) ⟨0x2A, 3, .either, false, false, true, false⟩
      ((capRidges queue7 (hdr 3 14#4) cap).map .ridge ++ [.queue 7]) ∧
    injectOn queue7 25 = none ∧ injectOn queue7 29 = none ∧
    capRefusal (ensureTaken queue7 (hdr 3 14#4) 0x2A) cap [14] = none ∧
    capRefusal (ensureTaken queue7 (hdr 3 14#4) 0x2A) { cap with frames := 0 } [14] = some BAD_PARAM := by decide +kernel

/-- A block of a stream. -/
def capBlock (recs : List (BitVec 64)) : CapBlock := ⟨recs, 0, 0, true, 0, false, false, none, [], false⟩

/-- Ridge 15 in a condition. -/
def onRidge (f : Ridge → Ridge) : State := modR later_ 15 f

theorem witness_CaptureRows :
    (let s := onRidge fun x => { x with ended := some 0 }
     s.ridges[(15 : RidgeId)].ended = some 0 ∧ reached s.now (0 + ticksFu 32) = true ∧ Live s ∧
      ∀ q ∈ gang s 15, s.ridges[q].ended = none ∨ ∀ e ∈ s.ridges[q].open_, e.over (s.now - 1023) = true) ∧
    later_.ridges[(15 : RidgeId)].ended = none ∧
    (let s := { onRidge (fun x => { x with stream := some stream }) with now := 2 ^ 43 }
     s.ridges[(15 : RidgeId)].stream = some stream ∧ stream.active = true ∧ s.ridges[(15 : RidgeId)].ended = none ∧
      s.ridges[(15 : RidgeId)].st ≠ .running ∧ reached s.now (stream.anchorAt + ticksFu (2 ^ 32)) = true) ∧
    (let s := { onRidge (fun x => { x with stream := some stream, st := .running, ended := some 0 }) with now := 2 ^ 43 }
     later (0 + ticksFu 32) (stream.anchorAt + ticksFu (2 ^ 32)) = false ∧ s.ridges[(15 : RidgeId)].st = .running ∧
      later (stream.anchorAt + ticksFu (2 ^ 32)) s.ridges[(15 : RidgeId)].start = true) ∧
    later_.ridges[(15 : RidgeId)].stream = none ∧
    (let s := onRidge fun x => { x with stream := some { stream with cur := [1] } }
     let u := settleStream (judge s 15) 15
     (u.ridges[(15 : RidgeId)].stream.map fun x => (x.cur, decide (150000 ≤ u.ticks - x.openedAt))) = some ([1], true)) ∧
    (∀ l ∈ [[], [(1 : BitVec 64)]],
     let x := { stream with closed := [capBlock l] }
     let s := onRidge fun y => { y with stream := some x }
     injectOn s 22 = none ∧ nextStream s.ridges[(15 : RidgeId)] = some x ∧ x.closed.drop x.copied = capBlock l :: [] ∧ dmaRoute s = true ∧
      (capBlock l).records = l ∧ hostRoom 0 (x.rdAt.getD (word s (rdgW 15 0x20))) x.nb = true) ∧
    nextStream later_.ridges[(15 : RidgeId)] = none := by decide +kernel

/-- Queue 7 in a condition. -/
def queue (f : Queue → Queue) : State := modQ queue7 7 f

/-- A configuration of a queue that the rules allow. -/
def qconf : QConf := ⟨1, 12, 4096, 0x1000, 0x8, 0xFF, 256, 1⟩

/-- A packet in storage, and one that waits. -/
def stored : QPacket := ⟨0, [0], 0, none⟩

def waiter : WaitPkt := ⟨0, [0], none, false, none⟩

theorem witness_QueueCommands :
    Admitted queue7 (hdr 3 15#4) ⟨0x30, 3, .none, false, false, true, false⟩ [.queue 7] ∧
    queueConfigRefusal (ensureTaken queue7 (hdr 3 15#4) 0x30) 7 { qconf with enable := 2 } = some BAD_PARAM ∧
    queueConfigRefusal (ensureTaken queue7 (hdr 3 15#4) 0x30) 7 qconf = none ∧
    qconf.enable = 1 ∧ (getQ up 7).enabled = false ∧
    Admitted queue7 (hdr 2 15#4) ⟨0x31, 2, .none, false, false, true, false⟩ [.queue 7] ∧
    1 < (2#8 : Byte).toNat ∧ (getQ queue7 8).enabled = false ∧
    ((0#8).toNat ≤ 1 ∧ (getQ queue7 7).enabled = true ∧ (getQ (queue fun q => { q with flush := some (.drain, 0) }) 7).flush ≠ none ∧
      (getQ queue7 7).flush = none ∧ (getQ queue7 7).writing queue7.ticks = false ∧
      (getQ (queue fun q => { q with writeEnd := 2 ^ 40 }) 7).writing queue7.ticks = true) ∧
    (let s := queue fun q => { q with flush := some (.discard, 1), store := [stored, stored] }
     Live s ∧ (getQ s (7#14).toNat).flush = some (.discard, 1) ∧ (getQ s (7#14).toNat).writing s.ticks = false ∧ Canonical s) ∧
    (let s := queue fun q => { q with flush := some (.drain, 0) }; Live s ∧ Canonical s ∧ (getQ s (7#14).toNat).flush = some (.drain, 0) ∧
      (getQ s 7).store = [] ∧ (getQ s 7).draining = none) ∧
    (let s := queue fun q => { q with flush := some (.drain, 0), store := [stored] }; Canonical s ∧ (getQ s 7).store.length - 0 ≠ 0) ∧
    (getQ queue7 (8#14).toNat).flush = none ∧
    (let s := queue fun q => { q with head := 5, tail := 9 }
     (9 - (getQ s 7).head).toNat ≤ ((getQ s 7).tail - (getQ s 7).head).toNat ∧
      ((getQ s 7).tail - (getQ s 7).head).toNat < (10 - (getQ s 7).head).toNat) := by unfold Canonical; decide +kernel

theorem witness_CommitTakesSeq :
    (let s := queue fun q => { q with nextSeq := 0xFFF }
     Canonical s ∧ injectOn s 24 = none ∧ (getQ s 7).store = [] ∧ (getQ s 7).timerAt = none ∧ (getQ s 7).nextSeq + 1 = 0) := by
  unfold Canonical; decide +kernel

/-- A queue that can drain: its ring has 8 entries, and one packet is in storage. -/
def drains (f : Queue → Queue) : State :=
  queue fun q => f { q with ringSize := 3, due := true, store := [stored], ringBase := 0x1000, wbAddr := 8 }

theorem witness_QueueDrains :
    (let s := queue fun q => { q with waiting := [waiter] }
     (getQ s (7#14).toNat).waiting = waiter :: [] ∧ Live s ∧ admits s (7#14).toNat waiter.payload.length = true) ∧
    (getQ queue7 (7#14).toNat).waiting = [] ∧
    (let s := queue fun q => { q with timerAt := some (0, 1), stale := 1 }
     (getQ s (7#14).toNat).timerAt = some (0, 1) ∧ usTicks 1 ≤ s.ticks - 0) ∧
    (getQ queue7 (7#14).toNat).timerAt = none ∧
    (let s := drains id
     let d := drainTake 7 [] (getQ s 7).store ⟨0, 0, 0⟩ { s with lastQueue := 7 }
     dmaRoute s = true ∧ nextServed s = some (7#14).toNat ∧ d.2.packets ≠ 0) ∧
    (let s := drains fun q => { q with tail := 8 }
     let d := drainTake 7 [] (getQ s 7).store ⟨0, 0, 0⟩ { s with lastQueue := 7 }
     dmaRoute s = true ∧ nextServed s = some (7#14).toNat ∧ d.2.packets = 0 ∧ (getQ d.1 7).flushLeft = none) ∧
    (let s := drains fun q => { q with tail := 8, flushLeft := some (1, 0) }
     let d := drainTake 7 [] (getQ s 7).store ⟨0, 0, 0⟩ { s with lastQueue := 7 }
     nextServed s = some 7 ∧ d.2.packets = 0 ∧ (getQ d.1 7).flushLeft = some (1, 0)) ∧
    nextServed queue7 ≠ some (7#14).toNat ∧
    (let s := queue fun q => { q with draining := some (1, 0, 1), cring := 0xFF, store := [stored] }
     let u := modQ s 7 fun q =>
      { q with tail := q.tail + BitVec.ofNat 32 1, draining := none, timerAt := if q.store = [] then none else some (s.ticks, q.stale),
               due := q.due || (decide (q.drainThr ≤ q.depth) && q.store != []) }
     (getQ s (7#14).toNat).draining = some (1, 0, 1) ∧ dmaRoute s = true ∧ (getQ s (7#14).toNat).blocked = false ∧
      (getQ (queueNotice (queueWriteback u 7 0) 7) 7).flushLeft = none) ∧
    (let s := drains fun q => { q with draining := some (1, 0, 1), cring := 0xFF, flushLeft := some (1, 2) }
     let u := modQ s 7 fun q =>
      { q with tail := q.tail + BitVec.ofNat 32 1, draining := none, timerAt := if q.store = [] then none else some (s.ticks, q.stale),
               due := q.due || (decide (q.drainThr ≤ q.depth) && q.store != []) }
     let v := queueNotice (queueWriteback u 7 0) 7
     (getQ v 7).flushLeft = some (1, 2) ∧ (getQ v 7).store = stored :: [] ∧
      ((getQ v 7).tail - (getQ v 7).head).toNat + stored.payload.length ≤ 2 ^ (getQ v 7).ringSize) ∧
    (let s := drains fun q => { q with draining := some (1, 0, 1), cring := 0xFF, flushLeft := some (2, 2), tail := 7 }
     let u := modQ s 7 fun q =>
      { q with tail := q.tail + BitVec.ofNat 32 1, draining := none, timerAt := if q.store = [] then none else some (s.ticks, q.stale),
               due := q.due || (decide (q.drainThr ≤ q.depth) && q.store != []) }
     let v := queueNotice (queueWriteback u 7 0) 7
     (getQ v 7).flushLeft = some (2, 2) ∧ (getQ v 7).store = stored :: [] ∧
      2 ^ (getQ v 7).ringSize < ((getQ v 7).tail - (getQ v 7).head).toNat + stored.payload.length) ∧
    (getQ queue7 (7#14).toNat).draining = none := by decide +kernel

/-- Submission and completion ring 63 in a condition. -/
def sq (f : Sq → Sq) : State := modSq up 63 f
def cq (f : Cq → Cq) : State := modCq up 63 f

theorem witness_RingRegisters :
    up.boot.por = false ∧ State.reset.boot.por = true ∧
    (let x := (sq fun x => { x with n := 4, head := 3, tail := 9 }).sq[(63 : Fin 64)]
     ((x.tail - x.head).toNat ≤ (19 - x.head).toNat ∧ (19 - x.head).toNat ≤ 2 ^ x.n) ∧
      (8 - x.head).toNat < (x.tail - x.head).toNat ∧ 2 ^ x.n < (20 - x.head).toNat) ∧
    ((0 : Word).getLsbD 0 = up.sq[(63 : Fin 64)].enabled) ∧
    (let s := sq fun x => { x with enabled := true }; (0 : Word).getLsbD 0 = false ∧ s.sq[(63 : Fin 64)].enabled = true) ∧
    ((1 : Word).getLsbD 0 = true ∧ up.sq[(63 : Fin 64)].enabled = false ∧ up.cq[up.sq[(63 : Fin 64)].cq].enabled = false) ∧
    (let s := modSq (cq fun x => { x with enabled := true }) 63 fun x => { x with cq := 63 }
     (1 : Word).getLsbD 0 = true ∧ s.sq[(63 : Fin 64)].enabled = false ∧ s.cq[s.sq[(63 : Fin 64)].cq].enabled = true) ∧
    inRange 6 16 (bits 5 4 0) = false ∧
    (let s := cq fun x => { x with enabled := true, n := 6, vector := 1 }
     let w := 0x10106
     inRange 6 16 (bits w 4 0) = true ∧ s.cq[(63 : Fin 64)].enabled = true ∧ bit w 16 = true ∧
      bits w 4 0 = s.cq[(63 : Fin 64)].n ∧ (Fin.ofNat 64 (bits w 13 8) : Fin 64) = s.cq[(63 : Fin 64)].vector ∧
      bits 0x10107 4 0 ≠ s.cq[(63 : Fin 64)].n ∧ cqInUse s 63 = false ∧ bit 0x110 16 = false ∧ inRange 6 16 (bits 0x110 4 0) = true) ∧
    (let s := modSq (cq fun x => { x with enabled := true }) 0 fun x => { x with enabled := true, cq := 63 }
     s.cq[(63 : Fin 64)].enabled = true ∧ cqInUse s 63 = true) ∧
    up.cq[(63 : Fin 64)].enabled = false ∧
    (let x := (cq fun x => { x with head := 3, tail := 9 }).cq[(63 : Fin 64)]
     (9 - x.head).toNat ≤ (x.tail - x.head).toNat ∧ (x.tail - x.head).toNat < (10 - x.head).toNat) ∧
    (0x19FF : Nat) < 0x1A00 := by decide +kernel

/-- A device whose ring 0 holds packets for completion ring 0. -/
def fetches (f : Sq → Sq) : State :=
  modSq (modCq up 0 fun c => { c with enabled := true, n := 6 }) 0 fun x =>
    f { x with enabled := true, cq := 0, n := 6, head := 0, tail := 4, seq := 0 }

/-- A FENCE without reply, with its CRC. -/
def fence : Packet :=
  let p : Packet := ⟨0x03, 2, 1, 0, 0, 0, 0, []⟩
  { p with crc := packetCrc p }

theorem witness_PacketFetch :
    canFetch up 0 fence = false ∧ canFetch (fetches id) 0 fence = true ∧
    (canFetch (fetches id) 0 { fence with length := 0 } = true ∧ canFetch (fetches id) 0 { fence with length := 65 } = true ∧
      2 ^ (fetches id).sq[(0 : Fin 64)].n < (65#16).toNat) ∧
    (fence.length ≠ 0#16 ∧ fence.length.toNat ≤ 2 ^ (fetches id).sq[(0 : Fin 64)].n) ∧
    (let p := { fence with crc := fence.crc + 1 }; canFetch (fetches id) 0 p = true ∧ p.crc ≠ packetCrc p) ∧
    (fence.crc = packetCrc fence ∧ canFetch (fetches fun x => { x with seq := 1 }) 0 fence = true ∧
      fence.seq ≠ (fetches fun x => { x with seq := 1 }).sq[(0 : Fin 64)].seq) ∧
    fence.seq = (fetches id).sq[(0 : Fin 64)].seq := by decide +kernel

theorem witness_RepliesAndNotices :
    (let s := modCq up 63 fun c => { c with irqTime := 1, irqCount := 2, n := 6, base := 0x1000, wb := 8, tail := 65 }
     let q := s.cq[(63 : Fin 64)]
     let a := q.base.toNat + 16 * (q.tail.toNat % 2 ^ q.n)
     Canonical s ∧ (List.replicate 16 (0 : Byte)).length = 16 ∧ (15 < 16) ∧ q.irqTime ≠ 0 ∧ q.unsignalled + 1 < q.irqCount ∧
      a + 16 ≤ 2 ^ 64 ∧ q.wb.toNat + 8 ≤ a ∧ q.wb.toNat + 8 ≤ 2 ^ 64) ∧
    (let n : Notice := ⟨0, .event 3, 1, 0⟩
     let s := { fetches id with link := { up.link with notices := [n] } }
     s.link.notices.find? (fun m => decide (m.cq = 0)) = some n ∧ noticeOut s 0 = true) ∧
    up.link.notices.find? (fun m => decide (m.cq = 0)) = none ∧
    (let s := { modCq up 63 fun c => { c with enabled := true, irqTime := 1, unsignalled := 1, oldest := 0 } with ticks := 1500 }
     dmaOk s = true ∧ s.cq[(63 : Fin 64)].enabled = true ∧ 0 < s.cq[(63 : Fin 64)].irqTime ∧ 0 < s.cq[(63 : Fin 64)].unsignalled ∧
      usTicks s.cq[(63 : Fin 64)].irqTime ≤ s.ticks - s.cq[(63 : Fin 64)].oldest) ∧
    up.cq[(63 : Fin 64)].enabled = false ∧ (up.boot.por = false ∧ bearSafe up = false ∧ Canonical up) := by
  unfold Canonical; decide +kernel

theorem witness_HostRecords :
    (Admitted up (hdr 2 15#4) ⟨0x01, 2, .none, false, false, true, true⟩ [] ∧ (4 : BitVec 64).toNat % 8 ≠ 0 ∧
      (8 : BitVec 64).toNat % 8 = 0) ∧
    (Admitted up (hdr 3 15#4) ⟨0x7F, echoUnits (hdr 3 15#4), .none, false, false, true, true⟩ []) ∧
    Admitted up (hdr 2 15#4) ⟨0x50, 2, .none, false, false, true, false⟩ [] := by decide +kernel

/-- The booted device with an image under handle 3, and with a load of handle 3 in progress. -/
def holds (i : Image) (s : State) : State := putImg s 3 (some i)

def loads (f : Option (Nat × Nat × Nat)) (s : State) : State := { s with link := { s.link with longs := [⟨hdr 2 15#4, 0x10, .segLoad 3 f⟩] } }

/-- An image of DMA for handle 3, with its CRC. -/
def segImage : SegImage :=
  let i : SegImage := ⟨0x5347, 1, 0, 3, 0xFFFFF, 128, List.replicate 16 0, List.replicate 31 0, 0, [1]⟩
  { i with crc := imageCrc i }

/-- A device with n frames in use. -/
def framesUsed (n : Nat) : State := { up with store := { up.store with used := List.replicate n 0 } }

theorem framesUsed_full (n : Nat) (h : frameCount ≤ n) : allocFrame (ensureTaken (framesUsed n) (hdr 2 15#4) 0x10) = none := by
  have z : freeFrames (ensureTaken (framesUsed n) (hdr 2 15#4) 0x10) = 0 := by
    have e : (framesUsed n).store.used.length = n := by unfold framesUsed; simp only [List.length_replicate]
    unfold freeFrames busyFrames; rw [ensureTaken_store, e]; omega
  unfold allocFrame; rw [if_pos z]

theorem witness_SegLoadFrames :
    let h := hdr 2 15#4
    let w : Row := ⟨0x10, 2, .none, false, false, true, false⟩
    Admitted up h w [.handle 3] ∧ injectOn up 29 = none ∧ (3 : Handle) ≠ noHandle ∧ h20 0xFFFFF = noHandle ∧
    (64 : BitVec 64).toNat % 64 = 0 ∧ (32 : BitVec 64).toNat % 64 ≠ 0 ∧
    (let s := holds (image 0 1 false true) up; Admitted s h w [.handle 3] ∧ getImg (ensureTaken s h 0x10) 3 = some (image 0 1 false true)) ∧
    (let s := holds (image 0 1 false false) up
     Admitted s h w [.handle 3] ∧ getImg (ensureTaken s h 0x10) 3 = some (image 0 1 false false) ∧
      (image 0 1 false false).relPending = false ∧ refCount (ensureTaken s h 0x10) 3 = 0) ∧
    (getImg (ensureTaken up h 0x10) 3 = none ∧ (allocFrame (ensureTaken up h 0x10)).isSome = true) ∧
    (let s := loads none (holds (image 0 1 false false) up)
     Live s ∧ injectOn s 22 = none ∧ Canonical s ∧
      findLong s (fun j => match j with | .segLoad x _ => decide (x = 3) | _ => false) = some ⟨h, 0x10, .segLoad 3 none⟩ ∧
      getImg s 3 = some (image 0 1 false false) ∧ imageOk 3 segImage = true) := by unfold Canonical; decide +kernel

theorem witness_SegLoadFrames_full :
    Admitted (framesUsed frameCount) (hdr 2 15#4) ⟨0x10, 2, .none, false, false, true, false⟩ [.handle 3] ∧
    getImg (ensureTaken (framesUsed frameCount) (hdr 2 15#4) 0x10) 3 = none ∧
    allocFrame (ensureTaken (framesUsed frameCount) (hdr 2 15#4) 0x10) = none :=
  ⟨by decide +kernel, by decide +kernel, framesUsed_full frameCount (Nat.le_refl frameCount)⟩

/-- Ridge 14 in a condition. -/
def ridge14 (f : Ridge → Ridge) (s : State) : State := modR s 14 f

/-- A device with a vector image under handle 3 and a quota of 32 slots for ridge 14. -/
def imaged : State := putWord (holds (image 0xFFFFF 1 false false) later_) (rdgW 14 0x10) 32

theorem witness_SegmentCommands_load :
    (let s := loads (some (0x440, 0, 1)) up
     Live s ∧ injectOn s 22 = none ∧
      findLong s (fun j => match j with | .segLoad x _ => decide (x = 3) | _ => false) = some ⟨hdr 2 15#4, 0x10, .segLoad 3 (some (0x440, 0, 1))⟩ ∧
      up.store.ptr = 0 ∧
      imageOk 3 { segImage with crc := segImage.crc + 1 } = false ∧ imageOk 3 segImage = true) := by decide +kernel

theorem witness_SegmentCommands_release :
    (let h := hdr 2 15#4
     let w : Row := ⟨0x11, 2, .none, false, false, true, false⟩
     let s := holds (image 0 1 false true) up
     let t := ridge14 (fun x => { x with pins := [3] }) (holds (image 0 1 false false) up)
     Admitted up h w [.handle 3] ∧ getImg (ensureTaken up h 0x11) 3 = none ∧
      Admitted s h w [.handle 3] ∧ getImg (ensureTaken s h 0x11) 3 = some (image 0 1 false true) ∧
      Admitted t h w [.handle 3] ∧ getImg (ensureTaken t h 0x11) 3 = some (image 0 1 false false) ∧
      refCount (ensureTaken t h 0x11) 3 ≠ 0 ∧ refCount (ensureTaken imaged h 0x11) 3 = 0) := by decide +kernel

theorem witness_SegmentCommands_pins :
    (let h := hdr 2 14#4
     let w : Row := ⟨0x12, 2, .named, false, false, true, false⟩
     let s := ridge14 (fun x => { x with pins := [3] }) imaged
     let t := putWord imaged (rdgW 14 0x10) 0
     Admitted up h w [.handle 3, .ridge 14] ∧ takesRef (ensureTaken up h 0x12) 3 = false ∧
      Admitted s h w [.handle 3, .ridge 14] ∧ takesRef (ensureTaken s h 0x12) 3 = true ∧ (3 : Handle) ∈ (ensureTaken s h 0x12).ridges[(14 : RidgeId)].pins ∧
      Admitted t h w [.handle 3, .ridge 14] ∧ takesRef (ensureTaken t h 0x12) 3 = true ∧
      quota (ensureTaken t h 0x12) 14 < requirement (ensureTaken t h 0x12) 14 + 0 + 1 ∧
      takesRef (ensureTaken imaged h 0x12) 3 = true ∧ (3 : Handle) ∉ (ensureTaken imaged h 0x12).ridges[(14 : RidgeId)].pins ∧
      requirement (ensureTaken imaged h 0x12) 14 + 0 + 1 ≤ quota (ensureTaken imaged h 0x12) 14 ∧
      Admitted imaged h { w with op := 0x13 } [.handle 3, .ridge 14] ∧ Admitted s h { w with op := 0x13 } [.handle 3, .ridge 14]) := by decide +kernel

theorem witness_SegmentCommands_bind :
    (let h := hdr 2 14#4
     let w : Row := ⟨0x14, 2 + cdiv 0 4, .named, false, false, true, false⟩
     let u := ensureTaken imaged h 0x14
     let s := ridge14 (fun x => { x with st := .hold }) imaged
     let t := putWord imaged (rdgW 14 0x10) 135
     Admitted imaged h w [.ridge 14, .handle 3] ∧ runs u 14 = false ∧ Admitted s h w [.ridge 14, .handle 3] ∧
      runs (ensureTaken s h 0x14) 14 = true ∧ 128 < (129#8).toNat ∧ (128#8).toNat ≤ 128 ∧ (64#8).toNat ≤ 64 ∧
      bindHandles u [4] = some (SEG_NOT_FOUND, 4) ∧ bindHandles u [3] = none ∧
      quota (ensureTaken t h 0x14) 14 < bindReq 128 0 + (ensureTaken t h 0x14).ridges[(14 : RidgeId)].pins.length ∧
      bindReq 24 0 + u.ridges[(14 : RidgeId)].pins.length ≤ quota u 14) := by decide +kernel

theorem witness_SegmentCommands_fetch :
    (let s := ridge14 (fun x => { x with fetches := [(3, 0)] }) imaged
     Live s ∧ injectOn s 20 = none ∧ injectOn s 21 = none ∧ injectOn s 22 = none ∧ injectOn s 23 = none ∧
      (s.ridges[(14 : RidgeId)].fetches ++ s.ridges[(14 : RidgeId)].lentDue).find? (fun f => decide (f.1 = 3)) = some (3, 0) ∧
      (getImg s 3).isSome = true ∧ loading s 3 = false ∧ fetchWaits s 14 3 = false) ∧
    (getImg up 3).isNone = true := by decide +kernel

theorem witness_FrameOrder : up.store.ptr < frameCount ∧ (allocFrame up).isSome = true ∧ frameCount - 1 < frameCount := by decide +kernel

/-- A record of a timing set that passes every check. -/
def setRecord : SetRecord := ⟨0x9, 0, 0, List.replicate 16 ([0, 0, 1024, 0, 0, 1024], 0)⟩

theorem witness_TimingSets :
    let h := hdr 35 14#4
    let w : Row := ⟨0x18, 2 + 33 * 1, .named, false, false, true, false⟩
    let u := ensureTaken up h 0x18
    Admitted up h w [.ridge 14] ∧ 1 < (2#8).toNat ∧ (1#8).toNat ≤ 1 ∧ (31#8).toNat + 1 ≤ 32 ∧ (31#8).toNat ≤ 31 ∧
    (bankIx u.ridges[(14 : RidgeId)].activeBank = Fin.ofNat 2 (0#8).toNat ∧ bankIx u.ridges[(14 : RidgeId)].activeBank ≠ Fin.ofNat 2 (1#8).toNat ∧
      u.ridges[(14 : RidgeId)].swapPending = false ∧ u.ridges[(14 : RidgeId)].copyBusy = false) ∧
    (let s := ridge14 (fun x => { x with copyBusy := true }) up
     Admitted s h w [.ridge 14] ∧ (ensureTaken s h 0x18).ridges[(14 : RidgeId)].copyBusy = true) ∧
    ([setRecord].take 1).findIdx? (fun t => !recordOk t) = none ∧
    ([setRecord, { setRecord with reserved := 1 }].take 2).findIdx? (fun t => !recordOk t) = some 1 ∧
    (let h := hdr 1 14#4
     let w : Row := ⟨0x19, 1, .either, false, true, true, false⟩
     let s := ridge14 (fun x => { x with st := .running }) up
     Admitted s h w ((gangs s (hdrRidges h)).map .ridge) ∧ (gangs (ensureTaken s h 0x19) (hdrRidges h)).any (swapWaits (ensureTaken s h 0x19)) = true ∧
      Admitted up h w ((gangs up (hdrRidges h)).map .ridge) ∧
      (gangs (ensureTaken up h 0x19) (hdrRidges h)).any (swapWaits (ensureTaken up h 0x19)) = false) ∧
    (let s := ridge14 (fun x => { x with st := .running, applyWait := true, swapPending := true }) later_
     crossed s 14 = true ∧ s.ridges[(14 : RidgeId)].swapPending = true) ∧ crossed up 14 = false ∧
    (ridge14 (fun x => { x with copyBusy := true }) up).ridges[(14 : RidgeId)].copyBusy = true ∧ (15 : RidgeId) ≠ 14 := by decide +kernel

/-- Ridge 14 bound, and the pin mask that names it. -/
def bound : State := ridge14 (fun x => { x with st := .bound }) later_

theorem witness_LaunchAndHalt :
    let h := hdr 2 15#4
    let w : Row := ⟨0x20, 2, .none, true, true, true, false⟩
    (Admitted bound h w ((namedRidges bound false 0 0x4000).map .ridge) ∧ namedRidges bound false 0 0x4000 = [14] ∧
      launchRefusal (ensureTaken bound h 0x20) [14] false = none ∧ launchRefusal (ensureTaken bound h 0x20) [14] true = some (BUSY, 0) ∧
      namedRidges bound true 0 0x4000 = []) ∧
    (let s := ridge14 (fun x => { x with st := .armed }) later_
     Live s ∧ s.ridges[(14 : RidgeId)].st = .armed ∧ reached s.now s.ridges[(14 : RidgeId)].launchAt = true) ∧
    (let s := ridge14 (fun x => { x with st := .running, atBoundary := true }) later_
     ∀ q ∈ running s 14, s.ridges[q].atBoundary = true ∧ reached s.now s.ridges[q].start = true) ∧
    (let w := { w with op := 0x21 }
     Admitted bound h w ((namedRidges bound false 0 0x4000).map .ridge) ∧
      startTime (ensureTaken bound h 0x21) h (tickAfter (bound.now + ticksFu 3000)) = none ∧
      Admitted bound (hdrAt 3 soonEnough) w [.ridge 14] ∧
      startTime (ensureTaken bound h 0x21) (hdrAt 3 soonEnough) 0 = some soonEnough) ∧
    (let s := fun st a => ridge14 (fun x => { x with st := st, halts := [a] }) later_
     (∀ st ∈ [SeqState.unbound, .bound, .armed, .running, .hold, .parked], Live (s st ⟨0, false⟩) ∧
        (s st ⟨0, false⟩).ridges[(14 : RidgeId)].halts.find? (fun h => reached later_.now h.at_) = some ⟨0, false⟩) ∧
      (s .running ⟨0, true⟩).ridges[(14 : RidgeId)].halts.find? (fun h => reached later_.now h.at_) = some ⟨0, true⟩ ∧
      later 0 (s .running ⟨0, false⟩).ridges[(14 : RidgeId)].start = false ∧
      reached later_.now (s .running ⟨0, false⟩).ridges[(14 : RidgeId)].start = true) ∧
    later_.ridges[(14 : RidgeId)].halts.find? (fun h => reached later_.now h.at_) = none := by decide +kernel

/-- An arm on event source 1. -/
def arm : Arm := ⟨1, ⟨3, 0⟩, true, 0⟩

theorem witness_JumpsAndHolds_arm :
    let h := hdr 2 14#4
    let w : Row := ⟨0x22, 2, .named, false, false, true, false⟩
    let s := ridge14 (fun x => { x with st := .bound, first := 3, maxBody := 4 }) imaged
    let t := putWord s (rdgW 14 0x10) 14
    (Admitted imaged h w [.ridge 14, .handle 3] ∧ (∃ q ∈ gang (ensureTaken imaged h 0x22) 14, (ensureTaken imaged h 0x22).ridges[q].st = .unbound)) ∧
    (Admitted s h w [.ridge 14, .handle 3] ∧ (∀ q ∈ gang (ensureTaken s h 0x22) 14, (ensureTaken s h 0x22).ridges[q].st ≠ .unbound) ∧
      bindHandles (ensureTaken s h 0x22) [4] = some (SEG_NOT_FOUND, 4) ∧ bindHandles (ensureTaken s h 0x22) [3] = none ∧
      ∀ q ∈ gang (ensureTaken s h 0x22) 14, bindReq 4 0 + 3 + 0 ≤ quota (ensureTaken s h 0x22) q) ∧
    (Admitted t h w [.ridge 14, .handle 3] ∧ ∃ q ∈ gang (ensureTaken t h 0x22) 14, quota (ensureTaken t h 0x22) q < bindReq 4 0 + 3 + 0) := by
  decide +kernel

theorem witness_JumpsAndHolds :
    (let s := ridge14 (fun x => { x with st := .running, arm := some arm }) later_
     Live s ∧ s.ridges[(14 : RidgeId)].arm = some arm ∧ arm.arrived = true ∧ s.ridges[(14 : RidgeId)].jumpIn = none ∧
      s.ridges[(14 : RidgeId)].st = .running ∧ ∀ q ∈ gang s 14, (s.ridges[q].st = .running ∨ s.ridges[q].st = .hold) →
        latchPeriod s.ridges[q] arm.at_ = latchPeriod s.ridges[(14 : RidgeId)] arm.at_) ∧
    (let s := ridge14 (fun x => { x with st := .running, jumpIn := some 0 }) later_
     Live s ∧ s.ridges[(14 : RidgeId)].st = .running ∧ s.ridges[(14 : RidgeId)].jumpIn = some 0 ∧ s.ridges[(14 : RidgeId)].atBoundary = false ∧
      s.ridges[(14 : RidgeId)].applyWait = false ∧ s.ridges[(14 : RidgeId)].after = .go ∧
      reached s.now s.ridges[(14 : RidgeId)].start = true ∧ haltDue s.ridges[(14 : RidgeId)] = false) ∧
    (let s := ridge14 (fun x => { x with st := .hold, arrival := some 0, pc := ⟨3, 0⟩, resident := [3] }) later_
     let g := (gang s 14).filter fun q => decide (s.ridges[q].st = .hold)
     Live s ∧ s.ridges[(14 : RidgeId)].st = .hold ∧ lastArrival s g = some 0 ∧ reached s.now (0 + ticksFu 4) = true ∧
      ∀ q ∈ g, s.ridges[q].pc.seg ∈ s.ridges[q].resident) ∧
    (let s := ridge14 (fun x => { x with st := .hold, holdSince := 0 }) later_
     Live s ∧ s.ridges[(14 : RidgeId)].st = .hold ∧ msTicks 10 ≤ s.ticks - s.ridges[(14 : RidgeId)].holdSince) := by decide +kernel

/-- A vector of an opcode and an operand. -/
def vec (op operand : Nat) : Vec := ⟨op * 2 ^ 69 + operand * 2 ^ 77⟩

/-- Ridge 14 runs at vector 0 of segment 3, which holds the vector. -/
def at_ (v : Vec) (f : Ridge → Ridge) : State :=
  ridge14 (fun x => f { x with st := .running, pc := ⟨3, 0⟩, resident := [3], first := 3 })
    (holds { image noHandle 1 false false with payload := [BitVec.ofNat 128 v.word] } later_)

/-- Eight open loops, and eight open calls. -/
def loops8 : List (Addr × Word) := List.replicate 8 (⟨3, 0⟩, 1)

def calls8 : List Addr := List.replicate 8 ⟨3, 0⟩

theorem witness_VectorOpcodes :
    (∀ op ∈ [0x00, 0x01, 0x02, 0x05, 0x06, 0x08, 0x09, 0x0A, 0x0B, 0x0C, 0x10, 0x11, 0x18, 0x19, 0x1F, 0x0D],
      Executes (at_ (vec op 5) id) 14 (vec op 5) ∧ (vec op 5).opcode = op) ∧ opcodeKnown 0x0D = false ∧
    (max 1 (vec 1 1).operand ≤ (seen (at_ (vec 1 1) id) 14).ridges[(14 : RidgeId)].rep + 1) ∧
    (seen (at_ (vec 2 5) id) 14).ridges[(14 : RidgeId)].loops.length < 8 ∧
    (let s := at_ (vec 3 0) fun x => { x with loops := [(⟨3, 0⟩, 2)] }
     Executes s 14 (vec 3 0) ∧ (vec 3 0).opcode = 0x03 ∧ (seen s 14).ridges[(14 : RidgeId)].loops = (⟨3, 0⟩, 2) :: [] ∧ 1 < (2 : Word).toNat) ∧
    (let s := at_ (vec 3 0) fun x => { x with loops := [(⟨3, 0⟩, 1)] }
     (seen s 14).ridges[(14 : RidgeId)].loops = (⟨3, 0⟩, 1) :: [] ∧ (1 : Word).toNat ≤ 1) ∧
    (let s := at_ (vec 4 0) fun x => { x with loops := [(⟨3, 0⟩, 2)] }
     Executes s 14 (vec 4 0) ∧ (vec 4 0).opcode = 0x04 ∧ (seen s 14).ridges[(14 : RidgeId)].loops ≠ []) ∧
    (seen (at_ (vec 6 0) id) 14).ridges[(14 : RidgeId)].calls.length < 8 ∧
    (let s := at_ (vec 7 0) fun x => { x with calls := [⟨3, 9⟩] }
     Executes s 14 (vec 7 0) ∧ (vec 7 0).opcode = 0x07 ∧ (seen s 14).ridges[(14 : RidgeId)].calls = ⟨3, 9⟩ :: []) ∧
    matchState (seen (at_ (vec 0xC 5) id) 14) 14 (vec 0xC 5) = .goesOn := by decide +kernel

theorem witness_VectorOpcodes_rest :
    (let s := at_ (vec 0x19 5) id
     let v := vec 0x19 5
     let t := modR (advance (onePeriod s 14 v) 14 v) 14 fun x => { x with checkpoint := BitVec.ofNat 16 v.operand, ckptValid := true }
     t.ridges[(14 : RidgeId)].park = false) ∧
    (let s := at_ (vec 0x19 5) fun x => { x with park := true }
     let v := vec 0x19 5
     let t := modR (advance (onePeriod s 14 v) 14 v) 14 fun x => { x with checkpoint := BitVec.ofNat 16 v.operand, ckptValid := true }
     t.ridges[(14 : RidgeId)].park = true ∧ haltDue t.ridges[(14 : RidgeId)] = false ∧ t.ridges[(14 : RidgeId)].jumpIn ≠ some 0 ∧
      nextAddr t 14 = some ⟨3, 1⟩) ∧
    (let s := at_ (vec 0x19 5) fun x => { x with park := true, jumpIn := some 1 }
     let v := vec 0x19 5
     let t := modR (advance (onePeriod s 14 v) 14 v) 14 fun x => { x with checkpoint := BitVec.ofNat 16 v.operand, ckptValid := true }
     Executes s 14 v ∧ t.ridges[(14 : RidgeId)].park = true ∧ haltDue t.ridges[(14 : RidgeId)] = false ∧
      t.ridges[(14 : RidgeId)].jumpIn = some 0) ∧
    (let s := ridge14 (fun x => { x with park := true, st := .running, pc := ⟨3, 1023⟩, resident := [3], first := 3 })
       (holds { image noHandle 1 false false with payload := List.replicate 1024 (BitVec.ofNat 128 (vec 0x19 5).word) } later_)
     let v := vec 0x19 5
     let t := modR (advance (onePeriod s 14 v) 14 v) 14 fun x => { x with checkpoint := BitVec.ofNat 16 v.operand, ckptValid := true }
     Executes s 14 v ∧ t.ridges[(14 : RidgeId)].park = true ∧ haltDue t.ridges[(14 : RidgeId)] = false ∧
      t.ridges[(14 : RidgeId)].jumpIn ≠ some 0 ∧ nextAddr t 14 = none) ∧
    (vecReady (at_ (vec 0 0) id) 14 = true ∧ vecAt (at_ (vec 0 0) id) 14 = some (vec 0 0)) ∧ vecReady later_ 14 = false := by
  decide +kernel

theorem witness_PeriodOfAVector :
    (15 : RidgeId) ≠ 14 ∧ pinRidge 255 ≠ 14 := by decide +kernel

theorem witness_StackFaults :
    (∀ op ∈ [0x02, 0x06], Executes (at_ (vec op 0) fun x => { x with loops := loops8, calls := calls8 }) 14 (vec op 0)) ∧
    (∀ op ∈ [0x03, 0x04, 0x07], Executes (at_ (vec op 0) id) 14 (vec op 0)) ∧
    8 ≤ (seen (at_ (vec 2 0) fun x => { x with loops := loops8 }) 14).ridges[(14 : RidgeId)].loops.length ∧
    8 ≤ (seen (at_ (vec 6 0) fun x => { x with calls := calls8 }) 14).ridges[(14 : RidgeId)].calls.length ∧
    (seen (at_ (vec 3 0) id) 14).ridges[(14 : RidgeId)].loops = [] ∧ (seen (at_ (vec 7 0) id) 14).ridges[(14 : RidgeId)].calls = [] ∧
    (let s := at_ (vec 2 0) fun x => { x with loops := loops8.tail, calls := calls8 }
     Executes s 14 (vec 2 0) ∧ (seen s 14).ridges[(14 : RidgeId)].loops.length < 8) ∧
    (let s := at_ (vec 6 0) fun x => { x with loops := loops8, calls := calls8.tail }
     Executes s 14 (vec 6 0) ∧ (seen s 14).ridges[(14 : RidgeId)].calls.length < 8) := by decide +kernel

theorem witness_MatchOutcome :
    (vecAt (at_ (vec 0xC 5) id) 14).isSome = true ∧
    (∀ m ∈ [MatchOutcome.none, .matched, .timedOut],
      let s := at_ (vec 0xA 5) fun x => { x with matchOut := m }
      Executes s 14 (vec 0xA 5) ∧ s.ridges[(14 : RidgeId)].matchOut = m) ∧ (vec 0xA 5).opcode = 0x0A := by decide +kernel

/-- Ridge 14 runs. -/
def running14 : State := ridge14 (fun x => { x with st := .running }) later_

theorem witness_RoutesSitesAndCalibration_done :
    let s := busy (.calRun 31 [14])
    s.smons[(10 : Fin 12)].released = true ∧ s.smons[(11 : Fin 12)].released = true := by decide +kernel

theorem witness_RoutesSitesAndCalibration :
    (Admitted up (hdr 2 15#4) ⟨0x38, 2, .none, false, true, true, false⟩ [] ∧ 57 ≤ (57#8).toNat ∧ (56#8).toNat ≤ 56) ∧
    (let h := hdr 4 15#4
     let w : Row := ⟨0x40, 4, .none, false, true, true, false⟩
     let s := { later_ with sites := later_.sites.set 63 1 }
     let pins : BitVec 256 := BitVec.ofNat 256 (2 ^ 224)
     Admitted s h w [] ∧ 64 ≤ (64#8).toNat ∧ (5#8).toNat = (5 : Fin 64).val ∧
      (63 : Fin 64) ≠ 5 ∧ (ensureTaken s h 0x40).sites[(63 : Fin 64)] &&& 1#256 ≠ 0#256 ∧
      (∀ j : Fin 64, j ≠ 5 → (ensureTaken s h 0x40).sites[j] &&& pins = 0#256) ∧
      (∀ r ∈ maskRidges ((ensureTaken s h 0x40).sites[(5 : Fin 64)] ||| pins), runs (ensureTaken s h 0x40) r = false) ∧
      Admitted running14 h w [] ∧ (14 : RidgeId) ∈ maskRidges ((ensureTaken running14 h 0x40).sites[(5 : Fin 64)] ||| pins) ∧
      runs (ensureTaken running14 h 0x40) 14 = true) ∧
    (let h := hdr 2 14#4
     let w : Row := ⟨0x48, 2, .either, false, false, true, false⟩
     let busy := fun u => ((hdrRidges h).any fun r => runs u r || portBusy u.ports[r]) ||
       (bit 31 2 && (calConverters (hdrRidges h)).any (convHeld u))
     Admitted up h w ((hdrRidges h).map .ridge) ∧ 31 < (32#8).toNat ∧ (31#8).toNat ≤ 31 ∧ busy (ensureTaken up h 0x48) = false ∧
      Admitted running14 h w ((hdrRidges h).map .ridge) ∧ busy (ensureTaken running14 h 0x48) = true) ∧
    (let s := busy (.calRun 31 [14])
     Live s ∧ Canonical s ∧ findLong s (fun j => match j with | .calRun _ _ => true | _ => false) = some ⟨hdr 2 15#4, 0, .calRun 31 [14]⟩) ∧
    (let s := putWord up gCALCFG 1
     isSet s gCALCFG 0 = true ∧ booted s = true ∧ Live s ∧ convInCal s 63 = false ∧ clear (convBooked s none 63) 0 (usFu 20) = true ∧
      swf calDflt s.cal.items = true) := by unfold Canonical; decide +kernel

/-- A device whose flash holds copy A of generation 1 and copy B of a generation. -/
def copies (g : Word) (s : State) : State :=
  { s with flash := { s.flash with slots := (s.flash.slots.set 0 (some ⟨false, 1, snapshot up⟩)).set 1 (some ⟨true, g, snapshot up⟩) } }

/-- A firmware image that passes every check. -/
def fwImage : FwImage := ⟨0x5348494D, 0, 1, 64, 1, 0, 0xFFFF, 0x42, true, true, true, true, [0xFE0010], [0x1234]⟩

/-- Fox in loader mode. -/
def loaderFox : State := { stage 7 with boot := { (stage 7).boot with romLoader := true, mode := .loader } }

theorem witness_FaultsFirmwareAndImages_faults :
    Admitted up (hdr 2 15#4) ⟨0x51, 2, .none, false, false, true, false⟩ [] ∧
    (let h := hdr 2 15#4
     let w : Row := ⟨0x52, 2, .none, false, false, false, false⟩
     let u := ensureTaken up h 0x52
     let s := injected 31 true up
     Admitted up h w [] ∧ 32 ≤ (32#8).toNat ∧ (128#8).toNat % 128 = 0 ∧
      (injectFatal (27#8).toNat (bit (0x81#8).toNat 7) = true ∧ isSet u gFAULTCFG 28 = false) ∧
      injectFatal (31#8).toNat (bit (1#8).toNat 7) = false ∧ (31#8).toNat < 32 ∧ injectOn u (Fin.ofNat 64 (31#8).toNat) = none ∧
      Admitted s h w [] ∧ (injectOn (ensureTaken s h 0x52) (Fin.ofNat 64 (31#8).toNat)).isSome = true) := by decide +kernel

theorem witness_FaultsFirmwareAndImages_firmware :
    (let h := hdr 2 15#4
     let w : Row := ⟨0x60, 2, .none, false, false, true, true⟩
     let fox := fun u : State => if u.boot.stage = 7 then !isSet u (gCSPCFG 0) 0 else foxFlash u
     let s := putWord up (gCSPCFG 0) 1
     Admitted up h w [.flash] ∧ 1 < (2#8).toNat ∧ (1#8).toNat ≤ 1 ∧ (64 : BitVec 64).toNat % 64 = 0 ∧ (32 : BitVec 64).toNat % 64 ≠ 0 ∧
      fox (ensureTaken up h 0x60) = true ∧ Admitted s h w [.flash] ∧ fox (ensureTaken s h 0x60) = false ∧
      (255 : Nat) < 256 ∧ ¬((320 : Nat) < 256 ∨ (fwSlot false).2 < 320 ∨ 320 ≠ 256 + fwImage.payloadLen.toNat) ∧
      imageCheck (ensureTaken up h 0x60).boot.fuses false fwImage = 0 ∧
      imageCheck (ensureTaken up h 0x60).boot.fuses false { fwImage with sigOk := false } ≠ 0) ∧
    (let s := { loaderFox with link := (busy (.fwUpdate false fwImage)).link }
     Live s ∧ findLong s (fun j => match j with | .fwUpdate _ _ => true | _ => false) = some ⟨hdr 2 15#4, 0, .fwUpdate false fwImage⟩ ∧
      s.boot.stage = 7) ∧
    (let s := busy (.fwUpdate false fwImage)
     Live s ∧ findLong s (fun j => match j with | .fwUpdate _ _ => true | _ => false) = some ⟨hdr 2 15#4, 0, .fwUpdate false fwImage⟩ ∧
      s.boot.stage ≠ 7) := by decide +kernel

theorem witness_FaultsFirmwareAndImages_images :
    (let h := hdr 1 15#4
     let w : Row := ⟨0x08, 1, .none, false, false, true, false⟩
     let s := putWord up (gCSPCFG 0) 1
     let t := copies 0xFFFFFFFF up
     Admitted up h w [.flash] ∧ foxFlash (ensureTaken up h 0x08) = true ∧ topGeneration (ensureTaken up h 0x08).flash ≠ 0xFFFFFFFF ∧
      Admitted s h w [.flash] ∧ foxFlash (ensureTaken s h 0x08) = false ∧
      Admitted t h w [.flash] ∧ foxFlash (ensureTaken t h 0x08) = true ∧ topGeneration (ensureTaken t h 0x08).flash = 0xFFFFFFFF) ∧
    (let j := LongJob.save 2 false 7 (snapshot up)
     let s := busy j
     Live s ∧ findLong s (fun j => match j with | .save _ _ _ _ => true | _ => false) = some ⟨hdr 2 15#4, 0, j⟩) ∧
    (let h := hdr 2 15#4
     let w : Row := ⟨0x09, 2, .none, false, false, true, false⟩
     let busy := fun u : State => !foxFlash u || (allRidges.any fun r => runs u r) || u.tickets != [] || u.ports.toList.any awgPlays ||
       u.link.timed != []
     let s := running14
     let t := copies 2 up
     Admitted s h w [.flash] ∧ busy (ensureTaken s h 0x09) = true ∧ Admitted up h w [.flash] ∧ busy (ensureTaken up h 0x09) = false ∧
      restoreCopy (ensureTaken up h 0x09) 0 = none ∧ 2 < (3#8).toNat ∧
      Admitted t h w [.flash] ∧ busy (ensureTaken t h 0x09) = false ∧
      restoreCopy (ensureTaken t h 0x09) 0 = some (true, ⟨true, 2, snapshot up⟩) ∧
      restoreCopy (ensureTaken t h 0x09) 1 = some (false, ⟨false, 1, snapshot up⟩)) ∧
    (let s := stage 5
     let s := { s with boot := { s.boot with calDone := true } }
     let t := copies 2 s
     s.boot.stage = 5 ∧ s.boot.calDone = true ∧ s.owl.shutdown = false ∧ copyContent s.flash (copyOf s.flash (newerIsB s.flash)) = none ∧
      copyContent s.flash (copyOf s.flash !newerIsB s.flash) = none ∧
      copyContent t.flash (copyOf t.flash (newerIsB t.flash)) = some ⟨true, 2, snapshot up⟩ ∧
      copyContent t.flash (copyOf t.flash !newerIsB t.flash) = some ⟨false, 1, snapshot up⟩) := by decide +kernel

/-- A member of the ring, and a booted Summit or follower of an enumerated ring of three. -/
def member : Member := ⟨false, true, true, false, false, false, false, 0, 0, 0x42, 0, 0, 0⟩

def summit (s : State) : State := { s with boot := { s.boot with straps := { s.boot.straps with mstr := true } } }

def inRing (f : Ring → Ring) (s : State) : State :=
  { s with ring := f { s.ring with enumerated := true, members := [member, member, member], aUp := true, bUp := true, position := 1 } }

/-- A packet for position 1, and its taken entry at the member that forwarded it. -/
def away : Packet := ⟨0x03, 2, 1, 0, 1, 0, 0, []⟩

def forwards : State :=
  modSq (inRing id up) 63 fun x => { x with taken := [⟨1, 7, 0, 3, 0, false, false, some (2, 0), none, none⟩] }

/-- A frame sent once by RING_B at tick 0. -/
def sentFrame : RingFrame := ⟨true, 0, .event 0 1, 1, 0⟩

theorem witness_RingLinksAndEnumeration_links :
    (let s := inRing (fun r => { r with outbox := [sentFrame] }) later_
     oldestFrame s true = some sentFrame ∧ unanswered s sentFrame = true ∧ sentFrame.sends < 8 ∧
      unanswered (inRing (fun r => { r with outbox := [sentFrame] }) up) sentFrame = false ∧ oldestFrame s false = none) ∧
    (∀ l ∈ [RingLink.a, .b, .far 2], linkUp (inRing id up) l = true ∧ linkFailed (inRing id up) l (usTicks 10) = true) ∧
    (let s := inRing (fun r => { r with outbox := [{ sentFrame with sends := 8 }] }) later_
     linkFailed s .b 0 = true ∧ linkFailed s .a (usTicks 10 - 1) = false) ∧
    (up.boot.por = false ∧ linkUp { up with ring := { up.ring with aUp := false } } .a = false) ∧
    (let s := { summit up with ring := { up.ring with aUp := true, bUp := true } }
     s.boot.straps.mstr = true ∧ booted s = true ∧ s.ring.aUp = true ∧ s.ring.bUp = true ∧ s.ring.twoSummit = false ∧
      s.ring.enumerated = false ∧ s.ring.tokenSent = false) ∧
    (let s := { summit later_ with ring := { up.ring with tokenSent := true } }
     s.ring.tokenSent = true ∧ s.ring.twoSummit = false ∧ s.boot.por = false ∧ msTicks 10 ≤ s.ticks - s.ring.enumTick ∧
      s.boot.straps.mstr = true) ∧
    up.boot.straps.mstr = false ∧ up.ring.fixed = false ∧ (inRing id up).ring.bUp = true ∧
    (∀ b : Bool, nextFrame up ⟨b, 0⟩ = true ∧ nextFrame up ⟨b, 1⟩ = false) ∧
    (let h := hdr 2 15#4
     let w : Row := ⟨0x58, 2, .none, false, false, true, false⟩
     let s := summit up
     Admitted up h w [.dectik] ∧ (ensureTaken up h 0x58).boot.straps.mstr = false ∧ Admitted s h w [.dectik] ∧
      (ensureTaken s h 0x58).boot.straps.mstr = true ∧ (4 : BitVec 64).toNat % 8 ≠ 0 ∧ (8 : BitVec 64).toNat % 8 = 0 ∧
      (ensureTaken s h 0x58).ring.twoSummit = false ∧ (ensureTaken s h 0x58).ring.state ≠ 2) ∧
    (let h := hdr 2 15#4
     let w : Row := ⟨0x58, 2, .none, false, false, true, false⟩
     let s := inRing (fun r => { r with twoSummit := true }) (summit up)
     let t := inRing (fun r => { r with state := 2 }) (summit up)
     Admitted s h w [.dectik] ∧ (ensureTaken s h 0x58).ring.twoSummit = true ∧
      Admitted t h w [.dectik] ∧ (ensureTaken t h 0x58).ring.twoSummit = false ∧ (ensureTaken t h 0x58).ring.state = 2) := by
  decide +kernel

theorem witness_RingLinksAndEnumeration_traffic :
    (let s := inRing id up
     let h := packetHdr away 63 1 (some 0)
     s.ring.enumerated = true ∧ nextFrame s ⟨false, 0⟩ = true ∧ nextFrame s ⟨true, 0⟩ = true ∧
      bits away.target.toNat 9 7 = s.boot.straps.ringId.toNat ∧ (0 : BitVec 7) ≠ s.ring.position ∧
      canTake s h = true ∧ h.multicast = false ∧ bits away.target.toNat 6 0 = s.ring.position.toNat ∧
      bits (2#16).toNat 6 0 ≠ s.ring.position.toNat ∧
      (let p := { away with flags := 6, opcode := 0x40 }
       canTake s (packetHdr p 63 1 (some 0)) = true ∧ (packetHdr p 63 1 (some 0)).multicast = true ∧ s.ring.quarantined = false)) ∧
    (let s := inRing (fun r => { r with position := 0 }) later_; s.ring.enumerated = true ∧ s.ring.position = 0 ∧ dmaOk s = true) ∧
    (forwards.ring.enumerated = true ∧ nextFrame forwards ⟨false, 0⟩ = true ∧ awaitsMember forwards 63 1 7 2 = true ∧
      awaitsMember forwards 63 1 7 1 = false ∧ awaitsMember forwards 63 0 7 2 = false) ∧ up.ring.enumerated = false := by
  decide +kernel

/-- Cairn in a condition. -/
def cairn (f : Cairn → Cairn) (s : State) : State := { s with cairn := f s.cairn }

/-- A frame of epoch 1 with its CRC. -/
def frame : CairnFrame := makeFrame 1 0

theorem witness_CairnTime :
    (let s := { putWord (cairn (fun c => { c with root := true, period := 0 }) up) gCAIRNCFG 1 with now := BitVec.ofNat 64 (150000 * 1024) }
     s.boot.por = false ∧ s.cairn.root = true ∧ bit (word s gCAIRNCFG) 0 = true ∧ coarse s.now % cairnTicks s.cairn.period = 0) ∧
    (let s := cairn (fun c => { c with echoAt := some 0 }) up
     up.boot.por = false ∧ up.cairn.root = false ∧ inEcho up 0 = false ∧ frameValid up frame 0 0 = true ∧ inEcho s 5 = true ∧
      frameValid s frame 0 5 = false ∧ frameValid up { frame with epoch := 2 } 0 0 = false ∧ frameValid up frame 1 0 = false) ∧
    (let s := cairn (fun c => { c with load := some (0, 64) }) running14
     s.cairn.load = some (0, 64) ∧ reached s.now 0 = true ∧ (64 : Int).natAbs ≤ 64 ∧ 64 < (65 : Int).natAbs ∧ timeIdle s = false ∧
      timeIdle later_ = true) ∧
    (let s := cairn (fun c => { c with relaunch := some 0, echo := some 0 }) later_
     s.cairn.relaunch = some 0 ∧ s.cairn.echo = some 0 ∧ reached s.now 0 = true ∧ reached s.now (0 + 65536#64) = true) ∧
    (let s := cairn (fun c => { c with fed := true }) later_
     s.boot.por = false ∧ s.cairn.root = false ∧ s.cairn.fed = true ∧ cairnTicks s.cairn.period + usTicks 1 < s.ticks - s.cairn.lastFrame) := by
  decide +kernel

/-- The Summit, the ring's root, at a tick of its first epoch, and a follower whose last frame came at tick 0. -/
def rooted (t : Nat) : State :=
  { cairn (fun c => { c with root := true, period := 0 }) (inRing (fun r => { r with position := 0 }) (summit up)) with
    now := BitVec.ofNat 64 (t * 1024), ticks := t }

def fedAt (t : Nat) : State :=
  { cairn (fun c => { c with fed := true, period := 0 }) (inRing id up) with now := BitVec.ofNat 64 (t * 1024), ticks := t }

theorem witness_CairnTime_echoes :
    (let s := rooted 76000
     let d := BitVec.ofNat 64 (75000 * 1024)
     cairnTicks s.cairn.period = 150000 ∧ s.boot.por = false ∧ midHalf s s.now = true ∧ s.ring.enumerated = true ∧
      (0#8).toNat = s.ring.position.toNat ∧ s.cairn.pulse0 = none ∧ reached s.now s.now = true ∧ midHalf s d = true ∧
      oneWindow s (usTicks 1) s.now d = true ∧ oneWindow s (usTicks 2) s.now (BitVec.ofNat 64 (50000 * 1024)) = false) ∧
    (let s := fedAt 75000
     midHalf s s.now = true ∧ s.cairn.root = false ∧ (0#8).toNat ≠ s.ring.position.toNat ∧
      s.ring.members[s.ring.position.toNat]? = some member) ∧
    (midHalf (rooted 37500) (rooted 37500).now = true ∧ midHalf (rooted 112500) (rooted 112500).now = true ∧
      midHalf (rooted 37499) (rooted 37499).now = false ∧ midHalf (fedAt 112501) (fedAt 112501).now = false) ∧
    (let s := cairn (fun c => { c with hop1 := (15, 4) }) up; s.cairn.hop1 = (15, 4) ∧ up.cairn.hop1 = (0, 0)) ∧
    (let s := putWord (cairn (fun c => { c with discovered := true, epoch := 64 }) (inRing id up)) gCAIRNCFG 2
     s.boot.por = false ∧ isSet s gCAIRNCFG 1 = true ∧ s.cairn.discovered = true ∧ s.cairn.trackAt.toNat + 64 ≤ lastEpoch s ∧
      s.boot.straps.mstr = false ∧ [(0 : Word), 5][s.ring.position.toNat]? = some 5) ∧
    (let s := putWord (cairn (fun c => { c with discovered := true, sent := 64, root := true }) (inRing id (summit up))) gCAIRNCFG 3
     isSet s gCAIRNCFG 1 = true ∧ s.cairn.discovered = true ∧ s.cairn.trackAt.toNat + 64 ≤ lastEpoch s ∧ s.boot.straps.mstr = true ∧
      s.ring.enumerated = true ∧ s.ring.bUp = true) := by decide +kernel

theorem witness_CairnTime_syncCal :
    (let h := hdr 2 15#4
     let w : Row := ⟨0x59, 2, .none, false, false, false, false⟩
     let s := summit up
     let t := inRing id (summit up)
     let bad := fun (u : State) (o : Byte) => o.toNat % 4 = 0 ∨ (o.toNat % 4 = 2 ∧ u.cairn.discovered = false)
     Admitted up h w [.dectik] ∧ (ensureTaken up h 0x59).boot.straps.mstr = false ∧
      Admitted s h w [.dectik] ∧ (ensureTaken s h 0x59).boot.straps.mstr = true ∧ bad (ensureTaken s h 0x59) 0 ∧ bad (ensureTaken s h 0x59) 2 ∧
      ¬ bad (ensureTaken s h 0x59) 1 ∧ (ensureTaken s h 0x59).ring.enumerated = false ∧
      Admitted t h w [.dectik] ∧ (ensureTaken t h 0x59).boot.straps.mstr = true ∧ ¬ bad (ensureTaken t h 0x59) 3 ∧
      ¬((ensureTaken t h 0x59).ring.enumerated = false ∨ (ensureTaken t h 0x59).ring.twoSummit = true ∨ (ensureTaken t h 0x59).ring.state = 2)) ∧
    (let s := busy (.syncCal 3 false)
     Live s ∧ findLong s (fun j => match j with | .syncCal _ _ => true | _ => false) = some ⟨hdr 2 15#4, 0, .syncCal 3 false⟩ ∧
      (3 : Byte).getLsbD 0 = true ∧ (inRing id s).ring.bUp = true) ∧
    (let s := inRing id up
     s.boot.por = false ∧ s.boot.straps.mstr = false ∧ s.ring.enumerated = true ∧ [(0 : Word), 5][s.ring.position.toNat]? = some 5 ∧
      findLong s (fun j => match j with | .syncCal _ _ => true | _ => false) = none) := by decide +kernel

/-- CSP1 is a slave port. -/
def slave : State := putWord up (gCSPCFG 1) 1

/-- A complete frame of a command for one word, with its CRC. -/
def cspFrame (cmd : Nat) (addr : BitVec 16) (data : List Word) : CspFrame :=
  let f : CspFrame := ⟨addr, 0, 0, data, 0, 22, 0⟩
  { f with crc := crc16 (requestBytes cmd f) }

theorem witness_SlavePortsAndFlashWindow :
    (requestEdges 5 (cspFrame 5 0 []) + 9 ≤ 40 ∧ slaveOn slave 1 = true) ∧ slaveOn up 0 = false ∧
    (frameFlags slave 1 2 (cspFrame 2 0x19A0 [5])).bad = false ∧
    (frameFlags slave 1 2 { cspFrame 2 0x19A0 [5] with crc := (cspFrame 2 0x19A0 [5]).crc + 1 }).bad = true ∧
    (let s := modCsp slave 1 fun x => { x with write := some (5, [0]) }; s.csps[(1 : Fin 2)].write = some (5, [0])) ∧
    (let f := cspFrame 11 (BitVec.ofNat 16 gID) []
     let fl := frameFlags slave 1 11 f
     7 ≤ f.edges ∧ fl.repeated = false ∧ fl.notReady = false ∧ fl.crc = false ∧
      (frameFlags slave 1 11 { f with crc := f.crc + 1 }).crc = true ∧ (frameFlags slave 1 11 { f with edges := 6 }).repeated = false ∧
      (frameFlags (modCsp slave 1 fun x => { x with alive := some 0 }) 1 11 f).repeated = true ∧ 6 < 7) := by decide +kernel

theorem witness_SlavePortsAndFlashWindow_apply :
    (windowTakes (stage 5) 5 = false) ∧
    (let s := busy (.calRun 1 [15])
     windowTakes s (rdgW 15 0x18) = true ∧ heldByLong s (wordNeed (rdgW 15 0x18)) = true) ∧
    (windowTakes up gCALCFG = true ∧ heldByLong up (wordNeed gCALCFG) = false ∧ firstRefused up 0 [(gCALCFG, 1)] = none ∧
      (writeAll 0 [(gCALCFG, 1)] up).2 = none) ∧
    (windowTakes up gOWLCFG = true ∧ (firstRefused up 0 [(gOWLCFG, 0xFFFF)]).isSome = true) ∧
    (let s := lessQuota
     let l := [(rdgW 0 0x10, 200), (rdgW 1 0x10, 193)]
     (∀ x ∈ l, windowTakes s x.1 = true ∧ heldByLong s (wordNeed x.1) = false) ∧ firstRefused s 0 l = none ∧ (writeAll 0 l s).2.isSome = true) ∧
    (let s := { up with boot := { up.boot with sfdpOk := true } }
     xipOn s = true ∧ flashBusy s = false ∧ xipLine 130 ∉ s.xip.lines ∧ (∀ l ∈ s.xip.filling, l.1 ≠ xipLine 130) ∧
      xipLine 130 ∈ [xipLine 130] ∧ xipOn { s with xip := { s.xip with lines := [xipLine 130] } } = true) ∧
    (let s := { up with xip := { up.xip with filling := [(128, true)], lines := [0, 64, 192, 256] } }
     s.xip.filling.find? (fun l => l.1 == xipLine 130) = some (128, true)) := by decide +kernel

/-- A device whose boot runs at a stage. -/
def boots (n : BitVec 3) : State := { stage n with boot := { (stage n).boot with romLoader := true } }

theorem witness_StartUp :
    State.reset.boot.por = true ∧ up.boot.por = false ∧
    (∀ st : BitVec 3, bootRuns (stage st) st.toNat = true) ∧
    (let s := { boots 0 with sensors := up.sensors.map fun x => { x with compReleased := true } }
     bootRuns s 0 = true ∧ (∀ k : Fin 24, s.sensors[k].compReleased = true) ∧ (∀ m : Fin 12, m.val < 5 → s.smons[m].released = true) ∧
      isSet s (gCSPCFG 0) 0 = false ∧ isSet (putWord s (gCSPCFG 0) 1) (gCSPCFG 0) 0 = true) ∧
    (let s := { stage 3 with flash := { (stage 3).flash with firmware := some { fwImage with partnerMin := 0, partnerMax := 0xFFFF } } }
     let x := { fwImage with kind := 1, payloadLen := 144, partnerMin := 0, partnerMax := 0xFFFF }
     patchResultOf s (some x) = 0 ∧ patchResultOf s (some { x with gcmOk := false }) = 5) ∧
    (fwResultOf (stage 2) (some fwImage) = 0 ∧ fwResultOf (stage 2) (some { fwImage with sigOk := false }) ≠ 0) ∧
    (let s := { boots 6 with boot := { (boots 6).boot with patchResult := 0, reload := true } }
     let x := { fwImage with partnerMin := 0, partnerMax := 0xFFFF }
     bootRuns s 6 = true ∧ s.boot.reload = true ∧ isSet s (gCSPCFG 0) 0 = false ∧ fwResultOf s (some x) = 0 ∧
      x.partnerMin.toNat ≤ patchLevel s ∧ patchLevel s ≤ x.partnerMax.toNat) ∧
    (let s := stage 4
     s.smons[(10 : Fin 12)].released = true ∧ s.smons[(11 : Fin 12)].released = true ∧ s.smons[(5 : Fin 12)].released = true ∧
      s.smons[(6 : Fin 12)].released = true) ∧
    (foxReady up = true ∧ Live up) := by decide +kernel

theorem witness_StartUp_clock :
    (let s := putWord { up with boot := { up.boot with refclk := true, resonator := true } } gCLKCFG 1
     isSet s gCLKCFG 0 = true ∧ s.boot.refclk = true ∧ s.boot.resonator = true ∧ ∀ r : RidgeId, runs s r = false) ∧
    (up.boot.por = false ∧ up.sensors[(0 : Fin 24)].broken = false) ∧
    (let s := putWord { up with boot := { up.boot with refclk := true, resonator := false } } gCLKCFG 2
     s.boot.resonator = false ∧ s.boot.refclk = true ∧ isSet s gCLKCFG 1 = true) := by decide +kernel

/-- The core sensor is one of 24, whatever its number: no sensor of the device is broken. -/
theorem witness_StartUp_core : up.sensors[Config.coreSensor].broken = false := by
  have : ∀ k : Fin 24, up.sensors[k].broken = false := by decide +kernel
  exact this Config.coreSensor

/-- A sensor, Owl and a monitor in a condition. -/
def sensor (f : Sensor → Sensor) (s : State) : State := modSensor s 23 f
def owl (f : Owl → Owl) (s : State) : State := { s with owl := f s.owl }
def hot : State := sensor (fun x => { x with value := 1000 }) later_

theorem witness_MonitorsEventsAndResets_thermal :
    (up.boot.por = false ∧ up.sensors[(23 : Fin 24)].broken = false ∧
      (modSensor (sensor (fun x => { x with bad := 2 }) up) 23 fun x => { x with bad := x.bad + 1 }).sensors[(23 : Fin 24)].bad = 3) ∧
    (let s := { sensor (fun x => { x with broken := true }) up with ticks := 2 ^ 31 }
     s.sensors[(23 : Fin 24)].broken = true ∧ msTicks 1000 ≤ s.ticks - s.sensors[(23 : Fin 24)].goodSince) ∧
    (∀ st ∈ [OwlState.request, .step1], let s := owl (fun o => { o with graceAt := some 0, state := st }) hot
      s.owl.graceAt = some 0 ∧ graceTicks s ≤ s.ticks - 0 ∧ 1000 ≤ thermMax s ∧ s.owl.shutdown = false ∧ s.owl.state = st) ∧
    (let s := owl (fun o => { o with coolAt := some 0, state := .step2, set := 0xC000 }) later_
     s.owl.coolAt = some 0 ∧ graceTicks s ≤ s.ticks - 0 ∧ s.owl.state ≠ .normal ∧ anyBroken s = false ∧ s.owl.shutdown = false ∧
      s.owl.set.getLsbD (14 : RidgeId).val = true) ∧
    (let s := sensor (fun x => { x with compReleased := true }) up
     s.sensors[(23 : Fin 24)].compReleased = true ∧ s.owl.shutdown = false ∧ s.boot.por = false) := by decide +kernel

theorem witness_MonitorsEventsAndResets_supplies :
    (up.smons[(11 : Fin 12)].released = true ∧ up.boot.por = false ∧ up.owl.shutdown = false ∧ up.smons[(11 : Fin 12)].warn = false) ∧
    ((modSmon up 11 fun x => { x with warn := true }).smons[(11 : Fin 12)].warn = true) ∧
    (let s := modSmon later_ 11 fun x => { x with released := false }
     s.smons[(11 : Fin 12)].released = false ∧ s.smons[(11 : Fin 12)].timedOut = false ∧ s.smons[(11 : Fin 12)].resetLow = false ∧
      msTicks 100 ≤ s.ticks - s.boot.since ∧ s.boot.por = false ∧ s.owl.shutdown = false) := by decide +kernel

theorem witness_MonitorsEventsAndResets_events :
    (let s := request up 46 0xD0
     s.owl.shutdown = false ∧ s.boot.por = false ∧ (flightOf s (46 : Fin 47).val).isSome = true) ∧
    (∃ k ∈ List.range 256, nextSrc (raise up k 0) none = some k) ∧ (up.boot.por = false ∧ up.owl.shutdown = false) ∧
    ({ up with boot := { up.boot with hbmUp := true } }).boot.hbmUp = true := by decide +kernel

theorem witness_MonitorsEventsAndResets_recovery :
    (let s := bear .parking later_
     s.bear.state = .parking ∧ usTicks (field s gFAULTPARK 15 0) ≤ s.ticks - s.bear.parkAt) ∧
    (let s := { later_ with bear := { later_.bear with state := .safe, quietAt := some 0 } }
     s.bear.state = .safe ∧ s.bear.quietAt = some 0 ∧ msTicks (field s gFAULTCFG 13 0) ≤ s.ticks - 0 ∧ s.owl.shutdown = false ∧
      windowCount s < field s gFAULTCFG 21 14 ∧ s.bear.noRecovery = false) ∧
    (let s := { later_ with bear := { later_.bear with state := .safe, quietAt := some 0, noRecovery := true } }; s.bear.noRecovery = true) ∧
    (let s := { later_ with bear := { later_.bear with recoveries := List.replicate 8 (2 ^ 30) } }
     field s gFAULTCFG 21 14 ≤ windowCount s) ∧
    (let s := bear .recovering up; s.bear.state = .recovering ∧ s.owl.shutdown = false) ∧
    (let s := ridge14 (fun x => { x with inReset := true }) later_
     s.ridges[(14 : RidgeId)].inReset = true ∧ usTicks 10 ≤ s.ticks - s.ridges[(14 : RidgeId)].holdSince) := by decide +kernel

/-! ### The spec's own numbers -/

/-- The APG of chapter 2's worked example of a write and a read, with X given. -/
def apgExample (x : BitVec 24) : Apg :=
  ((((((((State.reset.ridges[(7 : RidgeId)].apg.load 2 3).load 3 0).load 5 0x31).load 6 3).load 7 0x49).load 8 0x0C2001).load 24 0x0C0080).load
    25 0x0CD931).load 0 x

/-- Table 2-12: lanes 0 to 5 at X 0 to 3, and the wrap of X and Y. -/
theorem test_apg_example :
    ([0, 1, 2, 3].map fun x => ([0, 1, 2, 3, 4, 5] : List (Fin 16)).map (apgExample x).laneBit) =
      [[false, false, true, true, false, false], [false, true, false, false, true, true],
       [true, false, true, true, false, false], [true, true, false, false, true, true]] ∧
    (let a := (apgExample 3).oper 0x49 true true; (a.x, a.y) = (0, 0)) ∧
    (let a := (apgExample 1).oper 0x49 true true; (a.x, a.y) = (2, 0)) := by decide +kernel

/-- Tables 4-4 and 4-5: the 2.5 ns set passes the checks, and its period is 3,840 fine units. -/
def setExample : SetRecord :=
  ⟨0x000C0002, 0x31, 0,
    [([0, 0, 0x780, 0, 0, 0], 0), ([0, 0x3C0, 0xB40, 0, 0, 0], 0), ([0, 0x500, 0xA00, 0, 0, 0], 0), ([0, 0, 0x200, 0, 0x1200, 0x159A], 0)] ++
      List.replicate 12 ([0, 0, 0x200, 0, 0, 0], 0)⟩

theorem test_set_example :
    recordOk setExample = true ∧ 1024 * ((setOf setExample).nMinus1.toNat + 1) + (setOf setExample).fine.toNat = 3840 ∧
    recordOk { setExample with lanes := setExample.lanes.set 1 ([0, 0x3C0, 0xF00, 0, 0, 0], 0) } = false := by decide +kernel

/-- The worked example of a FREQ result (chapter 8): b, a and rms. -/
theorem test_freq_example : fit [3, 15358, 30720, 46084, 61439, 76796] = (1006580531, 32, 47) := by decide +kernel

/-- R240 at SEED 0: positions 0 and 1. -/
theorem test_frame_order : frameAt up 0 = 0x00440 ∧ frameAt up 1 = 0x8043F := by decide +kernel

/-- Table 14-9: the slot and the label that each save takes. -/
theorem test_slot_rotation :
    let save := fun (f : Flash) (g : Word) => { f with slots := f.slots.set (saveSlot f) (some ⟨saveLabelB f, g, snapshot up⟩) }
    let f0 := up.flash
    let f1 := save f0 1
    let f2 := save f1 2
    let f3 := save f2 3
    ([f0, f1, f2, f3].map fun f => ((saveSlot f).val, saveLabelB f, topGeneration f)) =
      [(0, false, 0), (1, true, 1), (2, false, 2), (0, true, 3)] ∧
    copyOf f3 false = some 2 ∧ copyOf f3 true = some 1 ∧ newerIsB f3 = false := by decide +kernel

/-- Item 1 of chapter 18's worked example: APT_TRIG_LEVEL of port 11. -/
theorem test_word_index : aptW 11 0x0B = 0x176B ∧ rdgW 9 0x02 = 0x1242 ∧ pinW 165 7 = 0x0A57 := by decide +kernel

/-- Item 5 of it: the PARAM_WRITE_MULTI is refused whole, and its first bad pair is 1. -/
theorem test_write_multi :
    let l := [(0x1242, 0), (0x1003, 0)]
    (writeAll 0 l up).2.map (·.1) = some 1 := by decide +kernel

/-- Chapter 1's worked example: one second and half a tick. -/
theorem test_launch_time : ticksFu 1500000000 + 0x200 = (0x165A0BC0200 : T64) ∧ coarse 0x165A0BC0200 = 1500000000 := by decide +kernel

end Sys2Proof.Tests
end

section
/-! SUPPORT. Every command keeps the site map disjoint (R10): a command leaves the sites as they were, empties them (R389, R424),
or stores a site that it has checked against the others (R288, R353). -/

namespace Sys2Proof.Machine

/-- The sites alone decide whether they are disjoint. -/
theorem SitesDisjoint.of_quiet {s u : State} (h : SitesDisjoint s) (e : (quiet u).sites = (quiet s).sites) : SitesDisjoint u := by
  have e' : u.sites = s.sites := e
  intro j k hjk
  rw [e']
  exact h j k hjk

theorem sitesDisjoint_of_empty {s : State} (h : s.sites = Vector.replicate 64 0) : SitesDisjoint s := by
  intro j k _
  rw [h]
  simp

/-- A site that meets no other may be stored. -/
theorem SitesDisjoint.set {s : State} (h : SitesDisjoint s) (k : Fin 64) (m : BitVec 256)
    (hm : ∀ j : Fin 64, j ≠ k → s.sites[j] &&& m = 0#256) : SitesDisjoint { s with sites := s.sites.set k m } := by
  have get : ∀ j : Fin 64, (s.sites.set k m)[j] = if j = k then m else s.sites[j] := by
    intro j
    rcases eq_or_ne j k with rfl | hj
    · simp
    · simp [hj, Fin.val_ne_of_ne (Ne.symm hj)]
  intro i j hij
  simp only [get]
  split <;> rename_i hi
  · rw [if_neg (fun e => hij (hi.trans e.symm)), BitVec.and_comm]
    exact hm j (fun e => hij (hi.trans e.symm))
  · split
    · exact hm i hi
    · exact h i j hij

/-! ### Resets -/

theorem sitesDisjoint_hostReset {s : State} (h : SitesDisjoint s) (z : Straps) : SitesDisjoint (hostReset s z) := by
  unfold hostReset
  split
  · exact h
  · have empty : SitesDisjoint State.reset := sitesDisjoint_of_empty rfl
    exact empty.of_quiet (by simp [quiet_mk, quiet_proj])

theorem sitesDisjoint_porNAssert (s : State) : SitesDisjoint (porNAssertEffect s) := sitesDisjoint_of_empty rfl

/-! ### Writes of parameter words -/

theorem sitesDisjoint_act {s : State} (h : SitesDisjoint s) (i v : Nat) : SitesDisjoint (act s i v) := by
  by_cases hi : i = 0x1948
  · subst hi
    have e : act s 0x1948 v = if bit v 0 then hostReset s s.boot.straps else s := rfl
    rw [e]
    split
    · exact sitesDisjoint_hostReset h _
    · exact h
  · exact h.of_quiet (by simp [hi])

theorem sitesDisjoint_applyWord {s : State} (h : SitesDisjoint s) (i v : Nat) : SitesDisjoint (applyWord s i v) := by
  obtain ⟨-, -, -, -, -, hsites, -⟩ := most_applyWord s i v
  exact h.of_quiet hsites

theorem sitesDisjoint_writeEffect {s : State} (h : SitesDisjoint s) (i v : Nat) : SitesDisjoint (writeEffect s i v) := by
  unfold writeEffect
  split
  · exact h
  · dsimp only
    split
    · exact h
    · exact h
    · exact h.of_quiet (by simp)
    · exact sitesDisjoint_act h _ _
    all_goals
      have ha := sitesDisjoint_applyWord h i (v &&& ‹WordInfo›.mask)
      have hq := quiet_accessInject (applyWord s i (v &&& ‹WordInfo›.mask)) 26
      split
      all_goals exact ha.of_quiet (by simp [quiet_eq2 hq ‹_›])

theorem sitesDisjoint_tryWrite {s : State} (h : SitesDisjoint s) (i v : Nat) : SitesDisjoint (tryWrite s i v).1 := by
  unfold tryWrite
  split
  · exact h
  · exact sitesDisjoint_writeEffect h _ _

theorem sitesDisjoint_writeAll {s : State} (h : SitesDisjoint s) (k : Nat) (l : List (Nat × Nat)) :
    SitesDisjoint (writeAll k l s).1 := by
  induction l generalizing k s with
  | nil => exact h
  | cons e es ih =>
    obtain ⟨i, v⟩ := e
    have h1 := sitesDisjoint_tryWrite h i v
    unfold writeAll
    split
    · next t e => rw [e] at h1; exact ih h1 _
    · next t st e => rw [e] at h1; exact h1

theorem sitesDisjoint_packetWrites {s : State} (h : SitesDisjoint s) (hd : Hdr) (op : Nat) (l : List (Nat × Nat)) :
    SitesDisjoint (packetWrites hd op l s) := by
  have h1 := sitesDisjoint_writeAll h 0 l
  unfold packetWrites
  split
  · exact h.of_quiet (by simp)
  · split
    · exact h.of_quiet (by simp)
    · next t e =>
      rw [e] at h1
      split
      · exact h1
      · exact h1.of_quiet (by simp)

theorem sitesDisjoint_applyTimed {s : State} (h : SitesDisjoint s) (x : Timed) : SitesDisjoint (applyTimed s x) := by
  have h0 : SitesDisjoint { s with link := { s.link with timed := s.link.timed.erase x } } := h
  have h1 := sitesDisjoint_tryWrite h0 x.index x.value.toNat
  unfold applyTimed
  dsimp only
  split
  · next t e => rw [e] at h1; exact h1.of_quiet (by simp)
  · next t st e => rw [e] at h1; exact h1.of_quiet (by simp)

theorem sitesDisjoint_timedWriteApply {s : State} (h : SitesDisjoint s) : SitesDisjoint (timedWriteApplyEffect s) := by
  unfold timedWriteApplyEffect
  split
  · exact h
  · split
    · exact h
    · exact sitesDisjoint_applyTimed h _

theorem sitesDisjoint_applyOverdue {s : State} (h : SitesDisjoint s) (n : Nat) : SitesDisjoint (applyOverdue n s) := by
  induction n generalizing s with
  | zero => exact h
  | succ n ih =>
    unfold applyOverdue
    split
    · exact h
    · split
      · exact ih (sitesDisjoint_applyTimed h _)
      · exact h

/-- A packet keeps the sites disjoint when its body does. -/
theorem sitesDisjoint_command {s : State} (h : SitesDisjoint s) {hd : Hdr} {w : Row} {need : List Need} {body : State → State}
    (hb : ∀ u, SitesDisjoint u → SitesDisjoint (body u)) : SitesDisjoint (command s hd w need body) :=
  command_ind SitesDisjoint (fun _ e => h.of_quiet (by rw [e])) (fun u e => hb u (h.of_quiet (by rw [e])))

theorem sitesDisjoint_paramWrite {s : State} (h : SitesDisjoint s) (hd : Hdr) (i : BitVec 16) (v : Word) :
    SitesDisjoint (paramWriteEffect hd i v s) := by
  refine sitesDisjoint_command h fun u hu => ?_
  split
  · exact hu.of_quiet (by simp)
  · exact sitesDisjoint_packetWrites hu _ _ _

theorem sitesDisjoint_paramWriteMulti {s : State} (h : SitesDisjoint s) (hd : Hdr) (n : BitVec 16)
    (l : List (BitVec 16 × Word)) : SitesDisjoint (paramWriteMultiEffect hd n l s) := by
  refine sitesDisjoint_command h fun u hu => ?_
  split
  · exact hu.of_quiet (by simp)
  · split
    · exact hu.of_quiet (by simp)
    · exact sitesDisjoint_packetWrites hu _ _ _

theorem sitesDisjoint_windowWrite {s : State} (h : SitesDisjoint s) (i v : Nat) : SitesDisjoint (windowWrite s i v) := by
  have h1 := sitesDisjoint_tryWrite h i v
  unfold windowWrite
  split
  · exact h
  · split
    · exact h.of_quiet (by simp)
    · split
      · next t e => rw [e] at h1; exact h1.of_quiet (by simp)
      · next t st e => rw [e] at h1; exact h1.of_quiet (by simp)

theorem sitesDisjoint_slaveApply {s : State} (h : SitesDisjoint s) (n : Fin 2) (a : Nat) (ws : List Nat) :
    SitesDisjoint (slaveApply s n a ws) := by
  have h1 := sitesDisjoint_writeAll h 0 (ws.zipIdx.map fun x => (a + x.2, x.1))
  unfold slaveApply
  dsimp only
  split
  · exact h
  · split
    · exact h.of_quiet (by simp)
    · split
      · next t e => rw [e] at h1; exact h1.of_quiet (by simp)
      · exact h.of_quiet (by simp)

theorem sitesDisjoint_cspWriteApply {s : State} (h : SitesDisjoint s) (n : Fin 2) : SitesDisjoint (cspWriteApplyEffect n s) := by
  unfold cspWriteApplyEffect
  split
  · exact h
  · next a ws _ => exact (sitesDisjoint_slaveApply h n a.toNat (ws.map fun w => w.toNat)).of_quiet (by simp)

theorem sitesDisjoint_regWrite {s : State} (h : SitesDisjoint s) (p : Path) (i : Nat) (v : Word) :
    SitesDisjoint (regWrite p i v s) := by
  cases p with
  | packet hd => exact sitesDisjoint_paramWrite h _ _ _
  | window => exact sitesDisjoint_windowWrite h _ _
  | slave n => exact sitesDisjoint_slaveApply h _ _ _
  | bar0 off => exact h
  | config off => exact h

theorem sitesDisjoint_hostResetEffect {s : State} (h : SitesDisjoint s) (p : Option Path) (z : Straps) :
    SitesDisjoint (hostResetEffect p z s) := by
  unfold hostResetEffect
  split
  · exact sitesDisjoint_regWrite h _ _ _
  · split
    · exact h
    · exact sitesDisjoint_hostReset h _

theorem sitesDisjoint_bar0Write {s : State} (h : SitesDisjoint s) (off : Nat) (v : Word) : SitesDisjoint (bar0Write s off v) := by
  unfold bar0Write
  split
  · exact h
  · split
    · exact sitesDisjoint_windowWrite h _ _
    · exact h.of_quiet (by (repeat' split) <;> simp)

theorem sitesDisjoint_registerWrite {s : State} (h : SitesDisjoint s) (p : Path) (loc : RegLoc) (v : Word) :
    SitesDisjoint (registerWriteEffect p loc v s) := by
  unfold registerWriteEffect
  split
  · exact sitesDisjoint_regWrite h _ _ _
  · split
    · exact sitesDisjoint_bar0Write h _ _
    · exact h
  · split
    · exact h.of_quiet (by simp)
    · exact h

/-! ### Recovery -/

theorem sitesDisjoint_recover {s : State} (h : SitesDisjoint s) : SitesDisjoint (recover s) := by
  unfold recover
  dsimp only
  refine sitesDisjoint_applyOverdue (h.of_quiet ?_) _
  simp [quiet_mk, quiet_proj]

theorem sitesDisjoint_quietPeriodEnd {s : State} (h : SitesDisjoint s) : SitesDisjoint (quietPeriodEndEffect s) := by
  unfold quietPeriodEndEffect
  split
  · split
    · exact h
    · split
      · exact h
      · exact sitesDisjoint_recover h
  · exact h

/-! ### SITE_MAP and the retained state -/

theorem sitesDisjoint_siteMap {s : State} (h : SitesDisjoint s) (hd : Hdr) (site : Byte) (clear : Bool) (mask : BitVec 256) :
    SitesDisjoint (siteMapEffect hd site clear mask s) := by
  refine sitesDisjoint_command h fun u hu => ?_
  split
  · exact hu.of_quiet (by simp)
  · next k _ =>
    generalize (if clear then 0#256 else mask) = m
    dsimp only
    split
    · exact hu.of_quiet (by simp)
    · next free =>
      split
      · exact hu.of_quiet (by simp)
      · have hm : ∀ j : Fin 64, j ≠ k → u.sites[j] &&& m = 0#256 := by simpa using free
        exact (hu.set k m hm).of_quiet (by simp)

/-- One site of step 4 of R353. -/
def applySite (m : Vector (BitVec 256) 64) (s : State) (k : Fin 64) : State :=
  if (List.finRange 64).any fun j => decide (j < k) && (s.sites[j] &&& m[k]) != 0 then
    { s with boot := { s.boot with rsiRefused := true } }
  else { s with sites := s.sites.set k m[k] }

theorem applySites_eq (s : State) (m : Vector (BitVec 256) 64) :
    applySites s m = each (List.finRange 64) (applySite m) { s with sites := Vector.replicate 64 0 } := rfl

/-- A site changes no other one. -/
theorem applySite_other (m : Vector (BitVec 256) 64) (s : State) {k j : Fin 64} (h : j ≠ k) :
    (applySite m s k).sites[j] = s.sites[j] := by
  unfold applySite
  split
  · rfl
  · simp [Fin.val_ne_of_ne (Ne.symm h)]

/-- A site that meets no lower one may be stored while the sites above it are empty. -/
theorem sitesDisjoint_applySite {s : State} (h : SitesDisjoint s) (m : Vector (BitVec 256) 64) (k : Fin 64)
    (empty : ∀ j, k < j → s.sites[j] = 0#256) : SitesDisjoint (applySite m s k) := by
  unfold applySite
  split
  · exact h
  · next free =>
    refine h.set k m[k] fun j hj => ?_
    rcases lt_or_gt_of_ne hj with hlt | hgt
    · have free' : ∀ j : Fin 64, j < k → s.sites[j] &&& m[k] = 0#256 := by simpa using free
      exact free' j hlt
    · rw [empty j hgt, BitVec.zero_and]

/-- Sites taken in ascending order stay disjoint. -/
theorem sitesDisjoint_each_applySite (m : Vector (BitVec 256) 64) (l : List (Fin 64)) (s : State) (h : SitesDisjoint s)
    (ascending : l.Pairwise (· < ·)) (empty : ∀ k ∈ l, ∀ j, k ≤ j → s.sites[j] = 0#256) :
    SitesDisjoint (each l (applySite m) s) := by
  induction l generalizing s with
  | nil => exact h
  | cons k l ih =>
    obtain ⟨below, rest⟩ := List.pairwise_cons.mp ascending
    refine ih _ (sitesDisjoint_applySite h m k fun j hj => empty k (by simp) j (le_of_lt hj)) rest fun q hq j hj => ?_
    have hkj : k < j := lt_of_lt_of_le (below q hq) hj
    rw [applySite_other m s hkj.ne']
    exact empty k (by simp) j hkj.le

theorem sitesDisjoint_applySites (s : State) (m : Vector (BitVec 256) 64) : SitesDisjoint (applySites s m) := by
  rw [applySites_eq]
  exact sitesDisjoint_each_applySite m _ _ (sitesDisjoint_of_empty rfl) (List.pairwise_lt_finRange 64) (by simp)

theorem sitesDisjoint_applyImage (s : State) (i : Retained) : SitesDisjoint (applyImage s i) := by
  unfold applyImage
  extract_lets boot sets sites
  have h : SitesDisjoint sites := sitesDisjoint_applySites sets i.sites
  clear_value sites
  exact h.of_quiet (by simp [quiet_mk, quiet_proj])

theorem sitesDisjoint_appliedImage (s : State) (i : Retained) (source : BitVec 2) (gen : Nat) (j : Option Retained) :
    SitesDisjoint (imageApplied (applyImage s i) source gen j) :=
  (sitesDisjoint_applyImage s i).of_quiet (by simp)

theorem sitesDisjoint_restoreState {s : State} (h : SitesDisjoint s) (hd : Hdr) (source : Byte) (crcOk : Bool) :
    SitesDisjoint (restoreStateEffect hd source crcOk s) := by
  refine sitesDisjoint_command h fun u hu => ?_
  dsimp only
  split
  · exact hu.of_quiet (by simp)
  · split
    · exact hu.of_quiet (by simp)
    · split
      · exact hu.of_quiet (by simp)
      · split
        · exact hu.of_quiet (by simp)
        · have e : ∀ t, (quiet (replyDone (dpsPowerUp t) hd 0x09 0)).sites = (quiet t).sites := by simp
          exact (sitesDisjoint_appliedImage _ _ _ _ _).of_quiet (e _)

theorem sitesDisjoint_rsiApply {s : State} (h : SitesDisjoint s) (newerOk otherOk : Bool) :
    SitesDisjoint (rsiApplyEffect newerOk otherOk s) := by
  unfold rsiApplyEffect
  split
  · exact h
  · dsimp only
    split
    · next x _ => exact (sitesDisjoint_applyImage s x.image).of_quiet (by simp [quiet_mk, quiet_proj])
    · exact h.of_quiet (by simp [quiet_mk, quiet_proj])

end Sys2Proof.Machine
end

section
/-! The standing invariant: every command and every tick keeps it (R10, R131, R162, R288, R346, R353, R371). -/

namespace Sys2Proof.Machine

/-- What the effect of a command keeps; the safe state comes with the standing conditions that follow it. -/
def Keeps (s u : State) : Prop := (Canonical s → Canonical u) ∧ (SitesDisjoint s → SitesDisjoint u)

/-- A command that leaves the sites as they were. -/
theorem Keeps.of_quiet {s u : State} (hc : Canonical s → Canonical u) (e : (quiet u).sites = (quiet s).sites) : Keeps s u :=
  ⟨hc, fun h => h.of_quiet e⟩

/-- A booking that meets the injections on the ticket table and on Marten (R390) has canonical stores. -/
@[simp] theorem canon_booking {s t : State} (hs : Canonical s) (ht : Canonical t) :
    Canonical (martenWrite s (ticketWrite s t)) :=
  canon_martenWrite s _ hs (canon_ticketWrite s t hs ht)

/-- Every command answers the state of its effect with the standing conditions in force, and the effect keeps the stores
canonical and the sites disjoint. Eleven commands may write the site map; the others leave it alone. -/
theorem exec_keeps (c : Instr) (s : State) : ∃ u, exec c s = .next (after s u) ∧ Keeps s u := by
  cases c
  case paramWrite hd i v =>
    exact ⟨_, done_eq s _, canon_paramWriteEffect hd i v s, fun h => sitesDisjoint_paramWrite h hd i v⟩
  case paramWriteMulti hd n l =>
    exact ⟨_, done_eq s _, canon_paramWriteMultiEffect hd n l s, fun h => sitesDisjoint_paramWriteMulti h hd n l⟩
  case registerWrite p loc v =>
    exact ⟨_, done_eq s _, canon_registerWriteEffect p loc v s, fun h => sitesDisjoint_registerWrite h p loc v⟩
  case hostReset p z =>
    exact ⟨_, done_eq s _, canon_hostResetEffect p z s, fun h => sitesDisjoint_hostResetEffect h p z⟩
  case timedWriteApply =>
    exact ⟨_, done_eq s _, canon_timedWriteApplyEffect s, fun h => sitesDisjoint_timedWriteApply h⟩
  case cspWriteApply n =>
    exact ⟨_, done_eq s _, canon_cspWriteApplyEffect n s, fun h => sitesDisjoint_cspWriteApply h n⟩
  case quietPeriodEnd =>
    exact ⟨_, done_eq s _, canon_quietPeriodEndEffect s, fun h => sitesDisjoint_quietPeriodEnd h⟩
  case restoreState hd src ok =>
    exact ⟨_, done_eq s _, canon_restoreStateEffect hd src ok s, fun h => sitesDisjoint_restoreState h hd src ok⟩
  case rsiApply a b =>
    exact ⟨_, done_eq s _, canon_rsiApplyEffect a b s, fun h => sitesDisjoint_rsiApply h a b⟩
  case siteMap hd k cl m =>
    exact ⟨_, done_eq s _, canon_siteMapEffect hd k cl m s, fun h => sitesDisjoint_siteMap h hd k cl m⟩
  case porNAssert =>
    exact ⟨_, done_eq s _, canon_porNAssertEffect s, fun _ => sitesDisjoint_porNAssert s⟩
  all_goals
    refine ⟨_, done_eq s _, .of_quiet (fun h => ?canonical) ?sites⟩
    case canonical => simp [h]
    case sites => simp

/-- The state after a command meets the invariant when its effect has canonical stores and disjoint sites. -/
theorem inv_after {s u : State} (hc : Canonical u) (hd : SitesDisjoint u) : Inv (after s u) := by
  refine ⟨safe_after s u, ?_, fun j k hjk => ?_⟩
  · simpa [Canonical, after] using hc
  · simpa [after] using hd j k hjk

theorem exec_inv {c : Instr} (s : State) {t : State} (hc : Canonical s) (hd : SitesDisjoint s) (e : exec c s = .next t) : Inv t := by
  obtain ⟨u, he, keepsC, keepsD⟩ := exec_keeps c s
  rw [he] at e
  cases e
  exact inv_after (keepsC hc) (keepsD hd)

/-! ### What a step does -/

/-- A command of the table at the front of the queue runs. -/
theorem step_of_front {s : State} {c : Instr} {rest : List Instr} (h : s.pending = c :: rest) :
    step s = if c.wellFormed then exec c { s with pending := rest } else .fault .illFormed := by
  simp only [step, h]

/-- With nothing pending, the oldest command that Badger has taken runs. -/
theorem step_of_taken {s : State} {c : Instr} {cs : List Instr} (h : s.pending = []) (hi : s.link.inbox = c :: cs) :
    step s = exec c { s with link := { s.link with inbox := cs } } := by
  simp only [step, h, hi]

/-- With nothing to run, a tick passes. -/
theorem step_of_idle {s : State} (h : s.pending = []) (hi : s.link.inbox = []) : step s = .next (after s (clockTick s)) := by
  simp only [step, h, hi, done_eq]

/-- Settles O4: SAFE and OFF are brought about after every command, and every effect keeps the stores canonical and the sites
disjoint. -/
theorem invariantKept : Obligations.InvariantKept := by
  intro s t ⟨_, hc, hd⟩ e
  cases hp : s.pending with
  | cons c rest =>
    rw [step_of_front hp] at e
    split at e
    · exact exec_inv { s with pending := rest } hc hd e
    · cases e
  | nil =>
    cases hi : s.link.inbox with
    | cons c cs =>
      rw [step_of_taken hp hi] at e
      exact exec_inv { s with link := { s.link with inbox := cs } } hc hd e
    | nil =>
      rw [step_of_idle hp hi] at e
      cases e
      exact inv_after (canon_clockTick s hc) (hd.of_quiet (by simp))

theorem reset_pin (p : PinId) : State.reset.pins[p] = Pin.reset := by simp [State.reset]

theorem reset_supply (n : RidgeId) : State.reset.dps[n] = Dps.reset := by simp [State.reset]

/-- Settles O5: every pin and every supply is in its reset state, which is safe. -/
theorem resetInvariant : Obligations.ResetInvariant := by
  refine ⟨⟨fun p _ => ?_, fun n _ => ?_⟩, canon_reset, sitesDisjoint_of_empty rfl⟩
  · rw [reset_pin]; exact ⟨rfl, rfl, rfl, rfl⟩
  · rw [reset_supply]; exact ⟨rfl, rfl⟩

end Sys2Proof.Machine
end

section
/-! SUPPORT. The words of the parameter map under a write and a read: refusals, effects, and what stays as it was (R6, R7, R285). -/

namespace Sys2Proof.Machine

/-! ### Why a write is refused -/

theorem writeRefusal_reserved {s : State} {i v : Nat} (h : wordInfo i = none) : writeRefusal s i v = some BAD_PARAM := by
  simp only [writeRefusal, h]

theorem writeRefusal_outOfRange {s : State} {i v : Nat} {w : WordInfo} (h : wordInfo i = some w)
    (ha : w.access = .rw ∨ w.access = .rwl) (hs : staticOk i (v &&& w.mask) = false) : writeRefusal s i v = some BAD_PARAM := by
  rcases ha with ha | ha <;> simp [writeRefusal, h, ha, hs]

/-- A checked value of a word that is locked while its owner runs. -/
theorem writeRefusal_rwl {s : State} {i v : Nat} {w : WordInfo} (h : wordInfo i = some w) (ha : w.access = .rwl)
    (hs : staticOk i (v &&& w.mask) = true) :
    writeRefusal s i v = if ownerRuns s i then some BUSY else stateRefusal s i (v &&& w.mask) := by
  simp [writeRefusal, h, ha, hs]

theorem writeRefusal_unchecked {s : State} {i v : Nat} {w : WordInfo} (h : wordInfo i = some w)
    (ha : w.access = .ro ∨ w.access = .rc ∨ w.access = .w1c) : writeRefusal s i v = none := by
  rcases ha with ha | ha | ha <;> simp [writeRefusal, h, ha]

theorem ownerRuns_pinW (s : State) (p : PinId) {k : Nat} (h : k < 16) : ownerRuns s (pinW p k) = runs s (pinRidge p) := by
  simp only [ownerRuns, locate_pinW p k h, ofNat_pinRidge]

theorem ownerRuns_rdgW (s : State) (r : RidgeId) {k : Nat} (h : k < 64) : ownerRuns s (rdgW r k) = runs s r := by
  simp only [ownerRuns, locate_rdgW r k h, ofNat_ridge]

theorem ownerRuns_dpsW (s : State) (n : RidgeId) {k : Nat} (h : k < 32) : ownerRuns s (dpsW n k) = runs s n := by
  simp only [ownerRuns, locate_dpsW n k h, ofNat_ridge]

/-- RDG_SLOT_QUOTA of a ridge that does not run, within the 3,072 slots, is judged by the sum and the binding alone (R82). -/
theorem writeRefusal_quota {s : State} {r : RidgeId} {v : Nat} (hv : v ≤ 3072) (hr : runs s r = false) :
    writeRefusal s (rdgW r 0x10) v = if quotaOk s r v then none else some BAD_PARAM := by
  have hi : wordInfo (rdgW r 0x10) = some ⟨.rwl, 192, 0xFFF⟩ := wordInfo_rdgW r 0x10 (by decide)
  have hm : v &&& 0xFFF = v := by
    rw [show (0xFFF : Nat) = 2 ^ 12 - 1 from rfl, Nat.and_two_pow_sub_one_eq_mod]
    omega
  have hs : staticOk (rdgW r 0x10) (v &&& 0xFFF) = true := by simp [staticOk, hm, hv]
  rw [writeRefusal_rwl hi rfl hs, ownerRuns_rdgW s r (by decide), hr, hm]
  simp [stateRefusal]

theorem quotaOk_eq (s : State) (r : RidgeId) (v : Nat) :
    quotaOk s r v = (decide ((allRidges.map fun q => if q = r then v else quota s q).sum ≤ 3072) &&
      decide (requirement s r + s.ridges[r].pins.length ≤ v)) := by
  simp only [quotaOk, List.sum_eq_foldl, List.foldl_map]

/-! ### What a write does -/

theorem writeEffect_readOnly {s : State} {i v : Nat} {w : WordInfo} (h : wordInfo i = some w)
    (ha : w.access = .ro ∨ w.access = .rc) : writeEffect s i v = s := by
  rcases ha with ha | ha <;> simp [writeEffect, h, ha]

/-- A stored word takes the writable bits of the value, where no injection meets the write. -/
theorem writeEffect_stored (s : State) {i : Nat} (v : Nat) {w : WordInfo} (h : wordInfo i = some w)
    (ha : w.access = .rw ∨ w.access = .rwl) (hj : injectOn (applyWord s i (v &&& w.mask)) 26 = none) :
    writeEffect s i v = applyWord s i (v &&& w.mask) := by
  rcases ha with ha | ha <;> simp [writeEffect, h, ha, accessInject, hj]

/-- Nothing but the parameter map differs. -/
def OnlyParams (s t : State) : Prop := t = { s with params := t.params }

theorem OnlyParams.refl (s : State) : OnlyParams s s := rfl

theorem OnlyParams.putWord {s t : State} (h : OnlyParams s t) (i v : Nat) : OnlyParams s (putWord t i v) := by
  rw [h]; rfl

theorem OnlyParams.setBits {s t : State} (h : OnlyParams s t) (i m : Nat) : OnlyParams s (setBits t i m) := h.putWord ..

theorem OnlyParams.injectOn {s t : State} (h : OnlyParams s t) (b : Fin 64) : injectOn t b = injectOn s b := by rw [h]; rfl

theorem word_setBits_other (s : State) {i j : Nat} (m : Nat) (h : j ≠ i) : word (setBits s i m) j = word s j :=
  word_putWord_other s i j _ h

/-! ### Pin levels (R139 to R143) -/

theorem onlyParams_markSat {s t : State} (h : OnlyParams s t) (p : PinId) (l : List Nat) : OnlyParams s (markSat t p l) := by
  unfold markSat
  split
  · exact h.setBits ..
  · exact h

theorem word_markSat_other (s : State) (p : PinId) (l : List Nat) {i : Nat} (h : i ≠ pinW p 15) :
    word (markSat s p l) i = word s i := by
  unfold markSat
  split
  · exact word_setBits_other s 4 h
  · rfl

theorem onlyParams_pinLevelWrite (s : State) (p : PinId) (w v : Nat) : OnlyParams s (pinLevelWrite s p w v) := by
  have h := onlyParams_markSat ((OnlyParams.refl s).putWord (pinW p w) v) p [w - 1]
  unfold pinLevelWrite
  dsimp only
  split
  · exact h.setBits ..
  · exact h

/-- Of the words other than the pin's status, a level write moves the written one alone. -/
theorem word_pinLevelWrite (s : State) (p : PinId) (w v : Nat) {i : Nat} (h : i ≠ pinW p 15) :
    word (pinLevelWrite s p w v) i = word (putWord s (pinW p w) v) i := by
  unfold pinLevelWrite
  dsimp only
  split
  · rw [word_setBits_other _ 8 h, word_markSat_other _ p _ h]
  · rw [word_markSat_other _ p _ h]

/-- The ten level words of Table 5-13: read and written, 16 bits. -/
theorem pinWord_level {w : Nat} (h1 : 1 ≤ w) (h2 : w ≤ 10) : ∃ d, pinWord w = some ⟨.rw, d, 0xFFFF⟩ := by
  interval_cases w <;> exact ⟨_, rfl⟩

theorem applyWord_pinLevel (s : State) (p : PinId) {w : Nat} (v : Nat) (h1 : 1 ≤ w) (h2 : w ≤ 10) :
    applyWord s (pinW p w) v = pinLevelWrite s p w v := by
  have hl : locate (pinW p w) = (.pin, p.val, w) := locate_pinW p w (by omega)
  have h0 : w ≠ 0 := by omega
  simp only [applyWord, hl, ofNat_pin, pinWrite, if_neg h0, if_pos h2]

/-- A pin word other than its status reads as it is stored. -/
theorem readValue_pinW (s : State) (p : PinId) {k : Nat} {x : WordInfo} (hk : k < 15) (hx : pinWord k = some x)
    (ha : x.access ≠ .wo) : readValue s (pinW p k) = word s (pinW p k) := by
  have hl : locate (pinW p k) = (.pin, p.val, k) := locate_pinW p k (by omega)
  have hi : wordInfo (pinW p k) = some x := by rw [wordInfo_pinW p k (by omega), hx]
  have h15 : k ≠ 15 := by omega
  simp only [readValue, hi, if_neg ha, hl, if_neg h15]

theorem pinW_ne {p : PinId} {k m : Nat} (h : k ≠ m) : pinW p k ≠ pinW p m := by
  unfold pinW; omega

/-! ### Reads (R7, R8, R401) -/

/-- A row of the map that reads clear, if any, resets to 0. -/
def ClearsToZero (row : Option WordInfo) : Prop := ∀ w, row = some w → w.access = .rc → w.reset = 0

theorem pinWord_clears (k : Nat) : ClearsToZero (pinWord k) := by
  unfold pinWord; split <;> simp [ClearsToZero]

theorem ridgeWord_clears (k : Nat) : ClearsToZero (ridgeWord k) := by
  unfold ridgeWord; split <;> simp [ClearsToZero]

theorem dpsWord_clears (k : Nat) : ClearsToZero (dpsWord k) := by
  unfold dpsWord; split <;> simp [ClearsToZero]

theorem portWord_clears (k : Nat) : ClearsToZero (portWord k) := by
  unfold portWord; split <;> simp [ClearsToZero]

theorem globalWord_clears (k : Nat) : ClearsToZero (globalWord k) := by
  unfold globalWord; (repeat' split) <;> simp [ClearsToZero]

theorem wordInfo_clears (i : Nat) : ClearsToZero (wordInfo i) := by
  unfold wordInfo
  split
  · intro w h; cases h
  · split
    · exact pinWord_clears _
    · exact ridgeWord_clears _
    · exact dpsWord_clears _
    · exact portWord_clears _
    · exact globalWord_clears _

/-- The low half of a 64-bit counter is no RC word. -/
theorem access_of_isLow {i : Nat} {w : WordInfo} (hl : isLow i = true) (h : wordInfo i = some w) : w.access ≠ .rc := by
  simp only [isLow, Bool.or_eq_true, Bool.and_eq_true, decide_eq_true_eq, beq_iff_eq] at hl
  rcases hl with ((⟨⟨hlo, hhi⟩, hm⟩ | rfl) | rfl) | rfl
  · have hr : wordInfo i = ridgeWord ((i - 0x1000) % 64) := by
      simp only [wordInfo, locate]
      rw [if_neg (by omega), if_neg (by omega), if_pos hhi]
    have hk : (i - 0x1000) % 64 = 0x1A := by omega
    rw [hr, hk] at h
    cases h; decide
  all_goals cases h; decide

/-- The snapshot that an access path holds for an index. -/
abbrev heldFor (s : State) (k i : Nat) : Option (Nat × Nat × Word) :=
  s.link.snaps.find? fun x => decide (x.1 = k ∧ x.2.1 = i)

theorem readWord_held {s : State} {k i : Nat} {x : Nat × Nat × Word} (h : heldFor s k i = some x) :
    readWord s k i =
      (x.2.2, { s with link := { s.link with snaps := s.link.snaps.filter fun y => !decide (y.1 = k ∧ y.2.1 = i) } }) := by
  simp only [readWord, h]

theorem readWord_low {s : State} {k i : Nat} (h : heldFor s k i = none) (hl : isLow i = true) :
    readWord s k i = (BitVec.ofNat 32 (readValue s i), { s with link := { s.link with snaps :=
      (s.link.snaps.filter fun y => !decide (y.1 = k ∧ y.2.1 = i + 1)) ++
        [(k, i + 1, BitVec.ofNat 32 (readValue s (i + 1)))] } }) := by
  simp only [readWord, h, hl, if_true]

theorem readWord_plain {s : State} {k i : Nat} (h : heldFor s k i = none) (hl : isLow i = false) :
    readWord s k i = (BitVec.ofNat 32 (readValue s i), clearOnRead s i) := by
  simp only [readWord, h, hl, Bool.false_eq_true, if_false]

/-- With no snapshot held, a word reads as its value before the read. -/
theorem readWord_value {s : State} {k i : Nat} (h : heldFor s k i = none) :
    (readWord s k i).1 = BitVec.ofNat 32 (readValue s i) := by
  cases hl : isLow i with
  | true => rw [readWord_low h hl]
  | false => rw [readWord_plain h hl]

theorem readValue_reserved {s : State} {i : Nat} (h : wordInfo i = none) : readValue s i = 0 := by
  simp only [readValue, h]

theorem readValue_wo {s : State} {i : Nat} {w : WordInfo} (h : wordInfo i = some w) (ha : w.access = .wo) : readValue s i = 0 := by
  simp only [readValue, h, if_pos ha]

/-- A read of a stored RC word leaves it at its reset value. -/
theorem word_readWord_rc {s : State} {k i : Nat} {w : WordInfo} (hc : Canonical s) (h : wordInfo i = some w)
    (ha : w.access = .rc) (h1 : i ≠ 0x1917) (h2 : i ≠ 0x1951) (hf : heldFor s k i = none) :
    word (readWord s k i).2 i = w.reset := by
  have hl : isLow i = false := by
    cases hl : isLow i with
    | true => exact absurd ha (access_of_isLow hl h)
    | false => rfl
  have he : clearOnRead s i = putWord s i w.reset := by simp [clearOnRead, h, ha, h1, h2]
  rw [readWord_plain hf hl, he, word_putWord_same _ _ _ hc.p, wordInfo_clears i w h ha, Nat.zero_mod]

/-- A read that neither clears nor takes a snapshot changes nothing. -/
theorem readWord_state {s : State} {k i : Nat} {w : WordInfo} (h : wordInfo i = some w) (ha : w.access ≠ .rc)
    (hl : isLow i = false) (hf : heldFor s k i = none) : (readWord s k i).2 = s := by
  rw [readWord_plain hf hl]
  simp [clearOnRead, h, ha]

/-- A snapshot that has been dropped is not found again. -/
theorem find?_dropped (l : List (Nat × Nat × Word)) (k i : Nat) :
    (l.filter fun y => !decide (y.1 = k ∧ y.2.1 = i)).find? (fun x => decide (x.1 = k ∧ x.2.1 = i)) = none := by
  refine List.find?_eq_none.mpr fun x hx => ?_
  simpa only [Bool.not_eq_true', Bool.not_eq_true] using (List.mem_filter.mp hx).2

/-- After a read of a low half the path holds the high half as it was. -/
theorem heldFor_of_low {s t : State} {k i : Nat} (hl : isLow i = true) (hf : heldFor s k i = none)
    (ht : t.link.snaps = (readWord s k i).2.link.snaps) :
    heldFor t k (i + 1) = some (k, i + 1, BitVec.ofNat 32 (readValue s (i + 1))) := by
  rw [readWord_low hf hl] at ht
  rw [heldFor, ht, List.find?_append, find?_dropped]
  simp

/-- A read uses a snapshot up. -/
theorem heldFor_after_held {s : State} {k i : Nat} {x : Nat × Nat × Word} (h : heldFor s k i = some x) :
    heldFor (readWord s k i).2 k i = none := by
  rw [readWord_held h]
  exact find?_dropped ..

end Sys2Proof.Machine
end

section
/-! The statements about the words of the map. -/

namespace Sys2Proof.Machine

/-- Settles O13, from the equation of each cause of a refusal. -/
theorem writeRefusals : Obligations.WriteRefusals := by
  refine ⟨fun s i v h => writeRefusal_reserved h, fun s i v w h ha hs => writeRefusal_outOfRange h ha hs, ?pin, ?ridge, ?dps,
    ?readOnly, fun s i v w h ha => writeRefusal_unchecked h (.inr (.inr ha)), ?sum, ?binding⟩
  case pin =>
    intro s p k v w hk h ha hs hr
    rw [writeRefusal_rwl h ha hs, ownerRuns_pinW s p hk, if_pos hr]
  case ridge =>
    intro s r k v w hk h ha hs hr
    rw [writeRefusal_rwl h ha hs, ownerRuns_rdgW s r hk, if_pos hr]
  case dps =>
    intro s n k v w hk h ha hs hr
    rw [writeRefusal_rwl h ha hs, ownerRuns_dpsW s n hk, if_pos hr]
  case readOnly =>
    intro s i v w h ha
    exact ⟨writeRefusal_unchecked h (ha.imp_right .inl), writeEffect_readOnly h ha⟩
  case sum =>
    intro s r v hv hr hsum
    rw [writeRefusal_quota hv hr, quotaOk_eq, decide_eq_false (by omega)]
    simp
  case binding =>
    intro s r v hv hr hb
    rw [writeRefusal_quota hv hr, quotaOk_eq, decide_eq_false (not_le_of_gt hb)]
    simp

/-- Settles O14: the write is the level write of its pin, whose words other than PIN_STATUS are those of one stored word. -/
theorem pinLevelsReadBack : Obligations.PinLevelsReadBack := by
  intro s p w v h1 h2 _ hc hj
  obtain ⟨d, hx⟩ := pinWord_level h1 h2
  have hi : wordInfo (pinW p w) = some ⟨.rw, d, 0xFFFF⟩ := by rw [wordInfo_pinW p w (by omega), hx]
  have only := onlyParams_pinLevelWrite s p w (v.toNat &&& 0xFFFF)
  have he : writeEffect s (pinW p w) v.toNat = pinLevelWrite s p w (v.toNat &&& 0xFFFF) := by
    have stored := writeEffect_stored s v.toNat hi (.inl rfl)
    simp only [applyWord_pinLevel s p _ h1 h2] at stored
    exact stored ((only.injectOn 26).trans hj)
  have hm : v.toNat &&& 0xFFFF = v.toNat % 65536 := Nat.and_two_pow_sub_one_eq_mod v.toNat 16
  dsimp only
  rw [he]
  refine ⟨?_, fun i hiw hi15 => ?_, only⟩
  · rw [readValue_pinW _ p (by omega) hx nofun, word_pinLevelWrite s p w _ (pinW_ne (by omega)),
      word_putWord_same _ _ _ hc.p, hm]
    omega
  · rw [word_pinLevelWrite s p w _ hi15, word_putWord_other _ _ _ _ hiw]

/-- Settles O19. -/
theorem readSemantics : Obligations.ReadSemantics := by
  refine ⟨fun s k i hf => readWord_value hf, fun s i h => readValue_reserved h, fun s i w h ha => readValue_wo h ha,
    fun s k i w hc h ha h1 h2 hf => word_readWord_rc hc h ha h1 h2 hf, fun s k i w h ha hl hf => readWord_state h ha hl hf, ?_⟩
  intro s t k i hl hf ht
  have held := heldFor_of_low hl hf ht
  exact ⟨by rw [readWord_held held], heldFor_after_held held⟩

end Sys2Proof.Machine
end

section
/-! SUPPORT. The tick of the base clock, and the step of an empty queue (R12, R22, log entry 1). -/

namespace Sys2Proof.Machine

/-- An operation that leaves the state alone for every element leaves it alone. -/
theorem each_of_idle {α : Type} {f : State → α → State} {s : State} (l : List α) (h : ∀ a, f s a = s) : each l f s = s := by
  unfold each
  induction l with
  | nil => rfl
  | cons a l ih => rw [List.foldl_cons, h, ih]

/-- A port that neither plays nor acquires does nothing in a tick. -/
theorem tickPort_idle {s : State} {n : RidgeId} (hp : s.ports[n].awg = none) (ha : s.ports[n].acq = none) : tickPort s n = s := by
  have h : awgRun s n = s := by simp only [awgRun, hp]
  simp only [tickPort, h, adcTick, ha]

/-- A ridge that does not run, with no stream armed, does nothing in a tick. -/
theorem tickRidge_idle {s : State} {r : RidgeId} (hr : s.ridges[r].st ≠ .running) (hs : s.ridges[r].stream = none) :
    tickRidge s r = s := by
  have h : vecEnd s r = s := by simp only [vecEnd, if_pos (Or.inl hr)]
  have ha : dueAnchor s r s.now = s := by simp only [dueAnchor, hs]
  simp only [tickRidge, h, settleStream, ha, hs]

/-- With no frame to be acknowledged the ring links do nothing in a tick. -/
theorem ackTick_idle {s : State} (h : s.ring.outbox = []) (portB : Bool) : ackTick s portB = s := by
  simp only [ackTick, oldestFrame, h, List.find?_nil]

theorem clockTick_por {s : State} (h : s.boot.por = true) : clockTick s = { s with ticks := s.ticks + 1 } := by
  simp only [clockTick, h, if_true]

/-- The counters of a tick: T64 by 1,024 fine units, the timers by one. -/
def counted (s : State) : State := { s with now := s.now + 1024, ticks := s.ticks + 1 }

@[simp] theorem counted_fields (s : State) :
    (counted s).now = s.now + 1024 ∧ (counted s).ticks = s.ticks + 1 ∧ (counted s).sites = s.sites ∧
    (counted s).flash = s.flash ∧ (counted s).owl = s.owl ∧ (counted s).ridges = s.ridges ∧ (counted s).ports = s.ports ∧
    (counted s).ring = s.ring := by
  simp only [counted, and_self]

theorem clockTick_running {s : State} (h : s.boot.por = false) :
    clockTick s = each [false, true] ackTick (each allRidges tickRidge (each allRidges tickPort (counted s))) := by
  simp only [clockTick, h, Bool.false_eq_true, if_false, counted]

/-- Where nothing is under way a tick counts and does nothing else. -/
theorem clockTick_idle {s : State} (hp : s.boot.por = false) (ho : s.ring.outbox = [])
    (hr : ∀ r : RidgeId, s.ridges[r].st ≠ .running) (hs : ∀ r : RidgeId, s.ridges[r].stream = none)
    (hw : ∀ n : RidgeId, s.ports[n].awg = none) (ha : ∀ n : RidgeId, s.ports[n].acq = none) : clockTick s = counted s := by
  have ports : each allRidges tickPort (counted s) = counted s :=
    each_of_idle _ fun n => tickPort_idle (by simpa using hw n) (by simpa using ha n)
  have ridges : each allRidges tickRidge (counted s) = counted s :=
    each_of_idle _ fun r => tickRidge_idle (by simpa using hr r) (by simpa using hs r)
  have links : each [false, true] ackTick (counted s) = counted s :=
    each_of_idle _ fun b => ackTick_idle (by simpa using ho) b
  rw [clockTick_running hp, ports, ridges, links]

/-- While the clock runs, a tick moves no quiet component but its counters. -/
theorem quiet_clockTick_running {s : State} (hp : s.boot.por = false) : quiet (clockTick s) = quiet (counted s) := by
  rw [clockTick_running hp]
  simp

/-- The standing conditions move no quiet component. -/
theorem after_of_quiet (s : State) {u v : State} (e : quiet u = quiet v) :
    (after s u).now = v.now ∧ (after s u).ticks = v.ticks ∧ (after s u).sites = v.sites ∧ (after s u).flash = v.flash ∧
      (after s u).owl = v.owl := by
  have e' : quiet (settle u) = quiet v := (quiet_settle u).trans e
  exact ⟨congrArg Quiet.now e', congrArg Quiet.ticks e', congrArg Quiet.sites e', congrArg Quiet.flash e',
    congrArg Quiet.owl e'⟩

/-- Settles O2. -/
theorem stepOnEmptyQueue : Obligations.StepOnEmptyQueue := by
  refine ⟨fun s c cs h hi => step_of_taken h hi, ?_, ?_, ?_⟩
  · intro s h hi hp
    obtain ⟨now, ticks, sites, flash, owl⟩ := after_of_quiet s (quiet_clockTick_running hp)
    obtain ⟨hnow, hticks, hsites, hflash, howl, -⟩ := counted_fields s
    exact ⟨_, step_of_idle h hi, now.trans hnow, ticks.trans hticks, sites.trans hsites, flash.trans hflash, owl.trans howl, h⟩
  · intro s h hi hp idle ho
    have e := clockTick_idle hp ho (fun r => (idle r).1) (fun r => (idle r).2.1) (fun r => (idle r).2.2.1)
      (fun r => (idle r).2.2.2)
    rw [step_of_idle h hi, e, counted]
  · intro s h hi hp
    rw [step_of_idle h hi, clockTick_por hp]

end Sys2Proof.Machine
end

section
/-! SUPPORT. Records and replies that leave for host memory (R2, R11, R294, R301, R377). -/

namespace Sys2Proof.Machine

/-! ### Records -/

@[simp] theorem length_leBytes (n v : Nat) : (leBytes n v).length = n := by
  induction n generalizing v with
  | zero => rfl
  | succ n ih => simp [leBytes, ih]

@[simp] theorem length_padTo (n : Nat) (l : List Byte) : (padTo n l).length = n := by
  simp only [padTo, List.length_append, List.length_take, List.length_replicate]
  omega

/-- What a byte string begins with stays, cut or padded behind it. -/
theorem take_padTo {n k : Nat} (l : List Byte) (hk : k ≤ n) (hl : k ≤ l.length) : (padTo n l).take k = l.take k := by
  have h : k ≤ (l.take n).length := by simp [hk, hl]
  rw [padTo, List.take_append_of_le_length h, List.take_take, Nat.min_eq_left hk]

theorem length_logEntry (e : LogEntry) : e.bytes.length = 32 := by simp [LogEntry.bytes]

theorem length_identifyRecord (s : State) : (identifyRecord s).length = 64 := length_padTo ..

theorem take_identifyRecord (s : State) : (identifyRecord s).take 4 = leBytes 4 0x72640042 := by
  unfold identifyRecord
  rw [take_padTo _ (by decide) (by simp)]
  simp [List.append_assoc]

theorem length_faultRecord (s : State) : (faultRecord s).length = 32 + 32 * s.bear.log.length := by
  have h : (s.bear.log.flatMap LogEntry.bytes).length = 32 * s.bear.log.length := by
    simp [List.length_flatMap, length_logEntry, Nat.mul_comm]
  simp only [faultRecord, List.length_append, length_leBytes, h]

theorem take_faultRecord (s : State) : (faultRecord s).take 8 = leBytes 8 s.bear.latch.toNat := by
  simp [faultRecord, List.append_assoc]

/-! ### Reply data (R294, R301) -/

/-- Over the own link the data goes to host memory, and the reply follows. -/
theorem dataReply_own {s : State} (h : Hdr) (op addr : Nat) (data : List Byte) (hv : viaSummit s = false) :
    dataReply s h op addr data = replyDone { s with host := hostPut s.host addr data } h op data.length := by
  have hw : dmaWrite s addr data = { s with host := hostPut s.host addr data } := by simp [dmaWrite, hv]
  have hv' : viaSummit { s with host := hostPut s.host addr data } = false := hv
  simp only [dataReply, hw, hv', Bool.false_and, Bool.false_eq_true, if_false]

/-- While the Summit is reachable, the reply follows the data at once. -/
theorem dataReply_reachable {s : State} (h : Hdr) (op addr : Nat) (data : List Byte)
    (hr : reachable (dmaWrite s addr data) 0 = true) :
    dataReply s h op addr data = replyDone (dmaWrite s addr data) h op data.length := by
  simp only [dataReply, hr, Bool.not_true, Bool.and_false, Bool.false_eq_true, if_false]

/-! ### Admitted packets -/

/-- An admitted packet ends in what its body leaves. -/
theorem done_command {s : State} {h : Hdr} {w : Row} {need : List Need} {body : State → State} (ha : Admitted s h w need) :
    done s (command s h w need body) = .next (after s (body (ensureTaken s h w.op))) := by
  rw [command_admitted ha, done_eq]

/-- A command that refuses an address that is not 8-aligned does so, and else runs. -/
theorem done_aligned {s : State} {h : Hdr} {w : Row} {need : List Need} (bad good : State → State) {a : Nat}
    (ha : Admitted s h w need) :
    let u := ensureTaken s h w.op
    let run := done s (command s h w need fun u => if a % 8 ≠ 0 then bad u else good u)
    (a % 8 ≠ 0 → run = .next (after s (bad u))) ∧ (a % 8 = 0 → run = .next (after s (good u))) :=
  ⟨fun hb => (done_command ha).trans (by rw [if_pos hb]), fun hg => (done_command ha).trans (by rw [if_neg (by omega)])⟩

/-- Settles O43: the three commands differ in their record alone. -/
theorem hostRecords : Obligations.HostRecords := by
  refine ⟨fun s h addr ha => ?identify, fun s h addr data ha => ?echo, fun n l => length_padTo n l, fun s h addr ha => ?faultRead,
    fun s h op addr data => ?reply,
    fun s => ⟨length_identifyRecord s, take_identifyRecord s, length_faultRecord s, take_faultRecord s⟩⟩
  case identify =>
    exact done_aligned (fun u => refuse u h 0x01 BAD_PARAM 0)
      (fun u => dataReply u h 0x01 addr.toNat (identifyRecord u)) ha
  case echo =>
    exact done_aligned (fun u => refuse u h 0x7F BAD_PARAM 0)
      (fun u => dataReply u h 0x7F addr.toNat (padTo (16 * (h.length.toNat - 2)) data)) ha
  case faultRead =>
    exact done_aligned (fun u => refuse u h 0x50 BAD_PARAM 0)
      (fun u => dataReply u h 0x50 addr.toNat (faultRecord u)) ha
  case reply =>
    exact ⟨dataReply_own h op addr data, fun _ _ hr => dataReply_reachable h op addr data hr⟩

end Sys2Proof.Machine
end

section
/-! SUPPORT. The rows that write one parameter word, on each path that carries them (R7, R287, R290, R327). -/

namespace Sys2Proof.Machine

/-! ### One word on one path -/

theorem tryWrite_accepted {s : State} {i v : Nat} (h : writeRefusal s i v = none) : tryWrite s i v = (writeEffect s i v, none) := by
  simp only [tryWrite, h]

theorem tryWrite_refused {s : State} {i v st : Nat} (h : writeRefusal s i v = some st) : tryWrite s i v = (s, some st) := by
  simp only [tryWrite, h]

theorem firstRefused_single (s : State) (i v : Nat) : firstRefused s 0 [(i, v)] = (writeRefusal s i v).map fun st => (0, st) := by
  cases h : writeRefusal s i v <;> simp [firstRefused, h]

theorem writeAll_single {s : State} {i v : Nat} (h : writeRefusal s i v = none) :
    writeAll 0 [(i, v)] s = (writeEffect s i v, none) := by
  simp only [writeAll, tryWrite_accepted h]

/-! ### The window (R290) -/

theorem windowWrite_notTaken {s : State} {i : Nat} (v : Nat) (h : windowTakes s i = false) : windowWrite s i v = s := by
  simp [windowWrite, h]

theorem windowWrite_held {s : State} {i : Nat} (v : Nat) (h : windowTakes s i = true) (hl : heldByLong s (wordNeed i) = true) :
    windowWrite s i v = putWord s gWINERR (i % 8192 + BUSY * 2 ^ 16 + 2 ^ 31) := by
  simp [windowWrite, h, hl]

theorem windowWrite_accepted {s : State} {i v : Nat} (h : windowTakes s i = true) (hl : heldByLong s (wordNeed i) = false)
    (hr : writeRefusal s i v = none) : windowWrite s i v = serveWaits (writeEffect s i v) := by
  simp [windowWrite, h, hl, tryWrite_accepted hr]

theorem windowWrite_refused {s : State} {i v st : Nat} (h : windowTakes s i = true) (hl : heldByLong s (wordNeed i) = false)
    (hr : writeRefusal s i v = some st) : windowWrite s i v = putWord s gWINERR (i % 8192 + st * 2 ^ 16 + 2 ^ 31) := by
  simp [windowWrite, h, hl, tryWrite_refused hr]

/-! ### A packet (R287) -/

/-- The index of a PARAM_WRITE is that of the map's 13 bits. -/
theorem paramWrite_index (h : Hdr) (i : BitVec 16) (v : Word) (s : State) :
    paramWriteEffect h (BitVec.ofNat 16 (i.toNat % 8192)) v s = paramWriteEffect h i v s := by
  have e : (BitVec.ofNat 16 (i.toNat % 8192)).toNat % 8192 = i.toNat % 8192 := by
    rw [BitVec.toNat_ofNat]; omega
  unfold paramWriteEffect
  rw [e]

/-- An admitted PARAM_WRITE without launch word is a body of one write. -/
theorem paramWrite_admitted {s : State} {h : Hdr} {i : Nat} {v : Word} (hi : i < 8192) (hl : h.launchAt = none)
    (ha : Admitted s h ⟨0x02, 2, .none, true, true, true, false⟩ (wordNeed i)) :
    paramWriteEffect h (BitVec.ofNat 16 i) v s = packetWrites h 0x02 [(i, v.toNat)] (ensureTaken s h 0x02) := by
  have e : (BitVec.ofNat 16 i).toNat % 8192 = i := by
    rw [BitVec.toNat_ofNat]; omega
  have need : ([(i, v.toNat)].flatMap fun x => wordNeed x.1) = wordNeed i := by simp
  unfold paramWriteEffect
  simp only [e, need]
  rw [show row 0x02 2 .none = ⟨0x02, 2, .none, false, false, true, false⟩ from rfl, command_admitted ha]
  simp [startTime, hl]

theorem packetWrites_refused {s : State} {i v st : Nat} (h : Hdr) (hr : writeRefusal s i v = some st) :
    packetWrites h 0x02 [(i, v)] s = refuse s h 0x02 st 0 := by
  simp [packetWrites, firstRefused_single, hr, pairInfo]

theorem packetWrites_hostReset {s : State} {i v : Nat} (h : Hdr) (hr : writeRefusal s i v = none)
    (hh : isHostReset s (i, v) = true) : packetWrites h 0x02 [(i, v)] s = writeEffect s i v := by
  simp [packetWrites, firstRefused_single, hr, writeAll_single hr, hh]

theorem packetWrites_accepted {s : State} {i v : Nat} (h : Hdr) (hr : writeRefusal s i v = none)
    (hh : isHostReset s (i, v) = false) : packetWrites h 0x02 [(i, v)] s =
      doneWhen (writeEffect s i v) h 0x02 (waitsFor i) (changedWords s (writeEffect s i v)) := by
  simp [packetWrites, firstRefused_single, hr, writeAll_single hr, hh]

/-! ### A slave port (R327) -/

theorem slaveApply_notTaken {s : State} {i : Nat} (n : Fin 2) (v : Nat) (h : windowTakes s i = false) :
    slaveApply s n i [v] = s := by
  simp [slaveApply, h]

theorem slaveApply_accepted {s : State} {i v : Nat} (n : Fin 2) (h : windowTakes s i = true)
    (hl : heldByLong s (wordNeed i) = false) (hr : writeRefusal s i v = none) :
    slaveApply s n i [v] = serveWaits (writeEffect s i v) := by
  simp [slaveApply, h, hl, firstRefused_single, hr, writeAll_single hr]

theorem slaveApply_refused {s : State} {i v : Nat} (n : Fin 2) (h : windowTakes s i = true)
    (hr : heldByLong s (wordNeed i) = true ∨ ∃ st, writeRefusal s i v = some st) : slaveApply s n i [v] = slaveRefused s n := by
  rcases hr with hl | ⟨st, hr⟩
  · simp [slaveApply, h, hl]
  · simp [slaveApply, h, firstRefused_single, hr]

/-! ### The rows of registers -/

theorem index_of_regRow {c : Instr} {p : Path} {i : Nat} {v : Word} (h : regRow c = some (p, i, v)) : i < 8192 := by
  unfold regRow at h
  split at h <;> cases h
  case h_1 => exact Nat.mod_lt _ (by decide)
  case h_2 => exact BitVec.isLt _
  all_goals simp [pinW, dpsW, aptW, rdgW, gMARTENCFG] <;> omega

/-- Each of these rows is the write of its word on its path. -/
theorem exec_of_regRow {c : Instr} {p : Path} {i : Nat} {v : Word} (s : State) (h : regRow c = some (p, i, v)) :
    exec c s = .next (after s (regWrite p i v s)) := by
  unfold regRow at h
  split at h <;> cases h
  case h_1 => exact congrArg (done s) (paramWrite_index _ _ _ s).symm
  all_goals rfl

/-- Settles O12: each row is the write of its word on its path, and a path that carries one word has these outcomes. -/
theorem registerRows : Obligations.RegisterRows := by
  refine ⟨?window, ?packet, ?slave⟩
  case window =>
    intro c i v s h
    have e : exec c s = .next (after s (windowWrite s i v.toNat)) := exec_of_regRow s h
    refine ⟨fun ht => ?_, fun ht hl => ?_, fun ht hl hr => ?_, fun st ht hl hr => ?_⟩
    · rw [e, windowWrite_notTaken _ ht]
    · rw [e, windowWrite_held _ ht hl]
    · rw [e, windowWrite_accepted ht hl hr]
    · rw [e, windowWrite_refused ht hl hr]
  case packet =>
    intro c hd i v s h hl ha
    have e : exec c s = .next (after s (packetWrites hd 0x02 [(i, v.toNat)] (ensureTaken s hd 0x02))) := by
      rw [exec_of_regRow s h, ← paramWrite_admitted (index_of_regRow h) hl ha]
      rfl
    refine ⟨fun hr hh => ?_, fun hr hh => ?_, fun st hr => ?_⟩
    · rw [e, packetWrites_accepted hd hr hh]
    · rw [e, packetWrites_hostReset hd hr hh]
    · rw [e, packetWrites_refused hd hr]
  case slave =>
    intro c n i v s h
    have e : exec c s = .next (after s (slaveApply s n i [v.toNat])) := exec_of_regRow s h
    refine ⟨fun ht => ?_, fun ht hl hr => ?_, fun ht hr => ?_⟩
    · rw [e, slaveApply_notTaken n _ ht]
    · rw [e, slaveApply_accepted n ht hl hr]
    · rw [e, slaveApply_refused n ht hr]

end Sys2Proof.Machine
end

section
/-! SUPPORT. PARAM_READ on each of its paths (R7, R8, R290, R328, R329, R408). -/

namespace Sys2Proof.Machine

theorem length_readWords (k n i : Nat) (s : State) : (readWords k n i s).1.length = n := by
  induction n generalizing i s with
  | zero => rfl
  | succ n ih => simp [readWords, ih]

theorem exec_paramRead (p : Path) (first count : BitVec 16) (addr : BitVec 64) (s : State) :
    exec (.paramRead p first count addr) s = .next (after s (paramReadEffect p first count addr s)) := rfl

/-! ### With POR_N high each path does its own read -/

section
variable {s : State} (hp : s.boot.por = false) (first count : BitVec 16) (addr : BitVec 64)
include hp

theorem paramRead_packet (h : Hdr) : paramReadEffect (.packet h) first count addr s = packetRead h first count addr s := by
  simp only [paramReadEffect, hp, Bool.false_eq_true, if_false]

theorem paramRead_window : paramReadEffect .window first count addr s = windowReadEffect first.toNat s := by
  simp only [paramReadEffect, hp, Bool.false_eq_true, if_false]

theorem paramRead_slave (n : Fin 2) :
    paramReadEffect (.slave n) first count addr s = slaveReadEffect n count.toNat first.toNat s := by
  simp only [paramReadEffect, hp, Bool.false_eq_true, if_false]

theorem paramRead_bar0 (off : BitVec 21) : paramReadEffect (.bar0 off) first count addr s = bar0ReadEffect off.toNat s := by
  simp only [paramReadEffect, hp, Bool.false_eq_true, if_false]

theorem paramRead_config (off : BitVec 12) :
    paramReadEffect (.config off) first count addr s = configReadEffect off.toNat s := by
  simp only [paramReadEffect, hp, Bool.false_eq_true, if_false]

end

/-- While POR_N is low no path reads anything. -/
theorem paramRead_por {s : State} (hp : s.boot.por = true) (p : Path) (first count : BitVec 16) (addr : BitVec 64) :
    paramReadEffect p first count addr s = s := by
  simp only [paramReadEffect, hp, if_true]

/-! ### A packet (R408) -/

/-- COUNT, the address or the last word is out of its range. -/
def badRead (i n a : Nat) : Prop := n = 0 ∨ 256 < n ∨ a % 4 ≠ 0 ∨ 0x1A00 < i + n

theorem packetRead_refused {s : State} {h : Hdr} {first count : BitVec 16} {addr : BitVec 64}
    (ha : Admitted s h ⟨0x03, 2, .none, false, false, true, false⟩ [])
    (hb : badRead (first.toNat % 8192) count.toNat addr.toNat) :
    packetRead h first count addr s = refuse (ensureTaken s h 0x03) h 0x03 BAD_PARAM 0 := by
  unfold packetRead
  exact (command_admitted ha).trans (if_pos hb)

theorem packetRead_reads {s : State} {h : Hdr} {first count : BitVec 16} {addr : BitVec 64}
    (ha : Admitted s h ⟨0x03, 2, .none, false, false, true, false⟩ [])
    (hb : ¬badRead (first.toNat % 8192) count.toNat addr.toNat) :
    packetRead h first count addr s =
      (let r := readWords (1 + h.ring.val) count.toNat (first.toNat % 8192) (ensureTaken s h 0x03)
       dataReply r.2 h 0x03 addr.toNat (r.1.flatMap fun w => leBytes 4 w.toNat)) := by
  unfold packetRead
  exact (command_admitted ha).trans (if_neg hb)

/-! ### A slave port (R328, R329) -/

theorem slaveOn_eq {s : State} {n : Fin 2} (hp : s.boot.por = false) (hr : isSet s (gCSPCFG n) 0 = true) : slaveOn s n = true := by
  simp [slaveOn, hp, hr]

/-- The words that can be read before STAGE 6: GLB_ID and GLB_STATUS. -/
def earlyWords (first count : Nat) : Prop := gID ≤ first ∧ first + count ≤ gSTATUS + 1

/-- R329 keeps a frame from its words. -/
def frameTooEarly (s : State) (n : Fin 2) (first count : Nat) : Prop :=
  tooSoon s n 0 = true ∨ (booted s = false ∧ ¬earlyWords first count)

theorem slaveReadEffect_cond (s : State) (n : Fin 2) (first count : Nat) :
    ((tooSoon s n 0 || (!booted s && !(decide (gID ≤ first) && decide (first + count ≤ gSTATUS + 1)))) = true) ↔
      frameTooEarly s n first count := by
  rw [← Bool.decide_and]
  simp [frameTooEarly, earlyWords, imp_iff_not_or]

theorem slaveReadEffect_reads {s : State} {n : Fin 2} {count first : Nat} (hs : slaveOn s n = true)
    (ht : ¬frameTooEarly s n first count) :
    slaveReadEffect n count first s =
      { (slaveWords n count first s).2 with
        link := { (slaveWords n count first s).2.link with cspRead := (slaveWords n count first s).1 } } := by
  unfold slaveReadEffect
  rw [if_neg (by simp [hs])]
  exact if_neg (mt (slaveReadEffect_cond ..).mp ht)

/-- A frame that comes too soon or too early is counted, with NOT_READY and no data. -/
theorem slaveReadEffect_notReady {s : State} {n : Fin 2} {count first : Nat} (hs : slaveOn s n = true)
    (ht : frameTooEarly s n first count) :
    slaveReadEffect n count first s =
      bump (setBits { modCsp s n (fun x => { x with prev := 0x80 }) with link := { s.link with cspRead := [] } }
        (gCSPSTATUS n) 0x400) (gCSPBAD n) 1 := by
  unfold slaveReadEffect
  rw [if_neg (by simp [hs])]
  exact if_pos ((slaveReadEffect_cond ..).mpr ht)

/-- Settles O18: each path's read, with its refusals, from the path's own lemmas. -/
theorem paramReads : Obligations.ParamReads := by
  refine ⟨?packet, fun s h op addr data hv => dataReply_own h op addr data hv, fun n k i s => length_readWords k n i s, ?window,
    ?slave, ?notReady, ?bar0, ?config, ?por⟩
  case packet =>
    intro s h first count addr hp ha
    rw [exec_paramRead, paramRead_packet hp]
    refine ⟨fun hb => ?_, fun h1 h2 h3 h4 => ?_⟩
    · rw [packetRead_refused ha hb]
    · rw [packetRead_reads ha (by unfold badRead; omega)]
  case window =>
    intro s first count addr hp
    rw [exec_paramRead, paramRead_window hp]
    rfl
  case slave =>
    intro s n first count addr hp hr ht hb
    have early : ¬frameTooEarly s n first.toNat count.toNat := by
      rintro (h | ⟨h, hw⟩)
      · rw [ht] at h; cases h
      · exact hb.elim (fun hb => by rw [h] at hb; cases hb) hw
    rw [exec_paramRead, paramRead_slave hp, slaveReadEffect_reads (slaveOn_eq hp hr) early]
  case notReady =>
    intro s n first count addr hp hr hb
    rw [exec_paramRead, paramRead_slave hp, slaveReadEffect_notReady (slaveOn_eq hp hr) hb]
    exact ⟨_, rfl, congrArg Csp.prev (vmod_same s.csps n fun x => { x with prev := 0x80 }), rfl⟩
  case bar0 =>
    intro s off first count addr hp
    rw [exec_paramRead, paramRead_bar0 hp]
  case config =>
    intro s off first count addr hp
    rw [exec_paramRead, paramRead_config hp, configReadEffect]
  case por =>
    intro s p first count addr hp
    rw [exec_paramRead, paramRead_por hp]

end Sys2Proof.Machine
end

section
/-! SUPPORT. What the state after a command keeps of its effect, the body of an admitted packet, and what an event moves. -/

namespace Sys2Proof.Machine

/-! ### The state after a command: the standing conditions move pins and supplies alone -/

theorem after_boot (s u : State) : (after s u).boot = u.boot := by simp only [after, settle_boot]
theorem after_flash (s u : State) : (after s u).flash = u.flash := by simp only [after, settle_flash]
theorem after_working (s u : State) : (after s u).working = u.working := by simp only [after, settle_working]
theorem after_xip (s u : State) : (after s u).xip = u.xip := by simp only [after, settle_xip]
theorem after_bear (s u : State) : (after s u).bear = u.bear := by simp only [after, settle_bear]
theorem after_link (s u : State) : (after s u).link = u.link := by simp only [after, settle_link]
theorem after_ridges (s u : State) : (after s u).ridges = u.ridges := by simp only [after, settle_ridges]

/-- A command whose effect is told by the boot state that it leaves. -/
theorem exec_boot {c : Instr} {s u : State} {b : Boot} (e : exec c s = .next (after s u)) (hb : u.boot = b) :
    ∃ t, exec c s = .next t ∧ t.boot = b :=
  ⟨_, e, (after_boot s u).trans hb⟩

/-! ### Packets and events -/

/-- An admitted packet of an opcode ends in what its body makes of the state in which it is taken. -/
theorem done_command_of_body {s v : State} {h : Hdr} {w : Row} {need : List Need} {body : State → State}
    (op : Nat) (ha : Admitted s h w need) (ho : w.op = op) (hb : body (ensureTaken s h op) = v) :
    done s (command s h w need body) = .next (after s v) := by
  rw [done_command ha, ho, hb]

/-- An event is counted at its source and may ask its col; nothing else of the block moves (R365). -/
theorem raise_eq (s : State) (src payload : Nat) : ∃ e c, raise s src payload = { s with events := e, cols := c } := by
  unfold raise
  dsimp only
  split
  · split
    · exact ⟨_, _, rfl⟩
    · split <;> exact ⟨_, _, rfl⟩
  · exact ⟨_, _, rfl⟩

@[simp] theorem raise_fields (s : State) (src payload : Nat) :
    (raise s src payload).ridges = s.ridges ∧ (raise s src payload).pins = s.pins ∧ (raise s src payload).queues = s.queues := by
  obtain ⟨e, c, h⟩ := raise_eq s src payload
  rw [h]
  exact ⟨rfl, rfl, rfl⟩

theorem raise_boot (s : State) (src payload : Nat) : (raise s src payload).boot = s.boot :=
  congrArg Quiet.boot (quiet_raise s src payload)

end Sys2Proof.Machine
end

section
/-! The packets that Badger does not take (R19, R286, R339, R371, R385). -/

namespace Sys2Proof.Machine

/-- With no ticket issued, no injection on the ticket table is met. -/
theorem ticketWrite_self (s : State) : ticketWrite s s = s := if_pos le_rfl

/-- With no ticket issued and no frame allocated, no injection on Marten's tables is met. -/
theorem martenWrite_self (s : State) : martenWrite s s = s := if_pos ⟨le_rfl, le_rfl⟩

theorem paramRead_notTaken {s : State} {h : Hdr} (first count : BitVec 16) (addr : BitVec 64) (hn : canTake s h = false) :
    paramReadEffect (.packet h) first count addr s = s := by
  cases hp : s.boot.por with
  | true => exact paramRead_por hp ..
  | false =>
    rw [paramRead_packet hp, packetRead]
    exact command_notTaken hn

/-- Each row of Table 11-9 is served by `command`, and a booking that books nothing writes no table. -/
theorem exec_notTaken {c : Instr} {h : Hdr} {w : Row} {s : State} (hp : packetRow c = some (h, w))
    (hn : canTake s h = false) : exec c s = done s s := by
  unfold packetRow at hp
  split at hp <;> cases hp <;> refine congrArg (done s) ?_
  case h_3 => exact paramRead_notTaken _ _ _ hn
  all_goals
    simp only [command_notTaken hn, ticketWrite_self, martenWrite_self, identifyEffect, paramWriteEffect, paramWriteMultiEffect,
      saveStateEffect, restoreStateEffect, segLoadEffect, segReleaseEffect, segPinEffect, segUnpinEffect, progBindEffect,
      timingWriteEffect, timingSwapEffect, launchEffect, haltEffect, eventJumpArmEffect, measureEffect, timeMeasureEffect,
      captureArmEffect, acqArmEffect, queueConfigEffect, queueFlushEffect, eventRouteEffect, siteMapEffect, calRunEffect,
      faultReadEffect, faultClearEffect, faultInjectEffect, ringEnumEffect, syncCalEffect, fwUpdateEffect, echoEffect]

/-- Settles O8: every command packet is served through `command`, which leaves a packet that Badger does not take. -/
theorem packetsNotTaken : Obligations.PacketsNotTaken :=
  fun _ _ _ s hp hn => (exec_notTaken hp hn).trans (done_eq s s)

end Sys2Proof.Machine
end

section
/-! What each command writes of the quiet components (R23, R288, R364, Table 17-5). -/

namespace Sys2Proof.Machine

/-- Of the quiet components, `t` differs from `s` at most in those of the list. -/
def Spares (l : List Comp) (s t : State) : Prop := ∀ k, k ∉ l → k.same s t

/-- The components one by one, in the terms of the frame lemmas. -/
theorem spares_iff (l : List Comp) (s t : State) : Spares l s t ↔
    (.now ∉ l → (quiet t).now = (quiet s).now) ∧ (.ticks ∉ l → (quiet t).ticks = (quiet s).ticks) ∧
    (.boot ∉ l → (quiet t).boot = (quiet s).boot) ∧ (.flash ∉ l → (quiet t).flash = (quiet s).flash) ∧
    (.working ∉ l → (quiet t).working = (quiet s).working) ∧ (.sites ∉ l → (quiet t).sites = (quiet s).sites) ∧
    (.routes ∉ l → (quiet t).routes = (quiet s).routes) ∧ (.cal ∉ l → (quiet t).cal = (quiet s).cal) ∧
    (.sensors ∉ l → (quiet t).sensors = (quiet s).sensors) ∧ (.smons ∉ l → (quiet t).smons = (quiet s).smons) ∧
    (.pmons ∉ l → (quiet t).pmons = (quiet s).pmons) ∧ (.owl ∉ l → (quiet t).owl = (quiet s).owl) ∧
    (.cairn ∉ l → (quiet t).cairn = (quiet s).cairn) ∧ (.csps ∉ l → (quiet t).csps = (quiet s).csps) ∧
    (.xip ∉ l → (quiet t).xip = (quiet s).xip) := by
  constructor
  · intro h
    exact ⟨h .now, h .ticks, h .boot, h .flash, h .working, h .sites, h .routes, h .cal, h .sensors, h .smons, h .pmons, h .owl,
      h .cairn, h .csps, h .xip⟩
  · rintro ⟨now, ticks, boot, flash, working, sites, routes, cal, sensors, smons, pmons, owl, cairn, csps, xip⟩ k hk
    cases k
    exacts [now hk, ticks hk, boot hk, flash hk, working hk, sites hk, routes hk, cal hk, sensors hk, smons hk, pmons hk, owl hk,
      cairn hk, csps hk, xip hk]

/-- A write of a parameter word. -/
theorem Kept.spares {s t : State} (h : Kept s t) : Spares anyWord s t := by
  obtain ⟨ticks, flash, routes, sensors, smons, pmons, owl, -⟩ := h
  simp [spares_iff, anyWord, *]

theorem Spares.after {l : List Comp} {s t : State} (h : Spares l s t) : Spares l s (after s t) := by
  have e : (quiet (Machine.after s t)) = { quiet t with pending := s.pending } := by
    rw [← quiet_settle t]; rfl
  rw [spares_iff] at h ⊢
  rw [e]
  exact h

/-- The AON island's timers and the flash outlive POR_N (R424). -/
@[simp] theorem quiet_porNAssertEffect (s : State) : (quiet (porNAssertEffect s)).ticks = (quiet s).ticks ∧
    (quiet (porNAssertEffect s)).flash = (quiet s).flash := ⟨rfl, rfl⟩

/-- Seven commands may write any parameter word; of the others the frame of each effect says what it writes. -/
theorem exec_spares (c : Instr) (s : State) : ∃ u, exec c s = .next (after s u) ∧ Spares (footprint c) s u := by
  cases c
  case paramWrite h i v => exact ⟨_, done_eq s _, (kept_paramWriteEffect h i v s).spares⟩
  case paramWriteMulti h n l => exact ⟨_, done_eq s _, (kept_paramWriteMultiEffect h n l s).spares⟩
  case registerWrite p loc v => exact ⟨_, done_eq s _, (kept_registerWriteEffect p loc v s).spares⟩
  case hostReset p z => exact ⟨_, done_eq s _, (kept_hostResetEffect p z s).spares⟩
  case timedWriteApply => exact ⟨_, done_eq s _, (kept_timedWriteApplyEffect s).spares⟩
  case cspWriteApply n => exact ⟨_, done_eq s _, (kept_cspWriteApplyEffect n s).spares⟩
  case quietPeriodEnd => exact ⟨_, done_eq s _, (kept_quietPeriodEndEffect s).spares⟩
  all_goals
    refine ⟨_, done_eq s _, ?_⟩
    unfold footprint
    dsimp only
    simp [spares_iff]

/-- Settles O7: the effect of each command spares what its footprint does not name, and the standing conditions move none of
it. -/
theorem footprints : Obligations.Footprints := by
  intro c k s t hk e
  obtain ⟨u, he, spared⟩ := exec_spares c s
  rw [he] at e
  cases e
  exact spared.after k hk

end Sys2Proof.Machine
end

section
/-! PARAM_WRITE_MULTI: the pairs of one packet (R25, R287, R407). -/

namespace Sys2Proof.Machine

/-! ### The pairs of one packet (R287, R407) -/

theorem writeAll_cons_refused {s : State} {i v st : Nat} (k : Nat) (l : List (Nat × Nat)) (h : writeRefusal s i v = some st) :
    writeAll k ((i, v) :: l) s = (s, some (k, st)) := by
  simp only [writeAll, tryWrite_refused h]

theorem writeAll_cons_accepted {s : State} {i v : Nat} (k : Nat) (l : List (Nat × Nat)) (h : writeRefusal s i v = none) :
    writeAll k ((i, v) :: l) s = writeAll (k + 1) l (writeEffect s i v) := by
  simp only [writeAll, tryWrite_accepted h]

/-- The refusal that a check from position `n` on finds is that of the first refused pair. -/
theorem firstRefused_spec {s : State} {l : List (Nat × Nat)} {n m st : Nat} (h : firstRefused s n l = some (m, st)) :
    ∃ k, m = n + k ∧ (∃ x, l[k]? = some x ∧ writeRefusal s x.1 x.2 = some st) ∧
      ∀ j x, j < k → l[j]? = some x → writeRefusal s x.1 x.2 = none := by
  induction l generalizing n with
  | nil => cases h
  | cons p l ih =>
    obtain ⟨i, v⟩ := p
    unfold firstRefused at h
    split at h
    · next st' hr =>
      cases h
      exact ⟨0, rfl, ⟨(i, v), rfl, hr⟩, nofun⟩
    · next hr =>
      obtain ⟨k, rfl, found, before⟩ := ih h
      refine ⟨k + 1, by omega, found, fun j x hj hx => ?_⟩
      cases j with
      | zero => cases hx; exact hr
      | succ j => exact before j x (by omega) hx

theorem pairInfo_multi (k st : Nat) : pairInfo 0x04 k st = if st = BAD_PARAM then k else 0 := by
  simp [pairInfo]

section
variable {s : State} {l : List (Nat × Nat)} (h : Hdr)

theorem packetWrites_firstRefused {k st : Nat} (hf : firstRefused s 0 l = some (k, st)) :
    packetWrites h 0x04 l s = refuse s h 0x04 st (if st = BAD_PARAM then k else 0) := by
  simp only [packetWrites, hf, pairInfo_multi]

/-- A pair that only the pairs before it make refused leaves nothing of them either. -/
theorem packetWrites_laterRefused {k st : Nat} (hf : firstRefused s 0 l = none) (hw : (writeAll 0 l s).2 = some (k, st)) :
    packetWrites h 0x04 l s = refuse s h 0x04 st (if st = BAD_PARAM then k else 0) := by
  have e : writeAll 0 l s = ((writeAll 0 l s).1, some (k, st)) := by rw [← hw]
  rw [packetWrites, hf, e, ← pairInfo_multi]

theorem packetWrites_all (hf : firstRefused s 0 l = none) (hw : (writeAll 0 l s).2 = none)
    (hr : l.any (isHostReset s) = false) : packetWrites h 0x04 l s =
      doneWhen (writeAll 0 l s).1 h 0x04 (l.flatMap fun x => waitsFor x.1) (changedWords s (writeAll 0 l s).1) := by
  have e : writeAll 0 l s = ((writeAll 0 l s).1, none) := by rw [← hw]
  rw [packetWrites, hf, e]
  simp only [hr, Bool.false_eq_true, if_false]

end

section
variable {s : State} {h : Hdr} {count : BitVec 16} {pairs : List (BitVec 16 × Word)}
  (ha : Admitted s h ⟨0x04, 2 + cdiv count.toNat 2, .none, true, true, true, false⟩
    (((pairs.take count.toNat).map fun p => (p.1.toNat % 8192, p.2.toNat)).flatMap fun x => wordNeed x.1))
include ha

/-- A wrong COUNT is refused before any pair is looked at. -/
theorem paramWriteMulti_badCount (hc : count.toNat = 0 ∨ 8192 < count.toNat) :
    exec (.paramWriteMulti h count pairs) s = .next (after s (refuse (ensureTaken s h 0x04) h 0x04 BAD_PARAM 0)) :=
  (done_command ha).trans (by rw [if_pos hc])

theorem paramWriteMulti_untimed (h1 : 1 ≤ count.toNat) (h2 : count.toNat ≤ 8192) (hl : h.launchAt = none) :
    exec (.paramWriteMulti h count pairs) s = .next (after s (packetWrites h 0x04
      ((pairs.take count.toNat).map fun p => (p.1.toNat % 8192, p.2.toNat)) (ensureTaken s h 0x04))) :=
  (done_command ha).trans (by rw [if_neg (by omega)]; simp only [startTime, hl, Option.map_none])

end

/-- Settles O20: a body is one `packetWrites`, whose three outcomes these are. -/
theorem multiIsAtomic : Obligations.MultiIsAtomic := by
  refine ⟨fun s h count pairs hc ha => paramWriteMulti_badCount ha hc, ?untimed, ?first, ?stops, ?continues⟩
  case untimed =>
    intro s h count pairs h1 h2 hl l u ha
    have run := paramWriteMulti_untimed ha h1 h2 hl
    refine ⟨fun k st hf => ?_, fun k st hf hw => ?_, fun hf hw hr => ?_⟩
    · rw [run, packetWrites_firstRefused h hf]
    · rw [run, packetWrites_laterRefused h hf hw]
    · rw [run, packetWrites_all h hf hw hr]
  case first =>
    intro s l k st hf
    obtain ⟨k', rfl, found, before⟩ := firstRefused_spec hf
    rw [Nat.zero_add]
    exact ⟨found, before⟩
  case stops => exact fun i v l k s st hr => writeAll_cons_refused k l hr
  case continues => exact fun i v l k s hr => writeAll_cons_accepted k l hr

end Sys2Proof.Machine
end

section
/-! Timing sets: their writes, their swaps, and what a crossed boundary applies (R103, R107, R110, R112 to R116, R368). -/

namespace Sys2Proof.Machine

/-! ### Swaps (R113, R114, R116) -/

theorem shadow_ne_active (b : Bool) : bankIx (!b) ≠ bankIx b := by
  cases b <;> decide

/-- The banks of a ridge exchange their roles, and the copy to the new shadow bank starts. -/
def Ridge.swapped (x : Ridge) : Ridge := { x with activeBank := !x.activeBank, swapPending := false, copyBusy := true }

/-- The copy to the shadow bank is over. -/
def Ridge.copied (x : Ridge) : Ridge :=
  { x with copyBusy := false, banks := vmod x.banks (bankIx !x.activeBank) fun _ => x.banks[bankIx x.activeBank] }

/-- A swap exchanges the banks of its ridge, and shows nothing else but its flag, its instant and its event. -/
theorem applySwap_fields (s : State) (r : RidgeId) (t : T64) :
    (applySwap s r t).ridges = vmod s.ridges r Ridge.swapped ∧ (applySwap s r t).pins = s.pins ∧
      (applySwap s r t).queues = s.queues := by
  simp only [applySwap, setBits, raise_fields, putWord_fields, modR_fields]
  exact ⟨rfl, trivial, trivial⟩

theorem Ridge.copied_shadow (x : Ridge) : x.copied.banks[bankIx !x.activeBank] = x.banks[bankIx x.activeBank] := vmod_same ..

theorem Ridge.copied_active (x : Ridge) : x.copied.banks[bankIx x.activeBank] = x.banks[bankIx x.activeBank] :=
  vmod_other _ _ _ _ (shadow_ne_active _)

theorem timingCopyDone_ridge {s : State} {r : RidgeId} (h : s.ridges[r].copyBusy = true) :
    (timingCopyDoneEffect r s).ridges[r] = s.ridges[r].copied := by
  unfold timingCopyDoneEffect
  simp only [h, Bool.not_true, Bool.false_eq_true, if_false]
  exact vmod_same ..

/-- At a boundary that is not crossed, or with nothing to apply, the row does nothing. -/
theorem timingSwapApply_notCrossed {s : State} {r : RidgeId} (h : crossed s r = false) : timingSwapApplyEffect r s = s := by
  simp only [timingSwapApplyEffect, h, Bool.not_false, Bool.true_or, if_true]

theorem owlFactorApply_notCrossed {s : State} {r : RidgeId} (h : crossed s r = false) : owlFactorApplyEffect r s = s := by
  simp only [owlFactorApplyEffect, h, Bool.not_false, if_true]

/-- Settles O47: the outcomes of the two packets by their branches, and what a swap and a copy make of one ridge. -/
theorem timingSets : Obligations.TimingSets := by
  refine ⟨?write, ?swap, ?swapApply, ?owl, ?notCrossed, ?copy, ?applied⟩
  case write =>
    intro s h bank first count records r n ha u x run
    refine ⟨fun range => done_command_of_body 0x18 ha rfl (if_pos range), fun h1 h2 h3 h4 => ?_⟩
    have range : ¬(1 < bank.toNat ∨ n = 0 ∨ 32 < first.toNat + n ∨ 31 < first.toNat) := by omega
    refine ⟨fun active => done_command_of_body 0x18 ha rfl ((if_neg range).trans (if_pos active)),
      fun shadow busy => done_command_of_body 0x18 ha rfl ((if_neg range).trans ((if_neg shadow).trans (if_pos busy))),
      fun shadow hs hc => ⟨fun i hi => ?_, fun hi => ?_⟩⟩
    all_goals
      have free : ¬(x.swapPending = true ∨ x.copyBusy = true) := by simp [hs, hc]
      refine done_command_of_body 0x18 ha rfl ((if_neg range).trans ((if_neg shadow).trans ((if_neg free).trans ?_)))
      rw [hi]
  case swap =>
    intro s h ha u g t
    exact ⟨fun waits => done_command_of_body 0x19 ha rfl (if_pos waits),
      fun idle => done_command_of_body 0x19 ha rfl (if_neg (Bool.eq_false_iff.mp idle))⟩
  case swapApply =>
    intro s r hc hs
    refine congrArg (done s) ?_
    simp only [timingSwapApplyEffect, hc, hs, Bool.not_true, Bool.or_false, Bool.false_eq_true, if_false]
  case owl =>
    intro s r hc k
    refine congrArg (done s) ?_
    simp only [owlFactorApplyEffect, hc, Bool.not_true, Bool.false_eq_true, if_false, k]
  case notCrossed =>
    intro s r hc
    exact ⟨congrArg (done s) (timingSwapApply_notCrossed hc), congrArg (done s) (owlFactorApply_notCrossed hc)⟩
  case copy =>
    intro s r hc
    refine ⟨_, done_eq s (timingCopyDoneEffect r s), ?_⟩
    rw [after_ridges, timingCopyDone_ridge hc]
    exact ⟨rfl, Ridge.copied_shadow _, Ridge.copied_active _⟩
  case applied =>
    intro s r t u
    obtain ⟨ridges, pins, queues⟩ := applySwap_fields s r t
    have own : u.ridges[r] = s.ridges[r].swapped := by rw [ridges, vmod_same]
    rw [own]
    refine ⟨rfl, rfl, rfl, rfl, rfl, fun q hq => ?_, pins, queues⟩
    rw [ridges, vmod_other _ _ _ _ hq.symm]

end Sys2Proof.Machine
end

section
/-! Launches and halts (R29, R41, R42, R59, R62, R95, R100). -/

namespace Sys2Proof.Machine

/-! ### LAUNCH_TICK (R95, R100) -/

/-- The launch tick of an armed ridge has come, and no fault holds it back. -/
theorem launchTick_starts {s : State} {r : RidgeId} (hl : Live s) (ha : s.ridges[r].st = .armed)
    (hr : reached s.now s.ridges[r].launchAt = true) :
    let g := (gang s r).filter fun q => decide (s.ridges[q].st = .armed ∧ s.ridges[q].launchAt = s.ridges[r].launchAt)
    launchTickEffect r s = crossIfDue (each g (fun s q => modR s q fun x => { x with atBoundary := true })
      (each g (startOne (gangOwl s g)) s)) r := by
  obtain ⟨safe, shutdown⟩ := hl
  simp only [launchTickEffect, ha, hr, safe, shutdown, ne_eq, not_true_eq_false, Bool.not_true, Bool.false_eq_true, or_self,
    if_false]

theorem launchTick_waits {s : State} {r : RidgeId}
    (h : ¬Live s ∨ s.ridges[r].st ≠ .armed ∨ reached s.now s.ridges[r].launchAt = false) : launchTickEffect r s = s := by
  have waits : s.ridges[r].st ≠ .armed ∨ (!reached s.now s.ridges[r].launchAt) = true ∨ bearSafe s = true ∨
      s.owl.shutdown = true := by
    rcases h with hl | ha | hr
    · rw [Live, not_and_or, Bool.not_eq_false, Bool.not_eq_false] at hl
      exact .inr (.inr hl)
    · exact .inl ha
    · exact .inr (.inl (by rw [hr]; rfl))
  exact if_pos waits

/-- A gang whose running ridges have all come to the boundary crosses it (R63, R64). -/
theorem crossIfDue_of_reached {s : State} {r : RidgeId}
    (h : ∀ q ∈ running s r, s.ridges[q].atBoundary = true ∧ reached s.now s.ridges[q].start = true) :
    crossIfDue s r = crossBoundary s r := by
  have all : allAtBoundary s r = true := List.all_eq_true.mpr fun q hq => (h q hq).1
  have ended : (running s r).all (vecOver s) = true := List.all_eq_true.mpr fun q hq => (h q hq).2
  exact if_pos (by rw [all, ended]; rfl)

/-! ### HALT_AT_BOUNDARY (R58, R59, R98) -/

theorem haltAtBoundary_none {s : State} {r : RidgeId} (hd : s.ridges[r].halts.find? (fun h => reached s.now h.at_) = none) :
    haltAtBoundaryEffect r s = s := by
  simp only [haltAtBoundaryEffect, hd]

/-- Settles O48: each packet by the branches of its body, and each row by whether its instant has come. -/
theorem launchAndHalt : Obligations.LaunchAndHalt := by
  refine ⟨?launch, ?tick, ?waits, fun s r => crossIfDue_of_reached, ?halt, ?due, ?none⟩
  case launch =>
    intro s h resume bySite site mask
    dsimp only
    intro ha
    refine ⟨fun st info hr => ?_, fun hr => ?_⟩
    all_goals
      refine done_command_of_body 0x20 ha rfl ?_
      rw [hr]
  case tick => exact fun s r hl ha hr => congrArg (done s) (launchTick_starts hl ha hr)
  case waits => exact fun s r h => congrArg (done s) (launchTick_waits h)
  case halt =>
    intro s h park bySite site mask
    dsimp only
    intro ha
    refine ⟨fun hn => done_command_of_body 0x21 ha rfl (if_pos hn), fun hn t ht => ?_, fun hn ht hp => ?_, fun hn ht hp => ?_⟩
    all_goals refine done_command_of_body 0x21 ha rfl ((if_neg hn).trans ?_)
    · rw [ht]
    · simp only [ht, hp, if_true]
    · simp only [ht, hp, Bool.false_eq_true, if_false]
  case due =>
    intro s r a
    dsimp only
    rintro ⟨safe, shutdown⟩ hd
    have e : exec (.haltAtBoundary r) s = .next (after s (haltAtBoundaryEffect r s)) := done_eq ..
    simp only [haltAtBoundaryEffect, hd, safe, shutdown, Bool.or_self, Bool.false_eq_true, if_false] at e
    refine ⟨fun hp => ?_, fun hp armed => ?_, fun hp stopped => ?_, fun hp idle => ?_, fun hp runs hs hr => ?_⟩
    · simpa only [hp, if_true] using e
    · simpa only [hp, armed, Bool.false_eq_true, if_false] using e
    · rcases stopped with hx | hx <;> simpa only [hp, hx, Bool.false_eq_true, if_false] using e
    · rcases idle with hx | hx <;> simpa only [hp, hx, Bool.false_eq_true, if_false] using e
    · simpa only [hp, runs, hs, hr, Bool.not_true, Bool.or_self, Bool.false_eq_true, if_false] using e
  case none => exact fun s r hd => congrArg (done s) (haltAtBoundary_none hd)

end Sys2Proof.Machine
end

section
/-! SUPPORT. What a reply, a notice, an idle col and an entry of the fault log leave alone: the ridges, Bear but for its latch
and log, and the long commands (R286, R365, R376). -/

namespace Sys2Proof.Machine

/-- The ridges, Bear and the long commands. -/
def silent (s : State) : Vector Ridge 16 × Bear × List Long := (s.ridges, s.bear, s.link.longs)

theorem silent_modCq (s : State) (c : Fin 64) (f : Cq → Cq) : silent (modCq s c f) = silent s := rfl
theorem silent_setTaken (s : State) (q : Fin 64) (l : List Taken) : silent (setTaken s q l) = silent s := rfl

theorem silent_each {α : Type} {l : List α} {f : State → α → State} {s : State} (h : ∀ s a, silent (f s a) = silent s) :
    silent (each l f s) = silent s :=
  each_ind (silent · = silent s) rfl fun u a hu => (h u a).trans hu

theorem silent_cqWrite (s : State) (c : Fin 64) (entry : List Byte) : silent (cqWrite s c entry) = silent s := by
  unfold cqWrite
  dsimp only
  split <;> rfl

theorem silent_postNotice (s : State) (n : Notice) : silent (postNotice s n) = silent s := by
  unfold postNotice
  dsimp only
  split
  · rfl
  · split
    · exact silent_cqWrite ..
    · rfl

theorem silent_sendRing (s : State) (dest : Option Nat) (m : RingMsg) : silent (sendRing s dest m) = silent s := by
  unfold sendRing
  dsimp only
  split <;> rfl

theorem silent_deliverList (q : Fin 64) (l : List Taken) (s : State) : silent (deliverList q l s) = silent s := by
  induction l generalizing s with
  | nil => rfl
  | cons t ts ih =>
    unfold deliverList
    split
    · rfl
    · split
      · exact (ih _).trans (silent_modCq ..)
      · split
        · exact (ih _).trans ((silent_cqWrite ..).trans (silent_modCq ..))
        · rfl

theorem silent_setReply (s : State) (q : Fin 64) (era : Nat) (seq : Word) (r : Reply) :
    silent (setReply s q era seq r) = silent s :=
  (silent_deliverList ..).trans (silent_setTaken ..)

theorem silent_memberReply (s : State) (q : Fin 64) (era : Nat) (seq : Word) (pos : Nat) (r : Reply) :
    silent (memberReply s q era seq pos r) = silent s := by
  unfold memberReply
  split
  · rfl
  · split
    · exact silent_setReply ..
    · split
      · rfl
      · dsimp only
        split
        · exact (silent_setReply ..).trans (silent_setTaken ..)
        · rfl

theorem silent_refuse (s : State) (h : Hdr) (op st info : Nat) : silent (refuse s h op st info) = silent s := by
  unfold refuse answer
  dsimp only
  split
  · exact silent_sendRing ..
  · exact silent_memberReply ..

theorem silent_idleCols (s : State) (cs : List Nat) : silent (idleCols s cs) = silent s :=
  silent_each (l := cs) fun _ _ => rfl

theorem silent_peerResetA (s : State) (cs : List Nat) : silent (peerResetA s cs) = silent s := silent_each fun _ _ => rfl

theorem silent_peerResetB (s : State) (cs : List Nat) : silent (peerResetB s cs) = silent s := silent_each fun _ _ => rfl

/-- An entry of the fault log latches its bit, and leaves the ridges, Bear's state and the long commands alone. -/
theorem logFault_silent (s : State) (d : Detect) (packets tickets : Nat) : ∃ log,
    silent (logFault s d packets tickets) =
      (s.ridges, { s.bear with latch := s.bear.latch ||| BitVec.ofNat 64 (2 ^ d.bit.val), log := log }, s.link.longs) := by
  unfold logFault
  by_cases hc : d.cls = .corrected
  · simp only [hc, if_true, true_and]
    split
    · exact ⟨_, rfl⟩
    · split
      · exact ⟨_, rfl⟩
      · exact ⟨_, silent_postNotice ..⟩
  · simp only [hc, if_false, false_and]
    split
    · exact ⟨_, rfl⟩
    · exact ⟨_, silent_postNotice ..⟩

/-- Long commands ended one after another are gone, whatever is answered. -/
theorem longs_each_dropped {f : State → Long → State} (hf : ∀ s l, (f s l).link.longs = s.link.longs.filter (· ≠ l))
    (ls : List Long) (s : State) : (each ls f s).link.longs = s.link.longs.filter (· ∉ ls) := by
  unfold each
  induction ls generalizing s with
  | nil => simp
  | cons l ls ih =>
    rw [List.foldl_cons, ih, hf, List.filter_filter]
    refine List.filter_congr fun x _ => ?_
    simp [Bool.and_comm]

end Sys2Proof.Machine
end

section
/-! The start-up, Fox's watchdog and the clock source (R20, R122 to R125, R336 to R338, Table 14-1). -/

namespace Sys2Proof.Machine

/-! ### The stages (Table 14-1) -/

theorem bootRuns_iff {s : State} {n : Nat} :
    bootRuns s n = true ↔ s.boot.stage.toNat = n ∧ s.boot.por = false ∧ s.owl.shutdown = false := by
  simp [bootRuns, and_assoc]

/-- Fox stays in its ROM loader (R339). -/
theorem toLoader_fields (s : State) (r : BitVec 3) :
    (toLoader s r).boot = { s.boot with stage := 7, mode := .loader, fwResult := r, patchResult := 7, romLoader := true } ∧
      (toLoader s r).flash = s.flash :=
  ⟨rfl, rfl⟩

theorem porRelease_samples {s : State} (z : Straps) (f : Fuses) (h : s.boot.por = true) :
    porReleaseEffect z f s = senseFuses (strapWords { s with boot := { s.boot with
      por := false, straps := z, fuses := f, since := s.ticks, resonator := !z.refclkClean, refclk := z.refclkClean } }) := by
  simp only [porReleaseEffect, h, Bool.not_true, Bool.false_eq_true, if_false]

/-! ### FOX_RELEASE -/

/-- Fox comes up in its ROM loader. -/
def Boot.foxReleased (b : Boot) : Boot := { b with stage := 1, foxUp := true, romLoader := true }

theorem foxRelease_runs {s : State} (h : bootRuns s 0 = true) (hc : ∀ k : Fin 24, s.sensors[k].compReleased = true)
    (hm : ∀ m : Fin 12, m.val < 5 → s.smons[m].released = true) :
    foxReleaseEffect s =
      if isSet s (gCSPCFG 0) 0 then toLoader (modBoot s Boot.foxReleased) 7 else modBoot s Boot.foxReleased := by
  have comparators : s.sensors.all (·.compReleased) = true :=
    Vector.all_eq_true.mpr fun i hi => hc ⟨i, hi⟩
  have monitors : ((List.finRange 5).all fun m => (s.smons[Fin.castLE (by decide : 5 ≤ 12) m]).released) = true :=
    List.all_eq_true.mpr fun m _ => hm _ m.isLt
  simp only [foxReleaseEffect, h, comparators, monitors, Bool.not_true, Bool.and_self, Bool.or_self, Bool.false_eq_true, if_false]
  rfl

theorem foxRelease_boot {s : State} (h : bootRuns s 0 = true) (hc : ∀ k : Fin 24, s.sensors[k].compReleased = true)
    (hm : ∀ m : Fin 12, m.val < 5 → s.smons[m].released = true) :
    (foxReleaseEffect s).boot =
      if isSet s (gCSPCFG 0) 0 then
        { s.boot.foxReleased with stage := 7, mode := .loader, fwResult := 7, patchResult := 7, romLoader := true }
      else s.boot.foxReleased := by
  rw [foxRelease_runs h hc hm]
  split <;> rfl

/-! ### SFDP_READ, FIRMWARE_VERIFY and PATCH_LOAD -/

/-- A flash that answers takes Fox to STAGE 2. -/
theorem sfdpRead_good {s : State} {valid sizeOk : Bool} (profile cont : Bool) (h : bootRuns s 1 = true) (hv : valid = true)
    (hs : sizeOk = true) :
    (sfdpReadEffect valid profile sizeOk cont s).boot = { s.boot with stage := 2, sfdpOk := true } ∧
      (sfdpReadEffect valid profile sizeOk cont s).xip.canCont = cont := by
  simp only [sfdpReadEffect, h, hv, hs, Bool.not_true, Bool.or_self, Bool.false_eq_true, if_false]
  split <;> exact ⟨rfl, rfl⟩

theorem sfdpRead_bad {s : State} {valid sizeOk : Bool} (profile cont : Bool) (h : bootRuns s 1 = true)
    (hb : valid = false ∨ sizeOk = false) : sfdpReadEffect valid profile sizeOk cont s = toLoader s 1 := by
  have bad : (!valid || !sizeOk) = true := by rcases hb with hb | hb <;> simp [hb]
  simp only [sfdpReadEffect, h, bad, Bool.not_true, Bool.false_eq_true, if_true, if_false]

/-- The firmware image is the one in the flash. -/
theorem firmwareVerify_flash {s : State} (i : Option FwImage) (h : bootRuns s 2 = true) :
    (firmwareVerifyEffect i s).flash.firmware = i := by
  simp only [firmwareVerifyEffect, h, if_true]
  split
  · split <;> rfl
  · rfl

theorem firmwareVerify_passes {s : State} {x : FwImage} (h : bootRuns s 2 = true) (hx : fwResultOf s (some x) = 0) :
    (firmwareVerifyEffect (some x) s).boot = { s.boot with stage := 3, fwResult := 0, romLoader := false } := by
  simp only [firmwareVerifyEffect, h, hx, if_true]
  rfl

theorem firmwareVerify_fails {s : State} {i : Option FwImage} (h : bootRuns s 2 = true) (hx : i = none ∨ fwResultOf s i ≠ 0) :
    firmwareVerifyEffect i s =
      toLoader { s with flash := { s.flash with firmware := i } } (BitVec.ofNat 3 (fwResultOf s i)) := by
  cases i with
  | none => simp only [firmwareVerifyEffect, h, if_true]; rfl
  | some x =>
    have bad : fwResultOf s (some x) ≠ 0 := hx.resolve_left nofun
    simp only [firmwareVerifyEffect, h, bad, if_true, if_false]

/-- The firmware that the watchdog has read once more (R340). -/
theorem firmwareVerify_again {s : State} {x : FwImage} (h : bootRuns s 6 = true) (hr : s.boot.reload = true)
    (hm : isSet s (gCSPCFG 0) 0 = false) (hx : fwResultOf s (some x) = 0) (h1 : x.partnerMin.toNat ≤ patchLevel s)
    (h2 : patchLevel s ≤ x.partnerMax.toNat) :
    (firmwareVerifyEffect (some x) s).boot = { s.boot with romLoader := false, reload := false } ∧
      (firmwareVerifyEffect (some x) s).flash.firmware = some x := by
  have stage2 : bootRuns s 2 = false := by
    rw [bootRuns_iff] at h
    rw [← Bool.not_eq_true, bootRuns_iff]
    omega
  simp only [firmwareVerifyEffect, h, stage2, hr, hm, hx, h1, h2, Bool.not_false, Bool.and_self, Bool.false_eq_true, and_self,
    if_true, if_false]
  exact ⟨rfl, rfl⟩

theorem patchLoad_fields {s : State} (i : Option FwImage) (h : bootRuns s 3 = true) :
    (patchLoadEffect i s).boot.stage = 4 ∧ (patchLoadEffect i s).flash.patch = i ∧
      (patchLoadEffect i s).boot.patchResult = BitVec.ofNat 4 (patchResultOf s i) ∧
      (patchLoadEffect i s).boot.mode = if patchResultOf s i = 0 then .normal else .baseline := by
  simp only [patchLoadEffect, h, Bool.not_true, Bool.false_eq_true, if_false]
  exact ⟨rfl, rfl, rfl, rfl⟩

/-- A patch that passes is in patch RAM. -/
theorem patchLoad_passes {s : State} {x : FwImage} (h : bootRuns s 3 = true) (hx : patchResultOf s (some x) = 0) :
    (patchLoadEffect (some x) s).boot.patchRam = x.words ∧ (patchLoadEffect (some x) s).boot.patchEntries = x.entries := by
  simp only [patchLoadEffect, h, hx, Bool.not_true, Bool.false_eq_true, if_true, if_false]
  exact ⟨rfl, rfl⟩

theorem patchLoad_fails {s : State} {i : Option FwImage} (h : bootRuns s 3 = true) (hx : patchResultOf s i ≠ 0) :
    (patchLoadEffect i s).boot.patchRam = [] := by
  cases i with
  | none =>
    simp only [patchLoadEffect, h, Bool.not_true, Bool.false_eq_true, if_false]
    rfl
  | some x =>
    simp only [patchLoadEffect, h, hx, Bool.not_true, Bool.false_eq_true, if_false]
    rfl

/-! ### PCIe, the power-up calibration and HBM training -/

theorem pcieLinkUp_boot {s : State} (h : s.boot.por = false) : (pcieLinkUpEffect s).boot = { s.boot with pcieUp := true } := by
  rw [pcieLinkUpEffect, if_neg (Bool.eq_false_iff.mp h)]
  rfl

theorem powerupCalDone_boot {s : State} (h : bootRuns s 4 = true ∨ bootRuns s 5 = true)
    (h10 : s.smons[(10 : Fin 12)].released = true) (h11 : s.smons[(11 : Fin 12)].released = true) :
    (powerupCalDoneEffect s).boot = { s.boot with calDone := true } := by
  have stage : (bootRuns s 4 || bootRuns s 5) = true := by simpa using h
  unfold powerupCalDoneEffect
  rw [if_pos (by rw [stage]; exact Bool.and_eq_true_iff.mpr ⟨h10, h11⟩)]
  rfl

/-- The flash with the slots that read without an error. -/
def Flash.checked (f : Flash) (ok : List Bool) : Flash :=
  { f with slots := Vector.ofFn fun k : Fin 3 => if ok.getD k.val true then f.slots[k] else none }

theorem Flash.checked_slot (f : Flash) (ok : List Bool) (k : Fin 3) :
    (f.checked ok).slots[k] = if ok.getD k.val true then f.slots[k] else none :=
  Vector.getElem_ofFn ..

theorem hbmTrainingDone_eq {s : State} (ok : List Bool) (h : bootRuns s 4 = true) (h5 : s.smons[(5 : Fin 12)].released = true)
    (h6 : s.smons[(6 : Fin 12)].released = true) :
    let f := s.flash.checked ok
    hbmTrainingDoneEffect ok s =
      { s with flash := f, working := (copyContent f (copyOf f (newerIsB f))).map (·.image),
               boot := { s.boot with stage := 5, hbmUp := true, slotsRead := true } } := by
  unfold hbmTrainingDoneEffect
  rw [if_pos (by rw [h]; exact Bool.and_eq_true_iff.mpr ⟨h5, h6⟩)]
  rfl

/-! ### The clock source and the resonator's correction -/

theorem refclkLoss_boot {s : State} (h : s.boot.por = false) :
    (refclkLossEffect s).boot = { s.boot with refclk := false, resonator := true } := by
  rw [refclkLossEffect, if_neg (Bool.eq_false_iff.mp h)]
  dsimp only
  split
  · rfl
  · exact raise_boot ..

theorem refclkPresent_boot {s : State} (h : s.boot.por = false) :
    (refclkPresentEffect s).boot = { s.boot with refclk := true } := by
  rw [refclkPresentEffect, if_neg (Bool.eq_false_iff.mp h)]
  rfl

theorem clockRevert_boot {s : State} (h : isSet s gCLKCFG 0 = true) (hc : s.boot.refclk = true) (hr : s.boot.resonator = true)
    (hi : ∀ r : RidgeId, runs s r = false) : (clockRevertEffect s).boot = { s.boot with resonator := false } := by
  have idle : (allRidges.all fun r => !runs s r) = true := List.all_eq_true.mpr fun r _ => by rw [hi r]; rfl
  rw [clockRevertEffect, if_pos (by rw [h, hc, hr, idle]; rfl)]
  rfl

/-! ### Fox's watchdog (R20) -/

/-- The fault that a restart by the watchdog logs (Table 16-3). -/
def watchdogFault : Detect := ⟨36, 0, .contained, 6, 0, none, false, false⟩

/-- Fox restarts from its ROM loader: the fault is logged, its cols are reset, and its window onto the flash is empty. -/
def foxRestarted (s : State) : State :=
  let s := contained s watchdogFault id
  let s := modBoot s fun b => { b with romLoader := true, reload := true }
  let s := idleCols (peerResetB (peerResetA s [35]) [38, 39, 44]) [35, 38, 39, 44]
  { s with xip := { s.xip with lines := [], filling := [], cont := false } }

/-- The long commands that needed Fox are answered. -/
def foxEnds (s : State) (l : Long) : State := refuse (dropLong s l) l.hdr l.opcode.toNat ABORTED_FAULT 0

theorem foxWatchdog_eq {s : State} (h : bootRuns s 6 = true) (hf : foxReady s = true) :
    foxWatchdogEffect s =
      if bearSafe (foxRestarted s) then foxRestarted s
      else each ((foxRestarted s).link.longs.filter fun l => needsFox l.job) foxEnds (foxRestarted s) := by
  simp only [foxWatchdogEffect, h, hf, Bool.not_true, Bool.or_self, Bool.false_eq_true, if_false]
  rfl

/-- The restart latches its bit, and leaves the ridges, Bear's state and the long commands alone. -/
theorem foxRestarted_silent (s : State) : ∃ log, silent (foxRestarted s) =
    (s.ridges, { s.bear with latch := s.bear.latch ||| BitVec.ofNat 64 (2 ^ 36), log := log }, s.link.longs) := by
  have logged : silent (foxRestarted s) = silent (contained s watchdogFault id) :=
    (silent_idleCols ..).trans ((silent_peerResetB ..).trans (silent_peerResetA ..))
  rw [logged]
  unfold contained
  rw [id_eq, ite_self]
  exact logFault_silent ..

theorem contained_boot (s : State) (d : Detect) : (contained s d id).boot = s.boot := by
  have q : quiet (contained s d id) = quiet s := quiet_contained s d id fun _ => rfl
  exact congrArg Quiet.boot q

theorem idleCols_boot (s : State) (a b c : List Nat) : (idleCols (peerResetB (peerResetA s a) b) c).boot = s.boot := by
  have q : quiet (idleCols (peerResetB (peerResetA s a) b) c) = quiet s := by
    rw [quiet_idleCols, quiet_peerResetB, quiet_peerResetA]
  exact congrArg Quiet.boot q

/-- Fox is in its ROM loader, and its window onto the flash is empty. -/
theorem foxRestarted_fox (s : State) : (foxRestarted s).boot = { s.boot with romLoader := true, reload := true } ∧
    (foxRestarted s).xip.lines = [] ∧ (foxRestarted s).xip.filling = [] := by
  refine ⟨?_, rfl, rfl⟩
  unfold foxRestarted
  dsimp only
  rw [idleCols_boot, ← contained_boot s watchdogFault]
  rfl

theorem silent_foxEnds (s : State) (l : Long) : silent (foxEnds s l) = silent (dropLong s l) := silent_refuse ..

theorem quiet_foxEnds (s : State) (l : Long) : quiet (foxEnds s l) = quiet s := quiet_refuse ..

/-- A long command that is ended is dropped. -/
theorem foxEnds_drops (s : State) (l : Long) : (foxEnds s l).link.longs = s.link.longs.filter (· ≠ l) :=
  congrArg (fun x => x.2.2) (silent_foxEnds s l)

/-- The answers to the long commands move neither Fox, the ridges nor Bear. -/
theorem foxEnds_each (s : State) (ls : List Long) : quiet (each ls foxEnds s) = quiet s ∧
    (each ls foxEnds s).ridges = s.ridges ∧ (each ls foxEnds s).bear = s.bear := by
  refine each_ind (fun u => quiet u = quiet s ∧ u.ridges = s.ridges ∧ u.bear = s.bear) ⟨rfl, rfl, rfl⟩ ?_
  rintro u l ⟨hq, hr, hb⟩
  have silence := silent_foxEnds u l
  simp only [silent, Prod.mk.injEq] at silence
  obtain ⟨ridges, bear, -⟩ := silence
  exact ⟨(quiet_foxEnds u l).trans hq, ridges.trans hr, bear.trans hb⟩

/-- No long command that needs Fox is left. -/
theorem foxEnds_longs (s : State) : ∀ l ∈ (each (s.link.longs.filter fun l => needsFox l.job) foxEnds s).link.longs,
    needsFox l.job = false := by
  intro l hl
  rw [longs_each_dropped foxEnds_drops] at hl
  simp only [List.mem_filter, decide_eq_true_eq, not_and, Bool.not_eq_true] at hl
  exact hl.2 hl.1

/-- What the watchdog leaves: Fox in its ROM loader with an empty window, the ridges as they were, the fault latched, and, while
no fault holds Badger, no long command that needs Fox. -/
theorem foxWatchdog_fields {s : State} (h : bootRuns s 6 = true) (hf : foxReady s = true) :
    let u := foxWatchdogEffect s
    (u.boot = { s.boot with romLoader := true, reload := true } ∧ u.xip.lines = [] ∧ u.xip.filling = []) ∧
      u.ridges = s.ridges ∧ u.bear.latch = s.bear.latch ||| BitVec.ofNat 64 (2 ^ 36) ∧
      (bearSafe s = false → ∀ l ∈ u.link.longs, needsFox l.job = false) := by
  obtain ⟨log, silence⟩ := foxRestarted_silent s
  simp only [silent, Prod.mk.injEq] at silence
  obtain ⟨ridges, bear, -⟩ := silence
  have fox := foxRestarted_fox s
  have latch : (foxRestarted s).bear.latch = s.bear.latch ||| BitVec.ofNat 64 (2 ^ 36) := by rw [bear]
  have safe : bearSafe (foxRestarted s) = bearSafe s := by simp only [bearSafe, bear]
  rw [foxWatchdog_eq h hf, safe]
  split
  · next hs => exact ⟨fox, ridges, latch, fun hn => absurd hs (by simp [hn])⟩
  · obtain ⟨hq, hr, hb⟩ := foxEnds_each (foxRestarted s) ((foxRestarted s).link.longs.filter fun l => needsFox l.job)
    have hboot := congrArg Quiet.boot hq
    have hxip := congrArg Quiet.xip hq
    simp only [quiet] at hboot hxip
    dsimp only
    rw [hboot, hxip, hr, hb]
    exact ⟨fox, ridges, latch, fun _ => foxEnds_longs _⟩

/-- Settles O59: each row by what its effect leaves in the boot state, the flash, Fox's window or the words of the map. -/
theorem startUp : Obligations.StartUp := by
  refine ⟨?por, ?fox, ?sfdp, ?firmware, ?again, ?patch, ?pcie, ?cal, ?hbm, ?watchdog, ?loss, ?present, ?revert, ?tcomp, ?age⟩
  case por => exact fun s z f h => congrArg (done s) (porRelease_samples z f h)
  case fox =>
    intro s h hc hm
    have boot := foxRelease_boot h hc hm
    refine ⟨_, done_eq s (foxReleaseEffect s), ?_⟩
    rw [after_boot, boot]
    cases isSet s (gCSPCFG 0) 0 <;> simp [Boot.foxReleased]
  case sfdp =>
    intro s valid profile sizeOk cont h
    refine ⟨_, done_eq s (sfdpReadEffect valid profile sizeOk cont s), fun hv hs => ?_, fun hb => ?_⟩
    · obtain ⟨boot, xip⟩ := sfdpRead_good profile cont h hv hs
      rw [after_boot, after_xip, boot]
      exact ⟨rfl, rfl, xip⟩
    · rw [after_boot, sfdpRead_bad profile cont h hb, (toLoader_fields s 1).1]
      exact ⟨rfl, rfl, rfl⟩
  case firmware =>
    intro s i h
    refine ⟨_, done_eq s (firmwareVerifyEffect i s), ?_, fun x hi hx => ?_, fun hb => ?_⟩
    · rw [after_flash, firmwareVerify_flash i h]
    · subst hi
      rw [after_boot, firmwareVerify_passes h hx]
      exact ⟨rfl, rfl, rfl⟩
    · rw [after_boot, firmwareVerify_fails h hb, (toLoader_fields ..).1]
      exact ⟨rfl, rfl⟩
  case again =>
    intro s x h hr hm hx h1 h2
    obtain ⟨boot, flash⟩ := firmwareVerify_again h hr hm hx h1 h2
    exact ⟨_, done_eq s (firmwareVerifyEffect (some x) s), by rw [after_boot, boot], by rw [after_flash, flash]⟩
  case patch =>
    intro s i h
    obtain ⟨stage, patch, result, mode⟩ := patchLoad_fields i h
    refine ⟨_, done_eq s (patchLoadEffect i s), ?_⟩
    rw [after_boot, after_flash]
    refine ⟨stage, patch, result, mode, fun x hi hx => ?_, fun hx => patchLoad_fails h hx⟩
    subst hi
    exact patchLoad_passes h hx
  case pcie => exact fun s h => exec_boot (done_eq s (pcieLinkUpEffect s)) (pcieLinkUp_boot h)
  case cal => exact fun s h h10 h11 => exec_boot (done_eq s (powerupCalDoneEffect s)) (powerupCalDone_boot h h10 h11)
  case hbm =>
    intro s ok h h5 h6
    refine ⟨_, done_eq s (hbmTrainingDoneEffect ok s), ?_⟩
    rw [after_boot, after_flash, after_working, hbmTrainingDone_eq ok h h5 h6]
    exact ⟨rfl, rfl, fun k => Flash.checked_slot .., rfl⟩
  case watchdog =>
    intro s h hf
    obtain ⟨⟨boot, lines, filling⟩, ridges, latch, longs⟩ := foxWatchdog_fields h hf
    refine ⟨_, done_eq s (foxWatchdogEffect s), ?_⟩
    rw [after_boot, after_xip, after_ridges, after_bear, after_link, boot, latch]
    have stage : s.boot.stage = 6 := BitVec.eq_of_toNat_eq (bootRuns_iff.mp h).1
    exact ⟨rfl, stage, lines, filling, ridges, by simp, fun ⟨safe, _⟩ => longs safe⟩
  case loss => exact fun s h => exec_boot (done_eq s (refclkLossEffect s)) (refclkLoss_boot h)
  case present => exact fun s h => exec_boot (done_eq s (refclkPresentEffect s)) (refclkPresent_boot h)
  case revert => exact fun s h hc hr hi => exec_boot (done_eq s (clockRevertEffect s)) (clockRevert_boot h hc hr hi)
  case tcomp => exact fun s hp hb => congrArg (done s) (if_neg (by rw [hp, hb]; decide))
  case age =>
    intro s residual hr hc hs age
    refine congrArg (done s) ?_
    simp only [ageUpdateEffect, hr, hc, hs, Bool.not_true, Bool.or_self, Bool.false_eq_true, if_false, age]

end Sys2Proof.Machine
end

section
/-! SUPPORT. What judging, records and a vector's period leave of a ridge's program: its sequencer state, program counter, stacks
and MATCH outcome (R31, R36, R49, R204). -/

namespace Sys2Proof.Machine

/-- What of a ridge says where its program stands. -/
structure Program where
  st : SeqState
  pc : Addr
  loops : List (Addr × Word)
  calls : List Addr
  matchOut : MatchOutcome

def Ridge.program (x : Ridge) : Program := ⟨x.st, x.pc, x.loops, x.calls, x.matchOut⟩

/-- Where the program of each ridge stands. -/
def programs (s : State) (q : RidgeId) : Program := s.ridges[q].program

theorem programs_of_ridges {s t : State} (h : t.ridges = s.ridges) : programs t = programs s := by
  funext q; simp only [programs, h]

theorem modR_ridge (s : State) (r q : RidgeId) (f : Ridge → Ridge) :
    (modR s r f).ridges[q] = if r = q then f s.ridges[r] else s.ridges[q] := vmod_get ..

theorem loops_of_programs {s t : State} (h : programs t = programs s) (q : RidgeId) : t.ridges[q].loops = s.ridges[q].loops :=
  congrArg Program.loops (congrFun h q)

theorem calls_of_programs {s t : State} (h : programs t = programs s) (q : RidgeId) : t.ridges[q].calls = s.ridges[q].calls :=
  congrArg Program.calls (congrFun h q)

theorem matchOut_of_programs {s t : State} (h : programs t = programs s) (q : RidgeId) :
    t.ridges[q].matchOut = s.ridges[q].matchOut :=
  congrArg Program.matchOut (congrFun h q)

/-- An update of other registers of a ridge, after what has left the programs as they stand. -/
theorem programs_modR {s u : State} {r : RidgeId} {f : Ridge → Ridge} (h : programs u = programs s)
    (hf : ∀ x, (f x).program = x.program) : programs (modR u r f) = programs s := by
  refine Eq.trans (funext fun q => ?_) h
  simp only [programs, modR_ridge]
  split
  · subst ‹r = q›; exact hf _
  · rfl

theorem programs_each {α : Type} {l : List α} {f : State → α → State} {s : State}
    (h : ∀ s a, programs (f s a) = programs s) : programs (each l f s) = programs s :=
  each_ind (programs · = programs s) rfl fun u a hu => (h u a).trans hu

theorem programs_modStream (s : State) (r : RidgeId) (f : Stream → Stream) : programs (modStream s r f) = programs s :=
  programs_modR rfl fun _ => rfl

theorem programs_siteFails (s : State) (n : Nat) (k : Fin 64) : programs (siteFails s n k) = programs s :=
  programs_each fun _ _ => programs_modR rfl fun _ => rfl

theorem programs_logEntry (s : State) (r : RidgeId) (t : T64) (number period : Nat) (masked : Bool) (lanes : BitVec 16)
    (direct : Bool) : programs (logEntry s r t number period masked lanes direct) = programs s := by
  unfold logEntry
  extract_lets was s₁ s₂ s₃ hit s₄
  have h₁ : programs s₁ = programs s := by
    unfold s₁
    split
    · exact programs_modStream ..
    · split
      · exact programs_modStream ..
      · rfl
  have h₂ : programs s₂ = programs s := programs_modR h₁ fun _ => rfl
  split
  · exact h₂
  · exact programs_modR ((programs_each fun _ _ => programs_siteFails ..).trans ((programs_modStream ..).trans h₂)) fun _ => rfl

theorem programs_judgeList (r : RidgeId) (t : T64) (es : List Entry) (s : State) :
    programs (judgeList r t es s) = programs s := by
  induction es generalizing s with
  | nil => exact programs_modR rfl fun _ => rfl
  | cons e es ih =>
    unfold judgeList
    split
    · refine (ih _).trans ?_
      split
      · exact programs_modR (programs_modR rfl fun _ => rfl) fun _ => rfl
      · exact (programs_logEntry ..).trans (programs_modR rfl fun _ => rfl)
    · exact programs_modR rfl fun _ => rfl

theorem programs_judge (s : State) (r : RidgeId) : programs (judge s r) = programs s := programs_judgeList ..

theorem programs_dueAnchor (s : State) (r : RidgeId) (before : T64) : programs (dueAnchor s r before) = programs s := by
  unfold dueAnchor
  split
  · extract_lets t inside
    split
    · exact (programs_modStream ..).trans (programs_modStream ..)
    · rfl
  · rfl

/-- Judging, and the records that are due, leave the programs as they stand. -/
theorem programs_seen (s : State) (r : RidgeId) : programs (seen s r) = programs s := by
  unfold seen
  extract_lets u
  have judged : programs u = programs s := (programs_dueAnchor ..).trans (programs_each programs_judge)
  exact programs_modR judged fun _ => by rw [Ridge.program, Ridge.program]

theorem driveLane_ridges (r : RidgeId) (t : TimingSet) (v : Vec) (s : State) (l : Fin 16) :
    (driveLane r t v s l).ridges = s.ridges := by
  unfold driveLane
  extract_lets p x base edges asked
  split
  · rfl
  · split
    · rfl
    · split
      split
      · rfl
      · rfl

/-- The period of a vector leaves the programs as they stand (R31). -/
theorem programs_vectorPeriod (s : State) (r : RidgeId) (v : Vec) (isRep : Bool) :
    programs (vectorPeriod s r v isRep) = programs s := by
  unfold vectorPeriod
  extract_lets x t p e s₁ s₂
  have h₁ : programs s₁ = programs s := programs_each fun _ _ => programs_of_ridges (driveLane_ridges ..)
  refine programs_modR (Eq.trans ?_ h₁) fun _ => rfl
  unfold s₂
  split
  · exact programs_modStream ..
  · rfl

theorem programs_advance (s : State) (r : RidgeId) (v : Vec) : programs (advance s r v) = programs s := by
  unfold advance
  split
  · exact programs_modR rfl fun _ => rfl
  · rfl

/-- A vector of one period leaves the programs as they stand. -/
theorem programs_onePeriod (s : State) (r : RidgeId) (v : Vec) : programs (onePeriod s r v) = programs s :=
  (programs_vectorPeriod ..).trans (programs_seen ..)

end Sys2Proof.Machine
end

section
/-! Vectors: every opcode, the two stacks, and the outcome of a MATCH (R33, R38, R44 to R53, R60, R65, R69). -/

namespace Sys2Proof.Machine

/-- A vector that the sequencer executes ends in what its opcode makes of the state that it sees. -/
theorem done_withVector {s u t : State} {r : RidgeId} {v : Vec} {op : Nat → Bool} {body : Vec → State → State}
    (h : Executes s r v) (hu : seen s r = u) (ho : op v.opcode = true) (hb : body v u = t) :
    done s (withVector s r false op body) = .next (after s (parkCheck t)) := by
  rw [withVector_executes h ho, hu, hb, done_eq]

theorem withVector_notReady {s : State} {r : RidgeId} (h : vecReady s r = false) (parity : Bool) (op : Nat → Bool)
    (body : Vec → State → State) : withVector s r parity op body = s := by
  simp only [withVector, h, Bool.not_false, if_true]

/-- A word with a parity error is not executed (R33). -/
theorem withVector_parity {s : State} {r : RidgeId} {v : Vec} (h : vecReady s r = true) (hv : vecAt s r = some v)
    (op : Nat → Bool) (body : Vec → State → State) :
    withVector s r true op body = parkCheck (ridgeFault s r 0 (some (addrCode s.ridges[r].pc)) false) := by
  simp only [withVector, h, hv, Bool.not_true, Bool.false_eq_true, if_false, if_true]

theorem matchEnd_ready {s : State} {r : RidgeId} (h : vecReady s r = true) :
    let m := settleMatch (each (running s r) judge s) r
    matchEndEffect r s = parkCheck (each m.2 (fun s q => follow s q .inOrder) m.1) := by
  simp only [matchEndEffect, h, Bool.not_true, Bool.false_eq_true, if_false]

theorem matchEnd_notReady {s : State} {r : RidgeId} (h : vecReady s r = false) : matchEndEffect r s = s := by
  simp only [matchEndEffect, h, Bool.not_false, if_true]

theorem modR_congr {s : State} {r : RidgeId} {f g : Ridge → Ridge} (h : f s.ridges[r] = g s.ridges[r]) :
    modR s r f = modR s r g := by
  simp only [modR, vmod, h]

/-- What follows a CHECKPOINT once its number is recorded: the next vector, or the park that was requested (R59, R60). -/
def goOrPark (t : State) (r : RidgeId) : State :=
  if !t.ridges[r].park || haltDue t.ridges[r] then follow t r .inOrder
  else match checkpointFlow t r with
    | none => endWith t r .stop
    | some a =>
      let jumped := decide (t.ridges[r].jumpIn = some 0)
      endWith (modR t r fun x =>
        { x with pc := a, lastSeg := x.pc.seg, rep := 0, repFails := [], jumpIn := if jumped then none else x.jumpIn,
                 loops := if jumped then [] else x.loops, calls := if jumped then [] else x.calls }) r .park

theorem goOrPark_goes {t : State} {r : RidgeId} (h : t.ridges[r].park = false ∨ haltDue t.ridges[r] = true) :
    goOrPark t r = follow t r .inOrder :=
  if_pos (by
    rcases h with h | h
    · rw [h]; rfl
    · rw [h]; exact Bool.or_true _)

/-- An event jump that is due at the park gives the address of the resume, with both stacks empty (R57, R60). -/
theorem goOrPark_jumped {t : State} {r : RidgeId} (hp : t.ridges[r].park = true) (hh : haltDue t.ridges[r] = false)
    (hj : t.ridges[r].jumpIn = some 0) :
    goOrPark t r = endWith (modR t r fun x =>
      { x with pc := x.jumpTo, lastSeg := x.pc.seg, rep := 0, repFails := [], jumpIn := none, loops := [], calls := [] }) r .park := by
  have flow : checkpointFlow t r = some t.ridges[r].jumpTo := if_pos hj
  simp only [goOrPark, hp, hh, hj, flow, Bool.not_true, Bool.or_self, Bool.false_eq_true, if_false, decide_true, if_true]
  exact congrArg (endWith · r .park) (modR_congr rfl)

theorem goOrPark_parks {t : State} {r : RidgeId} {a : Addr} (hp : t.ridges[r].park = true) (hh : haltDue t.ridges[r] = false)
    (hj : t.ridges[r].jumpIn ≠ some 0) (hn : nextAddr t r = some a) :
    goOrPark t r = endWith (modR t r fun x => { x with pc := a, lastSeg := x.pc.seg, rep := 0, repFails := [] }) r .park := by
  have flow : checkpointFlow t r = some a := (if_neg hj).trans hn
  simp only [goOrPark, hp, hh, hj, flow, Bool.not_true, Bool.or_self, Bool.false_eq_true, if_false, decide_false]

/-- Settles O50: each opcode's row by the branch of its body that the vector's conditions choose. -/
theorem vectorOpcodes : Obligations.VectorOpcodes := by
  refine ⟨fun s r v hx => ?executed, ?parity, ?matchEnd, ?notReady⟩
  case executed =>
    intro u w goes
    have hu : seen s r = u := rfl
    have hw : w = vectorPeriod u r v false := rfl
    have flag : flagSeen s r = u.ridges[r].failSeen := rfl
    clear_value u w
    subst hw
    have run {op : Nat → Bool} {body : Vec → State → State} {t : State} (ho : op v.opcode = true) (hb : body v u = t) :
        done s (withVector s r false op body) = .next (after s (parkCheck t)) := done_withVector hx hu ho hb
    refine ⟨fun ho => ?nop, fun ho => ?rep, fun ho room => ?loopBegin,
      fun a n rest ho top => ⟨fun more => ?loopAgain, fun last => ?loopOver⟩, fun ho open_ => ?loopExit, fun ho => ?jump,
      fun ho room => ?call, fun a rest ho top => ?ret, fun ho => ?jumpFail, fun ho => ?jumpPass, fun ho => ?jumpTimeout,
      fun ho => ?clrFail, fun ho goesOn => ?matchGoesOn, fun ho => ?apgLoad, fun ho => ?apgOp, fun ho => ?signal,
      fun ho => ⟨fun go => ?checkpoint, fun hp hh => ⟨fun hj => ?parkJumped, fun a hj hn => ?park⟩⟩, fun ho => ?halt,
      fun ho => ?illegal⟩
    case illegal => exact run (by rw [ho]; rfl) rfl
    all_goals refine run (beq_iff_eq.mpr ho) ?_
    case nop => rfl
    case rep => simp only [decide_eq_true_eq]
    case loopBegin => exact if_neg (by omega)
    case loopAgain => simp only [top, more, decide_true, if_true, plainVector]
    case loopOver => simp only [top, Nat.not_lt.mpr last, decide_false, Bool.false_eq_true, if_false, if_true, plainVector]
    case loopExit => exact if_neg open_
    case jump => rfl
    case call => exact if_neg (by omega)
    case ret => simp only [top, plainVector, if_true]
    case jumpFail => rw [flag]; rfl
    case jumpPass => rw [flag]; rfl
    case jumpTimeout => rfl
    case clrFail => rfl
    case matchGoesOn => exact if_neg (not_not.mpr goesOn)
    case apgLoad => rfl
    case apgOp => rfl
    case signal => rfl
    case checkpoint => exact goOrPark_goes go
    case parkJumped => exact goOrPark_jumped hp hh hj
    case park => exact goOrPark_parks hp hh hj hn
    case halt => rfl
  case parity => exact fun s r v h hv => congrArg (done s) (withVector_parity h hv _ _)
  case matchEnd => exact fun s r h => congrArg (done s) (matchEnd_ready h)
  case notReady =>
    exact fun s r h => ⟨congrArg (done s) (withVector_notReady h ..), congrArg (done s) (matchEnd_notReady h),
      congrArg (done s) (withVector_notReady h ..)⟩

/-! ### The two stacks (R47) -/

theorem loops_pushed (s : State) (r : RidgeId) (v : Vec) (e : Addr × Word) :
    let t := advance (modR s r fun x => { x with loops := e :: x.loops }) r v
    t.ridges[r].loops = e :: s.ridges[r].loops ∧ t.ridges[r].calls = s.ridges[r].calls := by
  intro t
  have same := programs_advance (modR s r fun x => { x with loops := e :: x.loops }) r v
  rw [loops_of_programs same, calls_of_programs same, modR_ridge, if_pos rfl]
  exact ⟨rfl, rfl⟩

theorem calls_pushed (s : State) (r : RidgeId) (v : Vec) (a : Addr) :
    let t := advance (modR s r fun x => { x with calls := a :: x.calls }) r v
    t.ridges[r].calls = a :: s.ridges[r].calls ∧ t.ridges[r].loops = s.ridges[r].loops := by
  intro t
  have same := programs_advance (modR s r fun x => { x with calls := a :: x.calls }) r v
  rw [calls_of_programs same, loops_of_programs same, modR_ridge, if_pos rfl]
  exact ⟨rfl, rfl⟩

/-- Settles O52: the faults by the stack's condition in each opcode's body, and the executed vectors as their opcodes' rows give them. -/
theorem stackFaults : Obligations.StackFaults := by
  refine ⟨fun s r v hx => ?vectors, ?seen, fun s r detail => rfl⟩
  case vectors =>
    obtain ⟨-, -, begins, -, -, -, calls, -⟩ := vectorOpcodes.1 s r v hx
    intro u fault
    have loops : (onePeriod s r v).ridges[r].loops = u.ridges[r].loops := loops_of_programs (programs_vectorPeriod ..) r
    have open_ : (onePeriod s r v).ridges[r].calls = u.ridges[r].calls := calls_of_programs (programs_vectorPeriod ..) r
    have hu : seen s r = u := rfl
    refine ⟨fun ho full => ?_, fun ho full => ?_, fun ho empty => ?_, fun ho empty => ?_, fun ho empty => ?_, fun ho room => ?_,
      fun ho room => ?_⟩
    · exact done_withVector hx hu (beq_iff_eq.mpr ho) (if_pos full)
    · exact done_withVector hx hu (beq_iff_eq.mpr ho) (if_pos full)
    · refine done_withVector hx hu (beq_iff_eq.mpr ho) ?_
      clear_value u
      simp only [empty]
      rfl
    · exact done_withVector hx hu (beq_iff_eq.mpr ho) (if_pos empty)
    · refine done_withVector hx hu (beq_iff_eq.mpr ho) ?_
      clear_value u
      simp only [empty]
      rfl
    · obtain ⟨pushed, kept⟩ := loops_pushed (onePeriod s r v) r v (pushAddr u r, BitVec.ofNat 32 (max 1 v.operand))
      exact ⟨_, begins ho room, by rw [pushed, loops, List.length_cons], kept.trans open_⟩
    · obtain ⟨pushed, kept⟩ := calls_pushed (onePeriod s r v) r v (pushAddr u r)
      exact ⟨_, calls ho room, by rw [pushed, open_, List.length_cons], kept.trans loops⟩
  case seen => exact fun s r => ⟨loops_of_programs (programs_seen s r) r, calls_of_programs (programs_seen s r) r⟩

/-! ### MATCH (R51 to R53) -/

/-- The end of a MATCH on a ridge leaves its outcome. -/
theorem endMatchOne_matchOut {s : State} {q : RidgeId} (timeout : Bool) (h : (vecAt s q).isSome = true) :
    (endMatchOne timeout s q).ridges[q].matchOut = if timeout then .timedOut else .matched := by
  unfold endMatchOne
  split
  case h_1 hv => rw [hv] at h; cases h
  case h_2 v hv =>
    extract_lets x lanes s₁ s₂ s₃
    have logged : programs s₃ = programs s₁ := by
      unfold s₃
      split
      · exact (programs_of_ridges rfl).trans (programs_logEntry ..)
      · exact programs_logEntry ..
    rw [matchOut_of_programs ((programs_advance ..).trans logged), modR_ridge, if_pos rfl]

/-- Settles O53, from what each operation leaves of the outcome, and the row of JUMP_TIMEOUT. -/
theorem matchOutcome : Obligations.MatchOutcome := by
  refine ⟨fun _ _ _ => rfl, fun s q b => endMatchOne_matchOut b, fun s r q v b => ⟨?_, ?_, ?_⟩, fun s r v hx ho => ?jump⟩
  · exact matchOut_of_programs (programs_vectorPeriod ..) q
  · exact matchOut_of_programs (programs_advance ..) q
  · exact matchOut_of_programs (programs_seen ..) q
  case jump =>
    intro w
    obtain ⟨-, -, -, -, -, -, -, -, -, -, jumps, -⟩ := vectorOpcodes.1 s r v hx
    have same : (seen s r).ridges[r].matchOut = s.ridges[r].matchOut := matchOut_of_programs (programs_seen s r) r
    have run := jumps ho
    rw [same] at run
    have inOrder : s.ridges[r].matchOut ≠ .timedOut →
        exec (.jumpTimeout r) s = .next (after s (parkCheck (follow w r .inOrder))) := fun h => by rwa [if_neg h] at run
    exact ⟨fun h => by rwa [if_pos h] at run, inOrder, fun h => inOrder (by rw [h]; decide)⟩

end Sys2Proof.Machine
end

section
/-! What reset leaves (R42, R82, R131, R162, R252, R360, R364, R424, Table 2-4, Table 14-1). -/

namespace Sys2Proof.Machine

/-- A word that nothing has written reads as its table says. -/
theorem word_reset (i : Nat) : word State.reset i = (resetWord i).toNat := rfl

theorem reset_ridge (r : RidgeId) : State.reset.ridges[r] = Ridge.reset := by simp [State.reset]

/-- The quota of every ridge is 192 slots at reset (R82). -/
theorem quota_reset (r : RidgeId) : word State.reset (rdgW r 0x10) = 192 := by
  rw [word_reset, resetWord, wordInfo_rdgW r 0x10 (by decide)]
  rfl

/-- Settles O6: each unit's reset state, and the reset value of the quota word. -/
theorem resetLeaves : Obligations.ResetLeaves := by
  refine ⟨rfl, rfl, fun r => ⟨?_, quota_reset r⟩, fun p => ?_, fun n => ?_, ?_, ?_, rfl, rfl, fun q => rfl, fun k => ?_, ?_, ?_,
    rfl, rfl, rfl, rfl⟩
  · rw [reset_ridge]; rfl
  · rw [reset_pin]; exact ⟨rfl, rfl, rfl⟩
  · rw [reset_supply]; exact ⟨rfl, rfl⟩
  · simp [State.reset]
  · simp [State.reset, Events.reset]
  · simp [State.reset, Sq.reset, Cq.reset]
  · simp [State.reset, Smon.reset]
  · simp [State.reset, Sensor.reset]

end Sys2Proof.Machine
end

section
/-! Event jumps and holds (R56 to R58, R64, R80, R91, R97, R98, R101). -/

namespace Sys2Proof.Machine

/-! ### EVENT_JUMP_LATCH (R57, R64) -/

theorem each_cons {α : Type} (a : α) (l : List α) (f : State → α → State) (s : State) :
    each (a :: l) f s = each l f (f s a) := rfl

theorem Ridge.latch_unarmed {x : Ridge} (t : T64) (h : x.arm = none) : x.latch t = x := by
  unfold Ridge.latch
  rw [h]

theorem Ridge.latch_armed {x : Ridge} {b : Arm} (t : T64) (h : x.arm = some b) :
    x.latch t = { x with arm := none, jumpIn := some (24 - if ranSince x t then 1 else 0), jumpTo := b.target } := by
  unfold Ridge.latch
  rw [h]

/-- A ridge that has latched has no arm left to latch. -/
theorem Ridge.latch_latch (x : Ridge) (t : T64) : (x.latch t).latch t = x.latch t := by
  refine Ridge.latch_unarmed t ?_
  cases h : x.arm with
  | none => rw [Ridge.latch_unarmed t h, h]
  | some b => rw [Ridge.latch_armed t h]

/-- Each ridge of a list latches once, however often the list names it. -/
theorem each_latch (t : T64) (l : List RidgeId) (s : State) (q : RidgeId) :
    (each l (fun s q => modR s q fun y => y.latch t) s).ridges[q] = if q ∈ l then s.ridges[q].latch t else s.ridges[q] := by
  induction l generalizing s with
  | nil => rfl
  | cons p l ih =>
    rw [each_cons, ih, modR_ridge]
    by_cases hp : p = q
    · subst hp
      simp only [if_true, List.mem_cons_self, Ridge.latch_latch, ite_self]
    · simp only [if_neg hp, List.mem_cons, Ne.symm hp, false_or]

/-- Once the event has arrived, every running ridge of a gang that stands at one boundary latches (R57, R64). -/
theorem eventJumpLatch_ridge {s : State} {r : RidgeId} {a : Arm} (hl : Live s) (ha : s.ridges[r].arm = some a)
    (arrived : a.arrived = true) (hj : s.ridges[r].jumpIn = none) (hr : s.ridges[r].st = .running ∨ s.ridges[r].st = .hold)
    (together : ∀ q ∈ gang s r, (s.ridges[q].st = .running ∨ s.ridges[q].st = .hold) →
      latchPeriod s.ridges[q] a.at_ = latchPeriod s.ridges[r] a.at_)
    {q : RidgeId} (live : s.ridges[q].st = .running ∨ s.ridges[q].st = .hold) :
    q ∈ gang s r → (eventJumpLatchEffect r s).ridges[q] = s.ridges[q].latch a.at_ := by
  obtain ⟨safe, shutdown⟩ := hl
  unfold eventJumpLatchEffect
  extract_lets x alive g
  have runs (p : RidgeId) : alive p = true ↔ (s.ridges[p].st = .running ∨ s.ridges[p].st = .hold) := by
    dsimp only [alive]
    cases s.ridges[p].st <;> simp
  have none_apart : (g.any fun p => decide (latchPeriod s.ridges[p] a.at_ ≠ latchPeriod x a.at_)) = false := by
    refine List.any_eq_false.mpr fun p hp => ?_
    obtain ⟨hp, lp⟩ := List.mem_filter.mp hp
    rw [together p hp ((runs p).mp lp)]
    simp only [x, ne_eq, not_true_eq_false, decide_false, Bool.false_eq_true, not_false_eq_true]
  have ready : alive r = true := (runs r).mpr hr
  have armed : x.arm = some a := ha
  have unlatched : x.jumpIn = none := hj
  simp only [armed, arrived, unlatched, ready, safe, shutdown, none_apart]
  exact fun hq => (each_latch ..).trans (if_pos (List.mem_filter.mpr ⟨hq, (runs q).mpr live⟩))

/-! ### EVENT_JUMP, HOLD_RESUME, HOLD_TIMEOUT -/

theorem eventJump_due {s : State} {r : RidgeId} (hl : Live s) (hr : s.ridges[r].st = .running) (hj : s.ridges[r].jumpIn = some 0)
    (hb : s.ridges[r].atBoundary = false) (hw : s.ridges[r].applyWait = false) (ha : s.ridges[r].after = .go)
    (ended : reached s.now s.ridges[r].start = true) (hh : haltDue s.ridges[r] = false) :
    eventJumpEffect r s =
      let u := modR (settleMatch (each (running s r) judge s) r).1 r fun x =>
        { x with loops := [], calls := [], jumpIn := none, open_ := x.open_.filter (!·.isRep) }
      parkCheck (restage (goTo u r s.ridges[r].jumpTo true) [r]) := by
  obtain ⟨safe, shutdown⟩ := hl
  refine if_neg ?_
  simp only [hr, hj, hb, hw, ha, ended, hh, safe, shutdown, ne_eq, not_true_eq_false, Bool.not_true, Bool.false_eq_true, or_self,
    not_false_eq_true]

theorem holdResume_due {s : State} {r : RidgeId} {a : T64} (hl : Live s) (hr : s.ridges[r].st = .hold)
    (arrived : lastArrival s ((gang s r).filter fun q => decide (s.ridges[q].st = .hold)) = some a)
    (ended : reached s.now (a + ticksFu 4) = true)
    (resident : ∀ q ∈ (gang s r).filter fun q => decide (s.ridges[q].st = .hold), s.ridges[q].pc.seg ∈ s.ridges[q].resident) :
    holdResumeEffect r s = crossIfDue (each ((gang s r).filter fun q => decide (s.ridges[q].st = .hold)) (fun s q =>
      let start := gridPoint s.ridges[q].start (a + ticksFu 4) s.ridges[q].lastPeriod
      writeSpecial (modR s q fun x => { x with st := .running, start := start, arrival := none, atBoundary := true }) q start
        [specialRec 4 start.toNat] false) s) r := by
  obtain ⟨safe, shutdown⟩ := hl
  have all : ((gang s r).filter fun q => decide (s.ridges[q].st = .hold)).all
      (fun q => decide (s.ridges[q].pc.seg ∈ s.ridges[q].resident)) = true :=
    List.all_eq_true.mpr fun q hq => decide_eq_true (resident q hq)
  unfold holdResumeEffect
  simp only [arrived, hr, ended, safe, shutdown, all, ne_eq, not_true_eq_false, Bool.not_true, Bool.false_eq_true, or_self, if_false]

theorem holdTimeout_due {s : State} {r : RidgeId} (hl : Live s) (hr : s.ridges[r].st = .hold)
    (ended : msTicks 10 ≤ s.ticks - s.ridges[r].holdSince) :
    holdTimeoutEffect r s = parkCheck (ridgeFault s r 6 none false) := by
  obtain ⟨safe, shutdown⟩ := hl
  exact if_pos ⟨hr, ended, by rw [safe]; rfl, by rw [shutdown]; rfl⟩

/-- Settles O49: the packet by the branches of its body, and each row by what its instant brings. -/
theorem jumpsAndHolds : Obligations.JumpsAndHolds := by
  refine ⟨?arm, ?latch, ?jump, ?resume, ?timeout⟩
  case arm =>
    intro s h source disarm target
    dsimp only
    intro ha
    refine ⟨fun hd => ?disarm, fun hd unbound => ?unbound, fun hd bound => ⟨fun st info hb => ?badTarget, fun hb full => ?full,
      fun hb fits => ?arms⟩⟩
    all_goals
      change done s (eventJumpArmEffect h source disarm target s) = _
      unfold eventJumpArmEffect
      refine done_command_of_body 0x22 ha rfl ?_
      generalize ensureTaken s h 0x22 = u at *
      simp only [hd, Bool.false_eq_true, if_false, if_true]
    case unbound =>
      obtain ⟨q, hq, hu⟩ := unbound
      exact if_pos (List.any_eq_true.mpr ⟨q, hq, decide_eq_true hu⟩)
    all_goals
      have allBound : ¬((gang u (hdrRidge h)).any fun q => decide (u.ridges[q].st = .unbound)) = true :=
        Bool.eq_false_iff.mp (List.any_eq_false.mpr fun q hq => by simpa only [decide_eq_true_eq] using bound q hq)
      simp only [allBound, Bool.false_eq_true, if_false, hb]
    case full =>
      obtain ⟨q, hq, hu⟩ := full
      exact if_pos (List.any_eq_true.mpr ⟨q, hq, decide_eq_true hu⟩)
    case arms =>
      refine if_neg (Bool.eq_false_iff.mp (List.any_eq_false.mpr fun q hq => ?_))
      simpa only [decide_eq_true_eq, not_lt] using fits q hq
  case latch =>
    intro s r a hl ha arrived hj hr together
    refine ⟨_, done_eq s (eventJumpLatchEffect r s), fun q hq live b hb => ?_⟩
    rw [after_ridges, eventJumpLatch_ridge hl ha arrived hj hr together live hq]
    rw [Ridge.latch_armed _ hb]
    exact ⟨rfl, rfl, rfl⟩
  case jump =>
    exact fun s r hl hr hj hb hw ha ended hh => congrArg (done s) (eventJump_due hl hr hj hb hw ha ended hh)
  case resume =>
    exact fun s r a hl hr arrived ended resident => congrArg (done s) (holdResume_due hl hr arrived ended resident)
  case timeout => exact fun s r hl hr ended => congrArg (done s) (holdTimeout_due hl hr ended)

end Sys2Proof.Machine
end

section
/-! SUPPORT. The injections that wait: every operation that ends, aborts or stages leaves them, but for the commits' own accesses to
QSTORE (R382, R390). -/

namespace Sys2Proof.Machine

/-- The injections that wait on the sources other than QSTORE, whose accesses are the entries committed. -/
def injects (s : State) : List Inject := s.bear.inject.filter fun j => decide (j.bit ≠ 24)

theorem injectOn_of_injects {s t : State} {b : Fin 64} (h : injects t = injects s) (hb : b ≠ 24) : injectOn t b = injectOn s b := by
  have find (u : State) : u.bear.inject.find? (fun j => decide (j.bit = b)) = (injects u).find? (fun j => decide (j.bit = b)) := by
    rw [injects, List.find?_filter]
    refine congrArg (List.find? · u.bear.inject) (funext fun j => ?_)
    by_cases hj : j.bit = b <;> simp [hj, hb]
  rw [injectOn, injectOn, find, find, h]

theorem injects_of_silent {s t : State} (h : silent t = silent s) : injects t = injects s :=
  congrArg (fun x => x.2.1.inject.filter fun j => decide (j.bit ≠ 24)) h

theorem injects_withBear (s : State) (b : Bear) (h : b.inject = s.bear.inject) : injects { s with bear := b } = injects s := by
  rw [injects, h, injects]

theorem injects_each {α : Type} {l : List α} {f : State → α → State} {s : State} (h : ∀ s a, injects (f s a) = injects s) :
    injects (each l f s) = injects s :=
  each_ind (injects · = injects s) rfl fun u a hu => (h u a).trans hu

/-! ### Replies, events and the fault log -/

theorem injects_raise (s : State) (src payload : Nat) : injects (raise s src payload) = injects s := by
  obtain ⟨e, c, h⟩ := raise_eq s src payload
  rw [h]
  rfl

theorem injects_refuse (s : State) (h : Hdr) (op st info : Nat) : injects (refuse s h op st info) = injects s :=
  injects_of_silent (silent_refuse ..)

theorem injects_replyDone (s : State) (h : Hdr) (op info : Nat) : injects (replyDone s h op info) = injects s :=
  injects_refuse s h op 0x00 info

theorem injects_serveWaits (s : State) : injects (serveWaits s) = injects s := by
  unfold serveWaits
  split
  · rfl
  · split
    exact injects_each fun _ _ => injects_replyDone ..

theorem injects_logFault (s : State) (d : Detect) (packets tickets : Nat) : injects (logFault s d packets tickets) = injects s := by
  obtain ⟨log, h⟩ := logFault_silent s d packets tickets
  exact congrArg (fun x => x.2.1.inject.filter fun j => decide (j.bit ≠ 24)) h

theorem injects_contained {s : State} (d : Detect) {rollback : State → State} (h : injects (rollback s) = injects s) :
    injects (contained s d rollback) = injects s := by
  refine (injects_logFault ..).trans ?_
  split
  · rfl
  · exact h

/-! ### Commits and tickets (R225, R257, R378) -/

/-- The access of an entry written uses up an injection on QSTORE alone. -/
theorem injects_useInject_qstore (s : State) : injects (useInject s 24) = injects s := by
  simp only [injects, useInject]
  induction s.bear.inject with
  | nil => rfl
  | cons j l ih =>
    by_cases hj : j.bit = 24
    · by_cases hl : j.left ≤ 1
      · simpa [hj, hl] using ih
      · simpa [hj, hl] using ih
    · simpa [hj] using ih

theorem injects_qstoreInject (n : Nat) (s : State) : injects (qstoreInject n s).1 = injects s := by
  induction n generalizing s with
  | zero => rfl
  | succ n ih =>
    refine (ih _).trans ?_
    split
    · rfl
    · exact injects_useInject_qstore s

theorem injects_commitPkt (s : State) (id : Nat) (typ : BitVec 3) (payload : List (BitVec 96)) :
    injects (commitPkt s id typ payload) = injects s :=
  injects_qstoreInject payload.length s

theorem injects_dropTicket (s : State) (num : BitVec 17) : injects (dropTicket s num) = injects s := by
  unfold dropTicket
  split <;> rfl

theorem injects_placeOne (s : State) (t : Ticket) : injects (placeOne s t) = injects s := by
  unfold placeOne
  extract_lets fresh s₁ s₂
  have h₁ : injects s₁ = injects s := by
    unfold s₁
    split <;> rfl
  have h₂ : injects s₂ = injects s := by
    unfold s₂
    split <;> rfl
  split
  · rfl
  · split
    case h_1 =>
      split
      · rfl
      · dsimp only
        split
        · rfl
        · split
          · exact h₁
          · rfl
    case h_2 =>
      split
      · rfl
      · dsimp only
        split
        · rfl
        · split
          · exact h₂
          · rfl
    case h_3 => rfl

theorem injects_releaseJob (s : State) (t : Ticket) : injects (releaseJob s t) = injects s := by
  unfold releaseJob
  split
  · exact injects_each fun _ _ => rfl
  · rfl
  · split <;> rfl

theorem injects_endTicket (s : State) (num : BitVec 17) (status : Nat) : injects (endTicket s num status) = injects s := by
  unfold endTicket
  split
  · rfl
  · exact (injects_dropTicket ..).trans ((injects_commitPkt ..).trans (injects_releaseJob ..))

theorem injects_endTickets (s : State) (p : Ticket → Bool) (status : Nat) : injects (endTickets s p status) = injects s :=
  (injects_each injects_placeOne).trans (injects_each fun _ _ => injects_endTicket ..)

theorem injects_rollbackQueue (s : State) (id status : Nat) : injects (rollbackQueue s id status) = injects s :=
  injects_each (s := removeWaiting s id fun _ => true) fun _ _ => injects_endTicket ..

theorem injects_rollbackRidges (s : State) (rs : List RidgeId) (status : Nat) :
    injects (rollbackRidges s rs status) = injects s :=
  (injects_each fun _ _ => injects_rollbackQueue ..).trans (injects_endTickets ..)

/-! ### Images and staging (R78, R79, R85) -/

theorem injects_dropCopies (s : State) (h : Handle) : injects (dropCopies s h) = injects s := injects_each fun _ _ => rfl

theorem injects_freeImage (s : State) (h : Handle) : injects (freeImage s h) = injects s := by
  unfold freeImage
  split
  · rfl
  · exact injects_dropCopies ..

theorem injects_sweep (s : State) : injects (sweep s) = injects s :=
  injects_each fun _ _ => (injects_raise ..).trans (injects_freeImage ..)

theorem injects_restage (s : State) (rs : List RidgeId) : injects (restage s rs) = injects s :=
  (injects_sweep ..).trans (injects_each fun _ _ => rfl)

/-! ### The end of a run (R41, R59, R116, R188) -/

theorem injects_stopAwg (s : State) (n : RidgeId) : injects (stopAwg s n) = injects s := injects_sweep ..

theorem injects_stopWithRidge (s : State) (r : RidgeId) : injects (stopWithRidge s r) = injects s := by
  unfold stopWithRidge
  split
  · exact injects_stopAwg ..
  · rfl

theorem injects_idleSwap (s : State) (r : RidgeId) (t : T64) : injects (idleSwap s r t) = injects s := by
  unfold idleSwap
  split
  · exact injects_raise ..
  · rfl

theorem injects_endRun (s : State) (r : RidgeId) (t : T64) : injects (endRun s r t) = injects s :=
  (injects_restage ..).trans ((injects_stopWithRidge ..).trans ((injects_idleSwap ..).trans (injects_raise ..)))

theorem injects_stopRidge (s : State) (r : RidgeId) : injects (stopRidge s r) = injects s := by
  unfold stopRidge
  split
  · rfl
  · rfl
  · exact injects_restage ..
  · exact injects_endRun ..
  · exact injects_endRun ..
  · exact injects_endRun ..

/-! ### Supplies (R155, R156, R163) -/

theorem injects_setLevel (s : State) (n : RidgeId) (v : Int) : injects (setLevel s n v) = injects s := rfl

theorem injects_dpsMove (s : State) (n : RidgeId) (slewed : Bool) (v : Int) : injects (dpsMove s n slewed v) = injects s := by
  unfold dpsMove
  extract_lets x t
  split
  · split
    · rfl
    · exact injects_raise ..
  · split
    · rfl
    · exact injects_raise ..

theorem injects_dpsConnect (s : State) (n : RidgeId) (out : DpsOut) : injects (dpsConnect s n out) = injects s := by
  unfold dpsConnect
  split <;> rfl

theorem injects_dpsDisconnect (s : State) (n : RidgeId) (slewed : Bool) : injects (dpsDisconnect s n slewed) = injects s := by
  unfold dpsDisconnect
  extract_lets x
  split
  · exact injects_dpsMove ..
  · rfl

theorem injects_dpsFault (s : State) (n : RidgeId) : injects (dpsFault s n) = injects s := by
  unfold dpsFault
  extract_lets v slewed s₁ lv start s₂
  split
  · exact injects_dpsDisconnect ..
  · rfl
  · have h₂ : injects s₂ = injects s₁ := by
      unfold s₂
      split
      · rfl
      · rfl
      · exact injects_dpsConnect ..
    split
    · exact (injects_dpsMove ..).trans h₂
    · exact h₂

/-! ### Rollbacks and the safe state (R379, R384, R385) -/

theorem injects_abortGang (r : RidgeId) (s : State) : injects (abortGang r s) = injects s := by
  unfold abortGang
  extract_lets g s₁ s₂ s₃
  have h₁ : injects s₁ = injects s := injects_each fun u q => by
    split
    · rfl
    · rfl
    · exact injects_stopRidge ..
  have h₂ : injects s₂ = injects s := (injects_rollbackRidges ..).trans h₁
  have h₃ : injects s₃ = injects s := (injects_each fun u n => by
    split
    · exact injects_dpsFault ..
    · rfl).trans h₂
  exact (injects_serveWaits ..).trans ((injects_each injects_stopAwg).trans h₃)

theorem injects_ridgeFault (s : State) (r : RidgeId) (det : Nat) (detail : Option Nat) (injected : Bool) :
    injects (ridgeFault s r det detail injected) = injects s :=
  injects_contained _ (injects_abortGang r s)

theorem injects_startQuiet (s : State) : injects (startQuiet s) = injects s := by
  unfold startQuiet
  split <;> rfl

theorem injects_enterSafe (s : State) : injects (enterSafe s) = injects s := by
  unfold enterSafe
  extract_lets live s₁ b s₂ s₃ s₄ s₅
  have h₁ : injects s₁ = injects s := injects_each fun u r => injects_abortGang r u
  have h₂ : injects s₂ = injects s := (injects_withBear s₁ _ rfl).trans h₁
  have h₃ : injects s₃ = injects s := (injects_each injects_dpsFault).trans h₂
  have h₄ : injects s₄ = injects s := (injects_each injects_stopAwg).trans h₃
  have h₅ : injects s₅ = injects s₄ := injects_each fun _ _ => rfl
  exact (injects_startQuiet ..).trans (h₅.trans h₄)

theorem injects_parkCheck (s : State) : injects (parkCheck s) = injects s := by
  unfold parkCheck
  split
  · exact injects_enterSafe ..
  · rfl

/-! ### Staging fetches (R96) -/

theorem injects_fetchFails (s : State) (r : RidgeId) (h : Handle) (injected : Bool) :
    injects (fetchFails s r h injected) = injects s := by
  unfold fetchFails
  split
  · extract_lets waiting s₁ g s₂
    split
    · refine (injects_serveWaits ..).trans ((injects_logFault ..).trans ?_)
      exact injects_each fun _ _ => injects_endRun ..
    · exact injects_ridgeFault ..
  · rfl

end Sys2Proof.Machine
end

section
/-! Images and bindings (R33, R40, R73, R78 to R80, R84, R85, R91, R92, R96, R182). -/

namespace Sys2Proof.Machine

/-- A row of the HBM controller that no injection on its PHY meets (R390). -/
theorem done_phyCommand {s t : State} (h0 : injectOn s 22 = none) (h : injects t = injects s) :
    done s (phyCommand s t) = .next (after s t) := by
  rw [phyCommand, injectOn_of_injects h (by decide), h0, done_eq]

/-! ### SEG_LOAD_DONE (R73, R78) -/

/-- The image that a load stores in its frame. -/
def loadedImage (frame : Nat) (i : SegImage) : Image :=
  { frame := frame, analog := i.kind == 1, next := h20 i.next, span := i.bodySpan.toNat, relPending := false, crc := i.crc,
    payload := i.payload }

/-- A load in progress, with the frame it was given, when Marten completes it. -/
def LoadRuns (s : State) (k : Handle) (l : Long) (f : Option (Nat × Nat × Nat)) : Prop :=
  Live s ∧ findLong s (fun j => match j with | .segLoad x _ => decide (x = k) | _ => false) = some l ∧ l.job = .segLoad k f

/-- What Marten leaves of a load: the image in its frame, or its frame given back (R73). -/
theorem segLoadDone_runs {s : State} {k : Handle} {l : Long} {f : Option (Nat × Nat × Nat)} (hl : LoadRuns s k l f)
    (i : SegImage) :
    (imageOk k i = false →
      segLoadDoneEffect k i s = refuse (restage (each f.toList undoAlloc (dropLong s l)) allRidges) l.hdr 0x10 BAD_PARAM 0) ∧
    (∀ fr, imageOk k i = true → f = some fr →
      segLoadDoneEffect k i s = replyDone (restage (each allRidges renewRefs
        (dropCopies (putImg (dropLong s l) k (some (loadedImage fr.1 i))) k)) allRidges) l.hdr 0x10 0) := by
  obtain ⟨⟨safe, shutdown⟩, found, job⟩ := hl
  unfold segLoadDoneEffect
  split
  case h_1 hn => exact nomatch hn.symm.trans found
  case h_2 l' hl' =>
    obtain rfl : l' = l := Option.some.inj (hl'.symm.trans found)
    refine ⟨fun bad => ?_, fun fr ok hf => ?_⟩
    · simp only [safe, shutdown, job, bad, Bool.or_self, Bool.false_eq_true, if_false]
    · simp only [safe, shutdown, job, ok, hf, Bool.or_self, Bool.false_eq_true, if_false, if_true, loadedImage]

/-! ### STAGING_FETCH_DONE (R33, R73, R85, R92, R96) -/

theorem slotWrite_clear {s : State} (h : injectOn s 23 = none) (r : RidgeId) (k : Handle) (due : Nat) :
    slotWrite s r k due = copyArrives s r k due := by
  simp only [slotWrite, accessInject, h]

/-- What the read of a staging fetch brings, with no injection on HBM (R96). -/
theorem stageRead_clear {s : State} (hc : injectOn s 20 = none) (hu : injectOn s 21 = none) (r : RidgeId) (k : Handle) (due : Nat) :
    stageRead s r k due .clean = slotWrite s r k due ∧
    stageRead s r k due .corrected = slotWrite (corrected s 20 0 false) r k due ∧
    stageRead s r k due .failed = fetchFails s r k false := by
  simp only [stageRead, accessInject, hc, hu, and_self]

theorem stagingFetch_due {s : State} {r : RidgeId} {k : Handle} {f : Handle × Nat} (hl : Live s)
    (found : (s.ridges[r].fetches ++ s.ridges[r].lentDue).find? (fun f => decide (f.1 = k)) = some f)
    (image : (getImg s k).isSome = true) (hload : loading s k = false) (first : fetchWaits s r k = false) (read : Secded) :
    stagingFetchDoneEffect r k read s = parkCheck (stageRead s r k f.2 read) := by
  obtain ⟨safe, shutdown⟩ := hl
  have present : (getImg s k).isNone = false := by rw [← Option.not_isSome, image]; rfl
  simp only [stagingFetchDoneEffect, safe, shutdown, present, hload, first, found, Bool.or_self, Bool.false_eq_true, if_false]

theorem stagingFetch_idle {s : State} {r : RidgeId} {k : Handle} (read : Secded)
    (h : ¬Live s ∨ (getImg s k).isNone = true ∨ loading s k = true ∨ fetchWaits s r k = true ∨
      (s.ridges[r].fetches ++ s.ridges[r].lentDue).find? (fun f => decide (f.1 = k)) = none) :
    stagingFetchDoneEffect r k read s = s := by
  unfold stagingFetchDoneEffect
  extract_lets x
  split
  · rfl
  case isFalse blocked =>
    simp only [Bool.or_eq_true, not_or, Bool.not_eq_true] at blocked
    obtain ⟨⟨⟨⟨safe, shutdown⟩, image⟩, hload⟩, first⟩ := blocked
    have none_due : (x.fetches ++ x.lentDue).find? (fun f => decide (f.1 = k)) = none := by
      rcases h with h | h | h | h | h
      · exact absurd ⟨safe, shutdown⟩ h
      · rw [image] at h; cases h
      · rw [hload] at h; cases h
      · rw [first] at h; cases h
      · exact h
    rw [none_due]

theorem injects_copyArrives (s : State) (r : RidgeId) (k : Handle) (due : Nat) : injects (copyArrives s r k due) = injects s := rfl

theorem injects_corrected (s : State) (bit : Fin 64) (det : Nat) (injected : Bool) :
    injects (corrected s bit det injected) = injects s := injects_logFault ..

/-- Settles O45: each packet by the branches of its body, and each row of the store by what has come for it. -/
theorem segmentCommands : Obligations.SegmentCommands := by
  refine ⟨?load, fun s a => ⟨rfl, rfl, fun h => if_pos h⟩, ?release, ?pin, ?unpin, ?bind, ?fetch, ?idle⟩
  case load =>
    intro s k i l f live h22 found job
    obtain ⟨refused, stored⟩ := segLoadDone_runs ⟨live, found, job⟩ i
    refine ⟨fun bad => ?_, fun fr ok hf => ?_⟩
    · refine refused bad ▸ done_phyCommand h22 (refused bad ▸ ?_)
      exact (injects_refuse ..).trans ((injects_restage ..).trans (injects_each fun _ _ => rfl))
    · refine stored fr ok hf ▸ done_phyCommand h22 (stored fr ok hf ▸ ?_)
      refine (injects_replyDone ..).trans ((injects_restage ..).trans (Eq.trans (injects_each fun _ _ => ?_) (injects_dropCopies ..)))
      rfl
  case release =>
    intro s h handle ha
    refine ⟨fun hn => ?_, fun i hi hp => ?_, fun i hi hp hc => ?_, fun i hi hp hc => ?_⟩
    · refine done_command_of_body 0x11 ha rfl ?_
      rw [hn]
    all_goals
      refine done_command_of_body 0x11 ha rfl ?_
      rw [hi]
    · exact if_pos hp
    · exact (if_neg (Bool.eq_false_iff.mp hp)).trans (if_pos hc)
    · exact (if_neg (Bool.eq_false_iff.mp hp)).trans (if_neg hc)
  case pin =>
    intro s h handle
    dsimp only
    intro ha
    refine ⟨fun ht hk => ?_, fun hk full => ?_, fun fits ht => ?_, fun fits ht hk => ?_⟩
    all_goals refine done_command_of_body 0x12 ha rfl ?_
    · exact if_pos ⟨ht, hk⟩
    · exact (if_neg hk).trans (if_pos full)
    · have notTaken : ¬(takesRef (ensureTaken s h 0x12) (h20 handle) = true) := Bool.eq_false_iff.mp ht
      exact (if_neg fun both => notTaken both.1).trans ((if_neg (Nat.not_lt.mpr fits)).trans (if_pos (by rw [ht]; rfl)))
    · exact (if_neg fun both => hk both.2).trans ((if_neg (Nat.not_lt.mpr fits)).trans (if_neg (by rw [ht]; decide)))
  case unpin =>
    intro s h handle
    dsimp only
    intro ha
    exact ⟨fun hk => done_command_of_body 0x13 ha rfl (if_neg hk), fun hk => done_command_of_body 0x13 ha rfl (if_pos hk)⟩
  case bind =>
    intro s h handle unbind maxBody d targets
    dsimp only
    intro ha
    refine ⟨fun hr => ?_, fun hr hu => ?_, fun hr hu range => ?_, fun hr hu hb hd => ⟨fun st info hh => ?_,
      fun hh full => ?_, fun hh fits => ?_⟩⟩
    all_goals refine done_command_of_body 0x14 ha rfl ?_
    · exact if_pos hr
    all_goals refine (if_neg (Bool.eq_false_iff.mp hr)).trans ?_
    · exact if_pos hu
    all_goals refine (if_neg (Bool.eq_false_iff.mp hu)).trans ?_
    · exact if_pos range
    all_goals
      refine (if_neg (by omega)).trans ?_
      rw [hh]
    · exact if_pos full
    · exact if_neg (Nat.not_lt.mpr fits)
  case fetch =>
    intro s r k f live h20 h21 h22 h23 found image hload first
    have due := stagingFetch_due live found image hload first
    obtain ⟨clean, repaired, failed⟩ := stageRead_clear h20 h21 r k f.2
    have run {t : State} (c : Secded) (e : stageRead s r k f.2 c = t) (hi : injects t = injects s) :
        exec (.stagingFetchDone r k c) s = .next (after s (parkCheck t)) := by
      have e' : stagingFetchDoneEffect r k c s = parkCheck t := (due c).trans (congrArg parkCheck e)
      exact e' ▸ done_phyCommand h22 (e' ▸ (injects_parkCheck t).trans hi)
    have h23c : injectOn (corrected s 20 0 false) 23 = none := (injectOn_of_injects (injects_corrected ..) (by decide)).trans h23
    exact ⟨run .clean (clean.trans (slotWrite_clear h23 ..)) (injects_copyArrives ..),
      run .corrected (repaired.trans (slotWrite_clear h23c ..)) ((injects_copyArrives ..).trans (injects_corrected ..)),
      run .failed failed (injects_fetchFails ..)⟩
  case idle =>
    intro s r k read h
    have e := stagingFetch_idle read h
    have still : phyCommand s s = s := by
      unfold phyCommand
      split
      · rfl
      · exact if_pos rfl
    exact (congrArg (fun t => done s (phyCommand s t)) e).trans (congrArg (done s) still)

end Sys2Proof.Machine
end

section
/-! SUPPORT. What leaves the segment store alone, and what a sparse store lists (R74, R78). -/

namespace Sys2Proof.Machine

/-! ### Sparse stores -/

/-- An entry of a canonical store is what its key reads as. -/
theorem sget_of_mem {α : Type} [DecidableEq α] {d : Nat → α} {m : Sparse α} {e : Nat × α} (w : swf d m = true) (he : e ∈ m) :
    sget d m e.1 = e.2 := by
  have above (lo : Option Nat) (w : swfFrom d lo m = true) : (∀ l, lo = some l → l < e.1) ∧ sget d m e.1 = e.2 := by
    induction m generalizing lo with
    | nil => cases he
    | cons x m ih =>
      obtain ⟨j, v⟩ := x
      simp only [swfFrom, Bool.and_eq_true, decide_eq_true_eq] at w
      obtain ⟨⟨hlo, -⟩, hm⟩ := w
      have first (l : Nat) (hl : lo = some l) : l < j := by subst hl; exact of_decide_eq_true hlo
      rcases List.mem_cons.mp he with rfl | he
      · exact ⟨first, if_pos rfl⟩
      · obtain ⟨hj, hv⟩ := ih (swfFrom_none d hm) he (some j) hm
        exact ⟨fun l hl => (first l hl).trans (hj j rfl), (if_neg (hj j rfl).ne').trans hv⟩
  exact (above none w).2

/-- A store lists no key but its own and those listed before. -/
theorem mem_sput {α : Type} [DecidableEq α] {d : Nat → α} {m : Sparse α} {k : Nat} {v : α} {e : Nat × α}
    (he : e ∈ sput d m k v) : e.1 = k ∨ e ∈ m := by
  induction m with
  | nil => unfold sput at he; grind
  | cons x m ih => unfold sput at he; grind

/-! ### Replies and staging -/

theorem store_cqWrite (s : State) (c : Fin 64) (entry : List Byte) : (cqWrite s c entry).store = s.store := by
  unfold cqWrite
  dsimp only
  split <;> rfl

theorem store_sendRing (s : State) (dest : Option Nat) (m : RingMsg) : (sendRing s dest m).store = s.store := by
  unfold sendRing
  dsimp only
  split <;> rfl

theorem store_deliverList (q : Fin 64) (l : List Taken) (s : State) : (deliverList q l s).store = s.store := by
  induction l generalizing s with
  | nil => rfl
  | cons t ts ih =>
    unfold deliverList
    split
    · rfl
    · split
      · exact ih _
      · split
        · exact (ih _).trans (store_cqWrite ..)
        · rfl

theorem store_setReply (s : State) (q : Fin 64) (era : Nat) (seq : Word) (r : Reply) :
    (setReply s q era seq r).store = s.store := store_deliverList ..

theorem store_replyDone (s : State) (h : Hdr) (op info : Nat) : (replyDone s h op info).store = s.store := by
  unfold replyDone answer
  dsimp only
  split
  · exact store_sendRing ..
  · unfold memberReply
    split
    · rfl
    · split
      · exact store_setReply ..
      · split
        · rfl
        · dsimp only
          split
          · exact store_setReply ..
          · rfl

theorem store_raise (s : State) (src payload : Nat) : (raise s src payload).store = s.store := by
  obtain ⟨e, c, h⟩ := raise_eq s src payload
  rw [h]

theorem store_each {α : Type} {l : List α} {f : State → α → State} {s : State} (h : ∀ s a, (f s a).store = s.store) :
    (each l f s).store = s.store :=
  each_ind (·.store = s.store) rfl fun u a hu => (h u a).trans hu

theorem store_dropCopies (s : State) (h : Handle) : (dropCopies s h).store = s.store := store_each fun _ _ => rfl

theorem store_renewRefs (s : State) (n : RidgeId) : (renewRefs s n).store = s.store := rfl

theorem store_restageOne (s : State) (r : RidgeId) : (restageOne s r).store = s.store := rfl

theorem after_store (s u : State) : (after s u).store = u.store := by simp only [after, settle_store]

/-! ### Images -/

theorem getImg_of_store {s t : State} (h : t.store = s.store) (k : Handle) : getImg t k = getImg s k := by
  rw [getImg, getImg, h]

theorem getImg_putImg_same {s : State} (hc : Canonical s) (k : Handle) (i : Option Image) : getImg (putImg s k i) k = i :=
  sget_sput_same imgDflt _ _ _ hc.i

theorem getImg_putImg_other (s : State) {h k : Handle} (i : Option Image) (hk : k ≠ h) :
    getImg (putImg s h i) k = getImg s k :=
  sget_sput_other imgDflt _ _ _ _ fun e => hk (BitVec.eq_of_toNat_eq e)

/-- Freeing an image leaves the others (R79). -/
theorem getImg_freeImage_other (s : State) {h k : Handle} (hk : k ≠ h) : getImg (freeImage s h) k = getImg s k := by
  unfold freeImage
  split
  · rfl
  next i _ =>
    exact (getImg_of_store (store_dropCopies ..) k).trans (getImg_putImg_other s none hk)

/-- The images stand under handles, which have 20 bits (R70). -/
def HandleKeys (s : State) : Prop := ∀ e ∈ s.store.images, e.1 < 2 ^ 20

theorem HandleKeys.putImg {s : State} (hs : HandleKeys s) (k : Handle) (i : Option Image) : HandleKeys (putImg s k i) :=
  fun e he => (mem_sput he).elim (fun hk => hk ▸ k.isLt) (hs e)

/-- A sweep leaves an image that is not release-pending (R79). -/
theorem getImg_sweep {s : State} {k : Handle} {i : Image} (hs : HandleKeys s) (hc : Canonical s) (hi : getImg s k = some i)
    (hp : i.relPending = false) : getImg (sweep s) k = some i := by
  unfold sweep
  extract_lets freed
  refine List.foldlRecOn (motive := (getImg · k = some i)) freed _ hi fun u hu n hn => ?_
  obtain ⟨e, he, due⟩ := List.mem_filterMap.mp hn
  have apart : k ≠ BitVec.ofNat 20 n := by
    rintro rfl
    split at due
    next j hj =>
      split at due
      next pending =>
        cases due
        have key : (BitVec.ofNat 20 e.1).toNat = e.1 := (BitVec.toNat_ofNat ..).trans (Nat.mod_eq_of_lt (hs e he))
        rw [getImg, key, sget_of_mem hc.i he, hj] at hi
        cases hi
        exact absurd pending.1 (Bool.eq_false_iff.mp hp)
      next => cases due
    next => cases due
  exact (getImg_of_store (store_raise ..) k).trans ((getImg_freeImage_other u apart).trans hu)

/-- Staging the ridges again after a load leaves an image that is not release-pending (R78, R85, R182). -/
theorem getImg_reloaded {u : State} {k : Handle} {i : Image} (hs : HandleKeys u) (hc : Canonical u) (hi : getImg u k = some i)
    (hp : i.relPending = false) : getImg (restage (each allRidges renewRefs (dropCopies u k)) allRidges) k = some i := by
  have kept : (each allRidges restageOne (each allRidges renewRefs (dropCopies u k))).store = u.store :=
    (store_each store_restageOne).trans ((store_each store_renewRefs).trans (store_dropCopies ..))
  refine getImg_sweep ?_ ?_ ((getImg_of_store kept k).trans hi) hp
  · exact fun e he => hs e (kept ▸ he)
  · exact canon_each _ _ _ canon_restageOne (canon_each _ _ _ canon_renewRefs (canon_dropCopies _ _ hc))

end Sys2Proof.Machine
end

section
/-! SEG_LOAD and its completion (R70, R73, R75, R78 to R80). -/

namespace Sys2Proof.Machine

/-! ### SEG_LOAD (R73, R75, R78, R80) -/

theorem injects_ensureTaken (s : State) (h : Hdr) (op : Nat) : injects (ensureTaken s h op) = injects s := by
  rw [injects, ensureTaken_bear, injects]

theorem injects_allocFrame {s t : State} {f : Nat} (e : allocFrame s = some (f, t)) : injects t = injects s := by
  unfold allocFrame at e
  split at e
  · cases e
  · split at e
    · cases e
    · cases e
      rfl

theorem martenWrite_clear {t : State} (h : injectOn t 29 = none) (s : State) : martenWrite s t = t := by
  unfold martenWrite
  split
  · rfl
  · simp only [strike, accessInject, h]

/-- An admitted packet that may take a frame ends in what its body makes of the state in which it is taken. -/
theorem done_martenWrite_of_body {s v : State} {h : Hdr} {w : Row} {need : List Need} {body : State → State}
    (op : Nat) (ha : Admitted s h w need) (ho : w.op = op) (h29 : injectOn s 29 = none)
    (hv : injects v = injects (ensureTaken s h op)) (hb : body (ensureTaken s h op) = v) :
    done s (martenWrite s (command s h w need body)) = .next (after s v) := by
  have clear : injectOn v 29 = none := (injectOn_of_injects (hv.trans (injects_ensureTaken ..)) (by decide)).trans h29
  rw [command_admitted ha, ho, hb, martenWrite_clear clear, done_eq]

/-- The answers to SEG_LOAD, which are the first clause of O44: it holds in every state. -/
theorem segLoad_answers (s : State) (h : Hdr) (handle : Word) (addr : BitVec 64)
    (ha : Admitted s h ⟨0x10, 2, .none, false, false, true, false⟩ [.handle (h20 handle).toNat]) (h29 : injectOn s 29 = none) :
    let k := h20 handle
    let u := ensureTaken s h 0x10
    ((k = noHandle ∨ addr.toNat % 64 ≠ 0) → exec (.segLoad h handle addr) s = .next (after s (refuse u h 0x10 BAD_PARAM 0))) ∧
    (k ≠ noHandle → addr.toNat % 64 = 0 →
      (∀ i, getImg u k = some i → (i.relPending = true ∨ refCount u k ≠ 0) →
        exec (.segLoad h handle addr) s = .next (after s (refuse u h 0x10 SEG_BUSY 0))) ∧
      (∀ i, getImg u k = some i → i.relPending = false → refCount u k = 0 →
        exec (.segLoad h handle addr) s = .next (after s (startLong u h 0x10 (.segLoad k none)))) ∧
      (getImg u k = none → allocFrame u = none →
        exec (.segLoad h handle addr) s = .next (after s (refuse u h 0x10 BUSY 0))) ∧
      (∀ f t, getImg u k = none → allocFrame u = some (f, t) →
        exec (.segLoad h handle addr) s = .next (after s (startLong t h 0x10 (.segLoad k (some (f, u.store.ptr, t.store.ptr))))))) := by
  intro k u
  refine ⟨fun bad => done_martenWrite_of_body 0x10 ha rfl h29 (injects_refuse ..) (if_pos bad), fun named aligned => ?_⟩
  have body : ¬(k = noHandle ∨ addr.toNat % 64 ≠ 0) := fun bad => bad.elim named fun odd => odd aligned
  refine ⟨fun i hi held => ?_, fun i hi live unheld => ?_, fun hi full => ?_, fun f t hi found => ?_⟩
  · refine done_martenWrite_of_body 0x10 ha rfl h29 (injects_refuse ..) ((if_neg body).trans ?_)
    rw [hi]
    exact if_pos held
  · refine done_martenWrite_of_body 0x10 ha rfl h29 (v := startLong u h 0x10 (.segLoad k none)) rfl ((if_neg body).trans ?_)
    rw [hi]
    exact if_neg fun held => held.elim (Bool.eq_false_iff.mp live) fun count => count unheld
  · refine done_martenWrite_of_body 0x10 ha rfl h29 (injects_refuse ..) ((if_neg body).trans ?_)
    rw [hi, full]
  · have kept : injects t = injects u := injects_allocFrame found
    refine done_martenWrite_of_body 0x10 ha rfl h29 (v := startLong t h 0x10 (.segLoad k (some (f, u.store.ptr, t.store.ptr)))) kept
      ((if_neg body).trans ?_)
    rw [hi, found]

/-! ### A replaced image keeps its frame (R75) -/

theorem segLoadDone_replaces {s : State} {k : Handle} {l : Long} {i : SegImage} {old : Image} (hl : LoadRuns s k l none)
    (hi : getImg s k = some old) (ok : imageOk k i = true) :
    segLoadDoneEffect k i s = replyDone (restage (each allRidges renewRefs
      (dropCopies (putImg (dropLong s l) k (some (loadedImage old.frame i))) k)) allRidges) l.hdr 0x10 0 := by
  obtain ⟨⟨safe, shutdown⟩, found, job⟩ := hl
  have present : getImg (dropLong s l) k = some old := hi
  unfold segLoadDoneEffect
  split
  case h_1 hn => exact nomatch hn.symm.trans found
  case h_2 l' hl' =>
    obtain rfl : l' = l := Option.some.inj (hl'.symm.trans found)
    simp only [safe, shutdown, job, ok, present, Bool.or_self, Bool.false_eq_true, if_false, if_true, loadedImage]

theorem injects_segLoadDone_replaces {s : State} {k : Handle} {l : Long} {i : SegImage} {old : Image} (hl : LoadRuns s k l none)
    (hi : getImg s k = some old) (ok : imageOk k i = true) : injects (segLoadDoneEffect k i s) = injects s := by
  rw [segLoadDone_replaces hl hi ok, injects_replyDone, injects_restage]
  refine Eq.trans (injects_each fun _ _ => ?_) (injects_dropCopies ..)
  rfl

/-- Where every image stands under a handle, a load that replaces an image leaves the new one in the old one's frame. -/
theorem segLoadDone_keepsFrame {s : State} {k : Handle} {l : Long} {i : SegImage} {old : Image} (hs : HandleKeys s)
    (hc : Canonical s) (h22 : injectOn s 22 = none) (hl : LoadRuns s k l none) (hi : getImg s k = some old)
    (ok : imageOk k i = true) :
    ∃ t, exec (.segLoadDone k i) s = .next t ∧ getImg t k = some (loadedImage old.frame i) := by
  refine ⟨_, done_phyCommand h22 (injects_segLoadDone_replaces hl hi ok), ?_⟩
  rw [getImg_of_store (after_store ..), segLoadDone_replaces hl hi ok, getImg_of_store (store_replyDone ..)]
  exact getImg_reloaded (HandleKeys.putImg hs k _) (canon_putImg _ _ _ (canon_dropLong _ _ hc))
    (getImg_putImg_same (canon_dropLong _ _ hc) k _) rfl

/-! ### The counterexample to O44 -/

/-- An image of one frame, without successor. -/
def plainImage (frame : Nat) (pending : Bool) : Image :=
  { frame := frame, analog := false, next := noHandle, span := 0, relPending := pending, crc := 0, payload := [] }

/-- A load of handle 3 that replaces its image. -/
def replacingLoad : Long :=
  { hdr := { ring := 0, seq := 0, tag := 0, length := 2, ridge := 0xF#4, launchAt := none, suppress := false, multicast := false,
             asap := false, remote := none }
    opcode := 0x10, job := .segLoad 3 none }

/-- A booted device that replaces the image under handle 3 while a release-pending image stands under the key 2^20 + 3, which is
no handle. -/
def strayKey : State :=
  { State.reset with
    boot := { State.reset.boot with stage := 6, por := false, foxUp := true, romLoader := false }
    store := { State.reset.store with images := [(3, some (plainImage 0x440 false)), (2 ^ 20 + 3, some (plainImage 0x441 true))]
                                      used := [0x440, 0x441] }
    link := { State.reset.link with longs := [replacingLoad] } }

/-- An image of DMA for handle 3 that passes its checks. -/
def loadableImage : SegImage :=
  let i : SegImage :=
    { magic := 0x5347, version := 1, kind := 0, handle := 3, next := 0xFFFFF, bodySpan := 0, label := List.replicate 16 0,
      reserved := List.replicate 31 0, crc := 0, payload := [] }
  { i with crc := imageCrc i }

theorem strayKey_canonical : Canonical strayKey := ⟨rfl, rfl, by decide, by decide⟩

theorem loadableImage_ok : imageOk 3 loadableImage = true := by decide +kernel

theorem strayKey_loadRuns : LoadRuns strayKey 3 replacingLoad none := ⟨⟨rfl, rfl⟩, rfl, rfl⟩

/-- The sweep takes the stray key modulo 2^20 and frees the image just loaded. -/
theorem strayKey_loses : getImg (segLoadDoneEffect 3 loadableImage strayKey) 3 = none := by decide +kernel

/-- Refutes O44: `Canonical` does not bound the keys of the images. A release-pending image under the key 2^20 + 3 makes the sweep
that follows the load of handle 3 free the image of handle 3, for `sweep` reads the key as a handle of 20 bits. `putImg` stores no
image under such a key (`HandleKeys.putImg`): with `HandleKeys` as a premise the clause holds (`segLoadDone_keepsFrame`), and the
other clause holds as it stands (`segLoad_answers`). -/
theorem not_segLoadFrames : ¬ Obligations.SegLoadFrames := by
  rintro ⟨-, replaced⟩
  obtain ⟨live, found, job⟩ := strayKey_loadRuns
  obtain ⟨t, img, ht, himg, -⟩ :=
    replaced strayKey 3 loadableImage replacingLoad (plainImage 0x440 false) live rfl strayKey_canonical found job rfl loadableImage_ok
  have run := done_phyCommand (s := strayKey) rfl (injects_segLoadDone_replaces strayKey_loadRuns rfl loadableImage_ok)
  rw [Host.Outcome.next.inj (ht.symm.trans run), getImg_of_store (after_store ..), strayKey_loses] at himg
  cases himg

end Sys2Proof.Machine
end

section
/-! Every command ends in a safe next state (R131, R162, R346, R371, Table 15-2). -/

namespace Sys2Proof.Machine

/-- Settles O3: whatever its effect, a command ends with the standing conditions in force and the queue as it was. -/
theorem everyCommandAnswers : Obligations.EveryCommandAnswers := by
  intro c s
  obtain ⟨u, answers, -⟩ := exec_keeps c s
  exact ⟨after s u, answers, after_pending s u, safe_after s u⟩

end Sys2Proof.Machine
end

section
/-! SUPPORT. What the writes of PIN_CFG and PIN_PMU_CFG leave: the words of the map, the pins, and the injections that wait
(R129, R130, R148, R226). -/

namespace Sys2Proof.Machine

/-! ### Tickets that end leave the pins and the map (R225, R226) -/

/-- The pins and the parameter map. -/
def pinsAndMap (s : State) : Vector Pin 256 × Sparse Word := (s.pins, s.params)

theorem pinsAndMap_each {α : Type} {l : List α} {f : State → α → State} {s : State}
    (h : ∀ s a, pinsAndMap (f s a) = pinsAndMap s) : pinsAndMap (each l f s) = pinsAndMap s :=
  each_ind (pinsAndMap · = pinsAndMap s) rfl fun u a hu => (h u a).trans hu

theorem pinsAndMap_qstoreInject (n : Nat) (s : State) : pinsAndMap (qstoreInject n s).1 = pinsAndMap s := by
  induction n generalizing s with
  | zero => rfl
  | succ n ih =>
    refine (ih _).trans ?_
    split <;> rfl

theorem pinsAndMap_commitPkt (s : State) (id : Nat) (typ : BitVec 3) (payload : List (BitVec 96)) :
    pinsAndMap (commitPkt s id typ payload) = pinsAndMap s :=
  pinsAndMap_qstoreInject payload.length s

theorem pinsAndMap_dropTicket (s : State) (num : BitVec 17) : pinsAndMap (dropTicket s num) = pinsAndMap s := by
  unfold dropTicket
  split <;> rfl

theorem pinsAndMap_releaseJob (s : State) (t : Ticket) : pinsAndMap (releaseJob s t) = pinsAndMap s := by
  unfold releaseJob
  split
  · exact pinsAndMap_each fun _ _ => rfl
  · rfl
  · split <;> rfl

theorem pinsAndMap_endTicket (s : State) (num : BitVec 17) (status : Nat) :
    pinsAndMap (endTicket s num status) = pinsAndMap s := by
  unfold endTicket
  split
  · rfl
  · exact (pinsAndMap_dropTicket ..).trans ((pinsAndMap_commitPkt ..).trans (pinsAndMap_releaseJob ..))

/-- A placement moves the ticket, its queue's storage and the pointers. -/
theorem pinsAndMap_placeOne (s : State) (t : Ticket) : pinsAndMap (placeOne s t) = pinsAndMap s := by
  unfold placeOne
  dsimp only
  (repeat' split) <;> rfl

theorem pinsAndMap_endUnready (s : State) : pinsAndMap (endUnready s) = pinsAndMap s :=
  (pinsAndMap_each pinsAndMap_placeOne).trans (pinsAndMap_each fun _ _ => pinsAndMap_endTicket ..)

theorem endUnready_pins (s : State) : (endUnready s).pins = s.pins := congrArg Prod.fst (pinsAndMap_endUnready s)

theorem endUnready_params (s : State) : (endUnready s).params = s.params := congrArg Prod.snd (pinsAndMap_endUnready s)

theorem injectOn_endUnready {s : State} {b : Fin 64} (hb : b ≠ 24) : injectOn (endUnready s) b = injectOn s b :=
  injectOn_of_injects (injects_endTickets ..) hb

/-! ### A masked value in its word -/

theorem word_putWord_masked {s : State} (hc : Canonical s) (i v : Nat) {m : Nat} (hm : m < 2 ^ 32) :
    word (putWord s i (v &&& m)) i = v &&& m := by
  rw [word_putWord_same _ _ _ hc.p]
  exact Nat.mod_eq_of_lt (Nat.and_le_right.trans_lt hm)

theorem applyWord_pinW (s : State) (p : PinId) {k : Nat} (v : Nat) (h : k < 16) : applyWord s (pinW p k) v = pinWrite s p k v := by
  simp only [applyWord, locate_pinW p k h, ofNat_pin]

/-- A write of a pin's locked word, where no injection meets it. -/
theorem writeEffect_pinRwl (s : State) (p : PinId) {k d m : Nat} (v : Nat) (hk : k < 16) (hw : pinWord k = some ⟨.rwl, d, m⟩)
    (hj : injectOn (pinWrite s p k (v &&& m)) 26 = none) : writeEffect s (pinW p k) v = pinWrite s p k (v &&& m) := by
  have stored := writeEffect_stored s v ((wordInfo_pinW p k hk).trans hw) (.inr rfl)
  rw [applyWord_pinW s p _ hk] at stored
  exact stored hj

/-! ### PIN_CFG (R129, R130) -/

theorem mode_masked (v : Nat) : bits (v &&& 0xFF) 1 0 = v % 4 := by
  have hm : v &&& 0xFF = v % 256 := Nat.and_two_pow_sub_one_eq_mod v 8
  simp only [bits, hm, Nat.shiftRight_zero]
  omega

/-- PULL as a PIN_CFG write stores it. -/
theorem pull_stored {s : State} (hc : Canonical s) (p : PinId) (v : Nat) :
    isSet (putWord s (pinW p 0) (v &&& 0xFF)) (pinW p 0) 7 = bit v 7 := by
  rw [isSet, word_putWord_masked hc _ v (by decide), Nat.testBit_and, show Nat.testBit 0xFF 7 = true from rfl, Bool.and_true, bit]

theorem pinWrite_cfg (s : State) (p : PinId) (v : Nat) :
    pinWrite s p 0 (v &&& 0xFF) =
      if v % 4 = field s (pinW p 0) 1 0 then pullAsSet (putWord s (pinW p 0) (v &&& 0xFF)) p
      else startModeChange (putWord s (pinW p 0) (v &&& 0xFF)) p (field s (pinW p 0) 1 0) := by
  simp only [pinWrite, if_true, mode_masked]

theorem injectOn_pullAsSet (s : State) (p : PinId) (b : Fin 64) : injectOn (pullAsSet s p) b = injectOn s b := by
  unfold pullAsSet
  split <;> rfl

theorem injectOn_startModeChange (s : State) (p : PinId) (m : Nat) {b : Fin 64} (hb : b ≠ 24) :
    injectOn (startModeChange s p m) b = injectOn s b :=
  injectOn_endUnready hb

theorem writeEffect_pinCfg (s : State) (p : PinId) (v : Nat) (hj : injectOn s 26 = none) :
    writeEffect s (pinW p 0) v =
      if v % 4 = field s (pinW p 0) 1 0 then pullAsSet (putWord s (pinW p 0) (v &&& 0xFF)) p
      else startModeChange (putWord s (pinW p 0) (v &&& 0xFF)) p (field s (pinW p 0) 1 0) := by
  refine (writeEffect_pinRwl s p v (by decide) rfl ?_).trans (pinWrite_cfg s p v)
  rw [pinWrite_cfg]
  split
  · exact (injectOn_pullAsSet ..).trans hj
  · exact (injectOn_startModeChange _ _ _ (by decide)).trans hj

/-- With no change in progress and no cause of SAFE, the pull follows the mode in force and PULL. -/
theorem pullAsSet_pin {s : State} {p : PinId} (hch : s.pins[p].changing = false) (hs : pinSafe s (pinRidge p) = false) :
    (pullAsSet s p).pins[p] = { s.pins[p] with pull := pullOf s p s.pins[p].mode.toNat } := by
  simp only [pullAsSet, hch, hs, Bool.or_self, Bool.false_eq_true, if_false, modPin_fields, vmod_same]

theorem startModeChange_params (s : State) (p : PinId) (m : Nat) : (startModeChange s p m).params = s.params := endUnready_params _

theorem startModeChange_pin (s : State) (p : PinId) (m : Nat) :
    (startModeChange s p m).pins[p] =
      { s.pins[p].blind s.now with
        drv := .hiz, edge := .hiz, mode := 0, changing := true, complyNow := false
        pull := if m = 0 then isSet s (pinW p 0) 7 else s.pins[p].pull } := by
  simp only [startModeChange, endUnready_pins, modPin_fields, vmod_same]

theorem startModeChange_other (s : State) {p q : PinId} (m : Nat) (h : q ≠ p) : (startModeChange s p m).pins[q] = s.pins[q] := by
  simp only [startModeChange, endUnready_pins, modPin_fields, vmod_other _ _ _ _ h.symm]

/-- A comparator that goes blind keeps its history, with at most one entry in front of it. -/
theorem blind_hist_tail (x : Pin) (now : T64) : (x.blind now).hist.tail ⊆ x.hist := by
  unfold Pin.blind
  split
  · exact List.Subset.refl _
  · exact List.tail_subset _

/-! ### PIN_PMU_CFG (R148) -/

/-- The words of a pin after a PIN_PMU_CFG write, before the marks of what the new range cuts: FORCE that changes resets the level
and the clamps, a new RANGE recodes the current codes. -/
def pmuStored (s : State) (p : PinId) (v : Nat) : State :=
  let old := word s (pinW p 11)
  let t := putWord s (pinW p 11) v
  let a := pmuScale (bits old 3 1)
  let b := pmuScale (bits v 3 1)
  if bit old 0 ≠ bit v 0 then
    if bit v 0 then putWord (putWord t (pinW p 12) 0) (pinW p 13) 0xF0001000
    else putWord (putWord t (pinW p 12) 0x4000) (pinW p 13) 0x7FFF8001
  else if bits old 3 1 = bits v 3 1 then t
  else if bit v 0 then putWord t (pinW p 12) (recodeHalf (word t (pinW p 12)) 0 a b)
  else putWord t (pinW p 13) (recodeHalf (word t (pinW p 13)) 0 a b + recodeHalf (word t (pinW p 13)) 16 a b)

/-- The marks of a PIN_PMU_CFG write: of the words only PIN_STATUS may differ, and neither the pins nor Bear do. -/
def PmuMarked (p : PinId) (u t : State) : Prop :=
  (∀ i, i ≠ pinW p 15 → word t i = word u i) ∧ t.pins = u.pins ∧ t.bear = u.bear

theorem pmuMarked_markSat (s : State) (p : PinId) (l : List Nat) : PmuMarked p s (markSat s p l) := by
  have only := onlyParams_markSat (OnlyParams.refl s) p l
  exact ⟨fun _ => word_markSat_other s p l, by rw [only], by rw [only]⟩

theorem pinPmuCfgWrite_eq (s : State) (p : PinId) (v : Nat) :
    pinPmuCfgWrite s p v =
      let u := pmuStored s p v
      let t := markSat u p (pmuItems u p 12 ++ pmuItems u p 13)
      if word s (pinW p 11) = v then u
      else if bits (word s (pinW p 11)) 3 1 = bits v 3 1 then t
      else markMeasures t (fun sel => sel.toNat == 0x1000 + p.val) fun j => { j with rangeMoved := true } := rfl

theorem pinPmuCfgWrite_marked (s : State) (p : PinId) (v : Nat) : PmuMarked p (pmuStored s p v) (pinPmuCfgWrite s p v) := by
  rw [pinPmuCfgWrite_eq]
  dsimp only
  split
  · exact ⟨fun _ _ => rfl, rfl, rfl⟩
  · split <;> exact pmuMarked_markSat ..

theorem onlyParams_pmuStored (s : State) (p : PinId) (v : Nat) : OnlyParams s (pmuStored s p v) := by
  unfold pmuStored
  dsimp only
  (repeat' split) <;> rfl

theorem pinPmuCfgWrite_pins (s : State) (p : PinId) (v : Nat) : (pinPmuCfgWrite s p v).pins = s.pins := by
  obtain ⟨-, pins, -⟩ := pinPmuCfgWrite_marked s p v
  rw [pins, onlyParams_pmuStored]

theorem pinPmuCfgWrite_bear (s : State) (p : PinId) (v : Nat) : (pinPmuCfgWrite s p v).bear = s.bear := by
  obtain ⟨-, -, bear⟩ := pinPmuCfgWrite_marked s p v
  rw [bear, onlyParams_pmuStored]

theorem word_pinPmuCfgWrite (s : State) (p : PinId) (v : Nat) {k : Nat} (hk : k ≠ 15) :
    word (pinPmuCfgWrite s p v) (pinW p k) = word (pmuStored s p v) (pinW p k) := by
  obtain ⟨words, -, -⟩ := pinPmuCfgWrite_marked s p v
  exact words _ (pinW_ne hk)

theorem writeEffect_pinPmuCfg (s : State) (p : PinId) (v : Nat) (hj : injectOn s 26 = none) :
    writeEffect s (pinW p 11) v = pinPmuCfgWrite s p (v &&& 0xF) := by
  refine writeEffect_pinRwl s p v (by decide) rfl ?_
  have bear : (pinWrite s p 11 (v &&& 0xF)).bear = s.bear := pinPmuCfgWrite_bear ..
  rw [injectOn, bear]
  exact hj

theorem force_masked (v : Nat) : bit (v &&& 0xF) 0 = decide (v % 2 = 1) := by
  rw [bit, Nat.testBit_and, show Nat.testBit 0xF 0 = true from rfl, Bool.and_true, Nat.testBit_zero]

/-- FORCE turns on (Table 5-8). -/
theorem pmuStored_forceOn {s : State} {p : PinId} {v : Nat} (ho : isSet s (pinW p 11) 0 = false) (hv : v % 2 = 1) :
    pmuStored s p (v &&& 0xF) =
      putWord (putWord (putWord s (pinW p 11) (v &&& 0xF)) (pinW p 12) 0) (pinW p 13) 0xF0001000 := by
  have old : bit (word s (pinW p 11)) 0 = false := ho
  simp [pmuStored, force_masked, hv, old]

/-- FORCE turns off (Table 5-8). -/
theorem pmuStored_forceOff {s : State} {p : PinId} {v : Nat} (ho : isSet s (pinW p 11) 0 = true) (hv : v % 2 = 0) :
    pmuStored s p (v &&& 0xF) =
      putWord (putWord (putWord s (pinW p 11) (v &&& 0xF)) (pinW p 12) 0x4000) (pinW p 13) 0x7FFF8001 := by
  have old : bit (word s (pinW p 11)) 0 = true := ho
  simp [pmuStored, force_masked, hv, old]

/-- FORCE and RANGE stay. -/
theorem pmuStored_same {s : State} {p : PinId} {v : Nat} (h : v % 16 = field s (pinW p 11) 3 0) :
    pmuStored s p (v &&& 0xF) = putWord s (pinW p 11) (v &&& 0xF) := by
  have hm : v &&& 0xF = v % 16 := Nat.and_two_pow_sub_one_eq_mod v 4
  have low : v % 16 = word s (pinW p 11) % 16 := h
  have force : bit (word s (pinW p 11)) 0 = bit (v &&& 0xF) 0 := by
    rw [force_masked, bit, Nat.testBit_zero, decide_eq_decide]
    omega
  have range : bits (word s (pinW p 11)) 3 1 = bits (v &&& 0xF) 3 1 := by
    simp only [bits, hm, Nat.shiftRight_eq_div_pow]
    omega
  simp [pmuStored, force, range]

/-- A change of FORCE stores the word and resets the level and the clamps. -/
theorem pinPmuCfg_of_force {s : State} {p : PinId} {v level clamps : Nat} (hc : Canonical s) (hj : injectOn s 26 = none)
    (hl : level < 2 ^ 32) (hk : clamps < 2 ^ 32)
    (stored : pmuStored s p (v &&& 0xF) =
      putWord (putWord (putWord s (pinW p 11) (v &&& 0xF)) (pinW p 12) level) (pinW p 13) clamps) :
    let t := writeEffect s (pinW p 11) v
    word t (pinW p 11) = (v &&& 0xF) ∧ word t (pinW p 12) = level ∧ word t (pinW p 13) = clamps ∧ t.pins = s.pins := by
  have hc₁ := canon_putWord s (pinW p 11) (v &&& 0xF) hc
  have hc₂ := canon_putWord _ (pinW p 12) level hc₁
  dsimp only
  rw [writeEffect_pinPmuCfg s p v hj]
  refine ⟨?_, ?_, ?_, pinPmuCfgWrite_pins ..⟩ <;> rw [word_pinPmuCfgWrite s p _ (by decide), stored]
  · rw [word_putWord_other _ _ _ _ (pinW_ne (by decide)), word_putWord_other _ _ _ _ (pinW_ne (by decide)),
      word_putWord_masked hc _ _ (by decide)]
  · rw [word_putWord_other _ _ _ _ (pinW_ne (by decide)), word_putWord_same _ _ _ hc₁.p, Nat.mod_eq_of_lt hl]
  · rw [word_putWord_same _ _ _ hc₂.p, Nat.mod_eq_of_lt hk]

end Sys2Proof.Machine
end

section
/-! The writes of PIN_CFG and PIN_PMU_CFG (R129, R130, R148, R226, Tables 5-8 and 5-13). -/

namespace Sys2Proof.Machine

/-- Settles O15: a PIN_CFG write sets the pull or starts the change, and a PIN_PMU_CFG write stores words and marks. -/
theorem pinRegisterWrites : Obligations.PinRegisterWrites := by
  refine ⟨?keeps, ?pull, ?changes, ?forceOn, ?forceOff, ?same⟩
  case keeps =>
    intro s p v hj hv
    rw [writeEffect_pinCfg s p v hj, if_pos hv]
  case pull =>
    intro s p v hc hj hv hch hs
    have pull : pullOf (putWord s (pinW p 0) (v &&& 0xFF)) p s.pins[p].mode.toNat = (s.pins[p].mode = 0 || bit v 7) := by
      rw [pullOf, pull_stored hc]
      simp [← BitVec.toNat_inj, beq_eq_decide]
    rw [writeEffect_pinCfg s p v hj, if_pos hv, pullAsSet_pin (s := putWord s (pinW p 0) (v &&& 0xFF)) hch hs, ← pull]
    rfl
  case changes =>
    intro s p v hc hj hv
    dsimp only
    rw [writeEffect_pinCfg s p v hj, if_neg hv, word_of_params (startModeChange_params ..), word_putWord_masked hc _ _ (by decide),
      startModeChange_pin, pull_stored hc]
    exact ⟨rfl, rfl, rfl, rfl, evaluated_blind .., blind_hist_tail .., rfl, fun q hq => startModeChange_other _ _ hq⟩
  case forceOn =>
    exact fun s p v hc hj ho hv => pinPmuCfg_of_force hc hj (by decide) (by decide) (pmuStored_forceOn ho hv)
  case forceOff =>
    exact fun s p v hc hj ho hv => pinPmuCfg_of_force hc hj (by decide) (by decide) (pmuStored_forceOff ho hv)
  case same =>
    intro s p v hc hj hv
    dsimp only
    have other {k : Nat} (h11 : k ≠ 11) (h15 : k ≠ 15) : word (pinPmuCfgWrite s p (v &&& 0xF)) (pinW p k) = word s (pinW p k) := by
      rw [word_pinPmuCfgWrite s p _ h15, pmuStored_same hv, word_putWord_other _ _ _ _ (pinW_ne h11)]
    rw [writeEffect_pinPmuCfg s p v hj]
    exact ⟨other (by decide) (by decide), other (by decide) (by decide), pinPmuCfgWrite_pins ..⟩

end Sys2Proof.Machine
end

section
/-! SUPPORT. The events of a pin: mode changes, overcurrents, compliance and comparator transitions (R37, R129, R130, R133, R136,
R137, R149, R203, R208, R216, R380). -/

namespace Sys2Proof.Machine

/-! ### PIN_MODE_DONE (R129, R130, R137) -/

theorem pinModeDone_idle {s : State} {p : PinId} {v : Int} (h : s.pins[p].changing = false ∨ pinSafe s (pinRidge p) = true) :
    pinModeDoneEffect p v s = s := by
  have idle : (!s.pins[p].changing || pinSafe s (pinRidge p)) = true := by simpa using h
  exact if_pos idle

section
variable {s : State} {p : PinId} {v : Int} (hc : s.pins[p].changing = true) (hs : pinSafe s (pinRidge p) = false)
include hc hs

/-- The change of a pin that is not safe completes: in a mode other than 0 the comparator starts at the pin's voltage. -/
theorem pinModeDone_completes :
    pinModeDoneEffect p v s =
      let m := field s (pinW p 0) 1 0
      let x := if m = 0 then (Cmp.mid, s) else compareAt s p v
      serveWaits (modPin x.2 p fun y =>
        { y with mode := BitVec.ofNat 2 m, changing := false, pull := pullOf s p m
                 hist := if m = 0 then y.hist else (s.now, some x.1) :: y.hist }) := by
  have busy : ¬(!s.pins[p].changing || pinSafe s (pinRidge p)) = true := by rw [hc, hs]; decide
  exact if_neg busy

theorem pinModeDone_safeMode (hm : field s (pinW p 0) 1 0 = 0) :
    pinModeDoneEffect p v s =
      serveWaits (modPin s p fun y => { y with mode := 0, changing := false, pull := true }) := by
  rw [pinModeDone_completes hc hs, hm]
  rfl

theorem pinModeDone_mode (hm : field s (pinW p 0) 1 0 ≠ 0) :
    pinModeDoneEffect p v s = serveWaits (modPin (compareAt s p v).2 p fun y =>
      { y with mode := BitVec.ofNat 2 (field s (pinW p 0) 1 0), changing := false, pull := isSet s (pinW p 0) 7
               hist := (s.now, some (compareAt s p v).1) :: y.hist }) := by
  have pull : pullOf s p (field s (pinW p 0) 1 0) = isSet s (pinW p 0) 7 := by
    rw [pullOf, beq_eq_false_iff_ne.mpr hm, Bool.false_or]
  rw [pinModeDone_completes hc hs]
  simp only [if_neg hm, pull]

end

/-! ### DRIVER_OVERCURRENT (R133, R380) -/

/-- The pin's driver is latched at high-Z, with its status bit. -/
abbrev overcurrent (s : State) (p : PinId) : State := setBits (modPin s p fun x => { x with drv := .hiz }) (pinW p 15) 16

theorem driverOvercurrent_hiz {s : State} {p : PinId} (h : s.pins[p].drv = .hiz) : driverOvercurrentEffect p s = s := if_pos h

theorem driverOvercurrent_site {s : State} {p : PinId} {k : Fin 64} (h : s.pins[p].drv ≠ .hiz) (hk : siteOf s p = some k) :
    driverOvercurrentEffect p s = contained (overcurrent s p)
      ⟨Fin.castLE (by decide) (pinRidge p), 9, .contained, 3, k.val, some p.val, false, false⟩ (abortSite k) := by
  have site : siteOf (overcurrent s p) p = some k := hk
  refine (if_neg h).trans ?_
  rw [site]

theorem driverOvercurrent_noSite {s : State} {p : PinId} (h : s.pins[p].drv ≠ .hiz) (hk : siteOf s p = none) :
    driverOvercurrentEffect p s = raise (overcurrent s p) (0x40 + (pinRidge p).val) p.val := by
  have site : siteOf (overcurrent s p) p = none := hk
  refine (if_neg h).trans ?_
  rw [site]

/-! ### PMU_COMPLIANCE (R149) -/

theorem pmuCompliance_noted {s : State} {p : PinId} (h : s.pins[p].mode ≠ 2#2 ∨ s.pins[p].complyNow = true) :
    pmuComplianceEffect p s = s := if_pos h

theorem pmuCompliance_new {s : State} {p : PinId} (hm : s.pins[p].mode = 2#2) (hc : s.pins[p].complyNow = false) :
    pmuComplianceEffect p s =
      markMeasures (raise (setBits (modPin s p fun x => { x with complyNow := true }) (pinW p 15) 1) (0x50 + (pinRidge p).val) p.val)
        (selIsPin p) fun j => { j with comply := true } := by
  refine if_neg ?_
  rintro (h | h)
  · exact h hm
  · exact Bool.false_ne_true (hc.symm.trans h)

/-! ### The comparators (R136) -/

theorem threshold_up {was up down : Bool} (h : up = true) : threshold was up down = true := if_pos h

theorem threshold_down {was up down : Bool} (hu : up = false) (hd : down = true) : threshold was up down = false := by
  rw [threshold, hu, if_neg Bool.false_ne_true, if_pos hd]

theorem threshold_inside {was up down : Bool} (hu : up = false) (hd : down = false) : threshold was up down = was := by
  rw [threshold, hu, hd, if_neg Bool.false_ne_true, if_neg Bool.false_ne_true]

theorem halfHyst_nonneg (s : State) (p : PinId) : 0 ≤ halfHyst s p := by
  unfold halfHyst; positivity

theorem cmpState_high_iff (above below : Bool) : cmpState above below = .high ↔ above = true := by
  cases above <;> cases below <;> decide

theorem cmpState_low_iff (below : Bool) : cmpState false below = .low ↔ below = true := by
  cases below <;> decide

theorem cmpState_mid : cmpState false false = .mid := rfl

section
variable {s : State} {p : PinId} {v : Int}

/-- The comparator of VOH at a voltage above, below and inside its hysteresis. -/
theorem comparators_aboveVoh (h : levelOf (field s (pinW p 4) 15 0) + halfHyst s p < v) : (comparators s p v).1 = true :=
  threshold_up (decide_eq_true h)

theorem comparators_belowVoh (h : v < levelOf (field s (pinW p 4) 15 0) - halfHyst s p) : (comparators s p v).1 = false := by
  have := halfHyst_nonneg s p
  exact threshold_down (decide_eq_false (by omega)) (decide_eq_true h)

theorem comparators_insideVoh (h1 : levelOf (field s (pinW p 4) 15 0) - halfHyst s p ≤ v)
    (h2 : v ≤ levelOf (field s (pinW p 4) 15 0) + halfHyst s p) : (comparators s p v).1 = s.pins[p].aboveVoh :=
  threshold_inside (decide_eq_false h2.not_gt) (decide_eq_false h1.not_gt)

/-- The comparator of VOL at a voltage below, above and inside its hysteresis. -/
theorem comparators_belowVol (h : v < levelOf (field s (pinW p 5) 15 0) - halfHyst s p) : (comparators s p v).2 = true :=
  threshold_up (decide_eq_true h)

theorem comparators_aboveVol (h : levelOf (field s (pinW p 5) 15 0) + halfHyst s p < v) : (comparators s p v).2 = false := by
  have := halfHyst_nonneg s p
  exact threshold_down (decide_eq_false (by omega)) (decide_eq_true h)

theorem comparators_insideVol (h1 : levelOf (field s (pinW p 5) 15 0) - halfHyst s p ≤ v)
    (h2 : v ≤ levelOf (field s (pinW p 5) 15 0) + halfHyst s p) : (comparators s p v).2 = s.pins[p].belowVol :=
  threshold_inside (decide_eq_false h1.not_gt) (decide_eq_false h2.not_gt)

end

theorem compareAt_state (s : State) (p : PinId) (v : Int) :
    (compareAt s p v).1 = cmpState (comparators s p v).1 (comparators s p v).2 := rfl

theorem compareAt_pin (s : State) (p : PinId) (v : Int) :
    (compareAt s p v).2.pins[p] =
      { s.pins[p] with aboveVoh := (comparators s p v).1, belowVol := (comparators s p v).2 } := vmod_same ..

/-! ### COMPARATOR_TRANSITION (R37, R203, R216) -/

/-- A pin whose comparator is not evaluated has no newest state. -/
theorem comparatorTransition_blind {s : State} {p : PinId} {v : Int} {t : T64} (h : s.pins[p].evaluated = false) :
    comparatorTransitionEffect p v t s = s := by
  unfold comparatorTransitionEffect
  split
  next e => rw [Pin.evaluated, e] at h; cases h
  next => rfl

section
variable {s : State} {p : PinId} {v : Int} {c0 : Cmp} {t t0 : T64} {l : List (T64 × Option Cmp)}
  (hh : s.pins[p].hist = (t0, some c0) :: l)
include hh

/-- The stamp lies before the last one, is still to come, or is of another tick. -/
theorem comparatorTransition_stale (h : later t0 t = true ∨ reached s.now t = false ∨ later t (s.now - 1024) = false) :
    comparatorTransitionEffect p v t s = s := by
  have stale : later t0 t = true ∨ (!reached s.now t) = true ∨ (!later t (s.now - 1024)) = true := by simpa using h
  simp only [comparatorTransitionEffect, hh, if_pos stale]

variable (h0 : later t0 t = false) (h1 : reached s.now t = true) (h2 : later t (s.now - 1024) = true)
include h0 h1 h2

/-- At a stamp of the present tick, not before the last one, the comparators move, and a new state goes where it is seen. -/
theorem comparatorTransition_fresh :
    comparatorTransitionEffect p v t s =
      let x := compareAt s p v
      let u := modPin x.2 p fun y => { y with hist := (t, some x.1) :: y.hist }
      if x.1 = c0 then x.2 else timuSee (if records s p t then offer u (pinRidge p) t (pinLane p) x.1 else u) p c0 x.1 t := by
  have fresh : ¬(later t0 t = true ∨ (!reached s.now t) = true ∨ (!later t (s.now - 1024)) = true) := by
    rw [h0, h1, h2]; decide
  simp only [comparatorTransitionEffect, hh, if_neg fresh]

end

end Sys2Proof.Machine
end

section
/-! What the events of a pin do. -/

namespace Sys2Proof.Machine

/-- Settles O22: each event by what its own rule asks of the pin. -/
theorem pinEvents : Obligations.PinEvents := by
  refine ⟨?modeDone, ?modeIdle, ?ovcSite, ?ovcNoSite, ?ovcHiz, ?comply, ?complyNoted, fun s p => done_eq s _, ?comparators,
    ?transition, ?blind, ?stale⟩
  case modeDone =>
    intro s p v hc hs
    exact ⟨fun hm => congrArg (done s) (pinModeDone_safeMode hc hs hm), fun hm => congrArg (done s) (pinModeDone_mode hc hs hm)⟩
  case modeIdle => exact fun s p v h => congrArg (done s) (pinModeDone_idle h)
  case ovcSite => exact fun s p k h hk => congrArg (done s) (driverOvercurrent_site h hk)
  case ovcNoSite => exact fun s p h hk => congrArg (done s) (driverOvercurrent_noSite h hk)
  case ovcHiz => exact fun s p h => congrArg (done s) (driverOvercurrent_hiz h)
  case comply => exact fun s p hm hc => congrArg (done s) (pmuCompliance_new hm hc)
  case complyNoted => exact fun s p h => congrArg (done s) (pmuCompliance_noted h)
  case comparators =>
    intro s p v
    dsimp only
    rw [compareAt_state, compareAt_pin]
    refine ⟨fun h => ?_, fun h hl => ?_, fun h hl => ?_, fun h1 h2 => ?_, fun h h1 h2 => ?_, rfl⟩
    · rw [cmpState_high_iff, comparators_aboveVoh h]
    · rw [comparators_belowVoh h, cmpState_low_iff, comparators_belowVol hl]
    · rw [comparators_belowVoh h, comparators_aboveVol hl, cmpState_mid]
    · rw [cmpState_high_iff, comparators_insideVoh h1 h2]
    · rw [comparators_belowVoh h, cmpState_low_iff, comparators_insideVol h1 h2]
  case transition =>
    intro s p v c0 t t0 l hh h0 h1 h2
    have fresh := comparatorTransition_fresh (v := v) hh h0 h1 h2
    refine ⟨fun hx => ?_, fun hx hr => ?_, fun hx hr => ?_⟩
    · exact congrArg (done s) (fresh.trans (if_pos hx))
    · exact congrArg (done s) (fresh.trans ((if_neg hx).trans (by rw [hr, if_pos rfl])))
    · exact congrArg (done s) (fresh.trans ((if_neg hx).trans (by rw [hr, if_neg Bool.false_ne_true])))
  case blind => exact fun s p v t h => congrArg (done s) (comparatorTransition_blind h)
  case stale => exact fun s p v c0 t t0 l hh h => congrArg (done s) (comparatorTransition_stale hh h)

end Sys2Proof.Machine
end

section
/-! SUPPORT. What the writes of DPS registers leave: the output of the channel, the other channels, and everything else of the
block (R151, R154 to R157, R163, R164, R168, R170). -/

namespace Sys2Proof.Machine

/-! ### The supplies and the events alone -/

/-- Of everything but the events, only supply n differs. -/
def OnlySupply (n : RidgeId) (s t : State) : Prop :=
  (∃ d e c, t = { s with dps := d, events := e, cols := c }) ∧ ∀ m : RidgeId, m ≠ n → t.dps[m] = s.dps[m]

section
variable {n : RidgeId} {s t u : State}

theorem OnlySupply.refl (n : RidgeId) (s : State) : OnlySupply n s s := ⟨⟨_, _, _, rfl⟩, fun _ _ => rfl⟩

theorem OnlySupply.trans (h : OnlySupply n s t) (k : OnlySupply n t u) : OnlySupply n s u := by
  obtain ⟨⟨_, _, _, rfl⟩, hs⟩ := h
  obtain ⟨⟨_, _, _, rfl⟩, ht⟩ := k
  exact ⟨⟨_, _, _, rfl⟩, fun m hm => (ht m hm).trans (hs m hm)⟩

theorem onlySupply_modDps (s : State) (n : RidgeId) (f : Dps → Dps) : OnlySupply n s (modDps s n f) :=
  ⟨⟨_, _, _, rfl⟩, fun _ hm => vmod_other _ _ _ _ hm.symm⟩

theorem onlySupply_raise (n : RidgeId) (s : State) (src payload : Nat) : OnlySupply n s (raise s src payload) := by
  obtain ⟨e, c, h⟩ := raise_eq s src payload
  rw [h]
  exact ⟨⟨_, _, _, rfl⟩, fun _ _ => rfl⟩

theorem OnlySupply.params (h : OnlySupply n s t) : t.params = s.params := by
  obtain ⟨⟨_, _, _, rfl⟩, -⟩ := h
  rfl

theorem OnlySupply.word (h : OnlySupply n s t) (i : Nat) : word t i = word s i := word_of_params h.params i

theorem OnlySupply.dpsMode (h : OnlySupply n s t) : dpsMode t n = dpsMode s n := field_of_word (h.word _) ..

theorem OnlySupply.dpsWanted (h : OnlySupply n s t) : dpsWanted t n = dpsWanted s n := by
  rw [Machine.dpsWanted, h.dpsMode, Machine.dpsWanted]

theorem OnlySupply.dpsOpt (h : OnlySupply n s t) (b : Nat) : dpsOpt t n b = dpsOpt s n b := isSet_of_word (h.word _) b

theorem OnlySupply.dpsSlewEn (h : OnlySupply n s t) : dpsSlewEn t n = dpsSlewEn s n := h.dpsOpt 5

theorem OnlySupply.dpsHeld (h : OnlySupply n s t) : dpsHeld t n = dpsHeld s n := isSet_of_word (h.word _) 9

theorem OnlySupply.dpsDisch (h : OnlySupply n s t) : dpsDisch t n = dpsDisch s n := by
  rw [Machine.dpsDisch, h.dpsHeld, h.dpsOpt, Machine.dpsDisch]

theorem OnlySupply.dpsLevelWord (h : OnlySupply n s t) : dpsLevelWord t n = dpsLevelWord s n := by
  rw [Machine.dpsLevelWord, h.dpsMode, h.word, field_of_word (h.word _), Machine.dpsLevelWord]

theorem OnlySupply.dpsForcedOff (h : OnlySupply n s t) : dpsForcedOff t n = dpsForcedOff s n := by
  obtain ⟨⟨_, _, _, rfl⟩, -⟩ := h
  rfl

theorem OnlySupply.smons (h : OnlySupply n s t) : t.smons = s.smons := by
  obtain ⟨⟨_, _, _, rfl⟩, -⟩ := h
  rfl

theorem OnlySupply.injectOn (h : OnlySupply n s t) (b : Fin 64) : injectOn t b = injectOn s b := by
  obtain ⟨⟨_, _, _, rfl⟩, -⟩ := h
  rfl

end

theorem onlySupply_setLevel (s : State) (n : RidgeId) (v : Int) : OnlySupply n s (setLevel s n v) := onlySupply_modDps ..

theorem onlySupply_dpsMove (s : State) (n : RidgeId) (slewed : Bool) (v : Int) : OnlySupply n s (dpsMove s n slewed v) := by
  unfold dpsMove
  extract_lets x t
  split
  · split
    · exact onlySupply_modDps ..
    · exact (onlySupply_modDps ..).trans (onlySupply_raise ..)
  · split
    · exact onlySupply_modDps ..
    · exact ((onlySupply_modDps ..).trans (onlySupply_setLevel ..)).trans (onlySupply_raise ..)

theorem onlySupply_dpsConnect (s : State) (n : RidgeId) (out : DpsOut) : OnlySupply n s (dpsConnect s n out) := by
  unfold dpsConnect
  split
  · exact .refl n s
  · exact onlySupply_modDps ..

theorem onlySupply_dpsDisconnect (s : State) (n : RidgeId) (slewed : Bool) : OnlySupply n s (dpsDisconnect s n slewed) := by
  unfold dpsDisconnect
  extract_lets x
  split
  · exact (onlySupply_dpsMove ..).trans (onlySupply_modDps ..)
  · exact onlySupply_modDps ..

theorem onlySupply_dpsSync (s : State) (n : RidgeId) : OnlySupply n s (dpsSync s n) := by
  unfold dpsSync
  extract_lets was cfg a b s₁ s₂
  have h₁ : OnlySupply n s s₁ := by
    unfold s₁
    split
    · exact .refl n s
    · exact onlySupply_modDps ..
  have h₂ : OnlySupply n s₁ s₂ := by
    unfold s₂
    split
    · exact onlySupply_modDps ..
    · split
      · exact onlySupply_setLevel ..
      · exact .refl n s₁
  exact (h₁.trans h₂).trans (onlySupply_modDps ..)

/-- The output follows its mode: it disconnects, or it moves to its level, once it is connected in that mode. -/
def dpsFollow (s : State) (n : RidgeId) (w : DpsOut) : State :=
  if w = .off then dpsDisconnect s n (dpsSlewEn s n)
  else
    let t := if s.dps[n].out = w then modDps s n fun x => { x with closing := false }
      else dpsConnect (modDps s n (Dps.toOff (dpsDisch s n))) n w
    if t.dps[n].out = w then
      dpsMove (modDps t n fun x => { x with boostEn := dpsRange t n == 5 }) n (dpsSlewEn t n) (dpsLevelWord t n)
    else t

theorem onlySupply_dpsFollow (s : State) (n : RidgeId) (w : DpsOut) : OnlySupply n s (dpsFollow s n w) := by
  unfold dpsFollow
  split
  · exact onlySupply_dpsDisconnect ..
  · extract_lets t
    have h : OnlySupply n s t := by
      unfold t
      split
      · exact onlySupply_modDps ..
      · exact (onlySupply_modDps ..).trans (onlySupply_dpsConnect ..)
    split
    · exact (h.trans (onlySupply_modDps ..)).trans (onlySupply_dpsMove ..)
    · exact h

/-- DPS_CFG reaches an output that no fault value holds and no cause keeps off. -/
theorem dpsApply_eq {s : State} {n : RidgeId} (hh : dpsHeld s n = false) (hf : dpsForcedOff s n = false) :
    dpsApply s n = dpsFollow (dpsSync s n) n (dpsWanted s n) := by
  have sync := onlySupply_dpsSync s n
  simp only [dpsApply, hh, sync.dpsForcedOff, hf, sync.dpsWanted, Bool.false_eq_true, if_false]
  rfl

theorem onlySupply_dpsApply (s : State) (n : RidgeId) : OnlySupply n s (dpsApply s n) := by
  cases hh : dpsHeld s n with
  | true => rw [dpsApply, hh, if_pos rfl]; exact .refl n s
  | false =>
    cases hf : dpsForcedOff s n with
    | true =>
      have sync := onlySupply_dpsSync s n
      simp only [dpsApply, hh, sync.dpsForcedOff, hf, Bool.false_eq_true, if_false, if_true]
      exact sync
    | false =>
      rw [dpsApply_eq hh hf]
      exact (onlySupply_dpsSync ..).trans (onlySupply_dpsFollow ..)

/-! ### The output (R155 to R157) -/

/-- What an output forces, and towards what; whether its slew ends its connection; and its discharge path. -/
structure Forced where
  out : DpsOut
  level : Int
  target : Int
  closing : Bool
  disch : Bool

def Dps.forced (x : Dps) : Forced := ⟨x.out, x.level, x.target, x.closing, x.disch⟩

/-- What the output of channel n forces. -/
def forced (s : State) (n : RidgeId) : Forced := s.dps[n].forced

/-- The target is set; without the slew limiter the forced value is there at once (R156, R157). -/
def Forced.moved (x : Forced) (slewed : Bool) (v : Int) : Forced := { x with level := if slewed then x.level else v, target := v }

theorem forced_modDps (s : State) (n : RidgeId) (f : Dps → Dps) : forced (modDps s n f) n = (f s.dps[n]).forced :=
  congrArg Dps.forced (vmod_same ..)

theorem forced_raise (s : State) (n : RidgeId) (src payload : Nat) : forced (raise s src payload) n = forced s n := by
  obtain ⟨e, c, h⟩ := raise_eq s src payload
  rw [h]
  rfl

theorem forced_setLevel (s : State) (n : RidgeId) (v : Int) : forced (setLevel s n v) n = { forced s n with level := v } :=
  forced_modDps ..

theorem forced_dpsMove (s : State) (n : RidgeId) (slewed : Bool) (v : Int) :
    forced (dpsMove s n slewed v) n = (forced s n).moved slewed v := by
  unfold dpsMove
  extract_lets x t
  split
  next h =>
    have there : forced t n = (forced s n).moved slewed v := by
      have level : (forced s n).level = v := h
      rw [forced_modDps, Forced.moved, level, ite_self, ← level]
      rfl
    split
    · exact there
    · exact (forced_raise ..).trans there
  next =>
    split
    next h => rw [forced_modDps, h]; rfl
    next h => rw [forced_raise, forced_setLevel, forced_modDps, Forced.moved, if_neg h]; rfl

theorem forced_dpsConnect {s : State} (n : RidgeId) (out : DpsOut) (h : s.smons[9].released = true) :
    forced (dpsConnect s n out) n = ⟨out, 0, 0, false, false⟩ := by
  rw [dpsConnect, h, Bool.not_true, if_neg Bool.false_ne_true, forced_modDps]
  rfl

/-- A new range and the sine move nothing that an output forces outside FI. -/
theorem forced_dpsSync {s : State} {n : RidgeId} (h : (forced s n).out ≠ .fi) : forced (dpsSync s n) n = forced s n := by
  unfold dpsSync
  extract_lets was cfg a b s₁ s₂
  have h₁ : forced s₁ n = forced s n := by
    unfold s₁
    split
    · rfl
    · have out : s.dps[n].out ≠ .fi := h
      rw [forced_modDps, if_neg out, if_neg out]
      rfl
  have h₂ : forced s₂ n = forced s₁ n := by
    unfold s₂
    split
    · exact forced_modDps ..
    · split
      · exact forced_setLevel ..
      · rfl
  exact (forced_modDps ..).trans (h₂.trans h₁)

theorem dpsWanted_of_fv {s : State} {n : RidgeId} (h : dpsMode s n = 1) : dpsWanted s n = .fv := by
  simp only [dpsWanted, h]

theorem dpsWanted_of_off {s : State} {n : RidgeId} (h : dpsMode s n = 0) : dpsWanted s n = .off := by
  simp only [dpsWanted, h]

theorem forced_dpsDisconnect_unslewed (s : State) (n : RidgeId) :
    forced (dpsDisconnect s n false) n = ⟨.off, 0, 0, false, dpsDisch s n⟩ := by
  rw [dpsDisconnect, Bool.false_and, Bool.false_and, if_neg Bool.false_ne_true, forced_modDps]
  rfl

/-- A slewed disconnection goes to 0 first. -/
theorem forced_dpsDisconnect_slewed {s : State} {n : RidgeId} (ho : (forced s n).out ≠ .off) (hl : (forced s n).level ≠ 0) :
    forced (dpsDisconnect s n true) n = { forced s n with target := 0, closing := true } := by
  have out : (s.dps[n].out != .off) = true := bne_iff_ne.mpr ho
  have level : (s.dps[n].level != 0) = true := bne_iff_ne.mpr hl
  have slews : (true && s.dps[n].out != .off && s.dps[n].level != 0) = true := by rw [out, level]; rfl
  rw [dpsDisconnect, if_pos slews, forced_modDps]
  exact congrArg (fun x : Forced => { x with closing := true }) (forced_dpsMove s n true 0)

/-- An output that is not connected in its mode connects at 0 and moves to its level. -/
theorem forced_dpsFollow_connects {s : State} {n : RidgeId} {w : DpsOut} (hw : w ≠ .off) (ho : (forced s n).out ≠ w)
    (hr : s.smons[9].released = true) :
    forced (dpsFollow s n w) n = Forced.moved ⟨w, 0, 0, false, false⟩ (dpsSlewEn s n) (dpsLevelWord s n) := by
  have only : OnlySupply n s (dpsConnect (modDps s n (Dps.toOff (dpsDisch s n))) n w) :=
    (onlySupply_modDps ..).trans (onlySupply_dpsConnect ..)
  have at0 : forced (dpsConnect (modDps s n (Dps.toOff (dpsDisch s n))) n w) n = ⟨w, 0, 0, false, false⟩ :=
    forced_dpsConnect n w hr
  revert only at0
  rw [dpsFollow, if_neg hw, if_neg (show s.dps[n].out ≠ w from ho)]
  generalize dpsConnect (modDps s n (Dps.toOff (dpsDisch s n))) n w = t
  intro only at0
  have connected : t.dps[n].out = w := congrArg Forced.out at0
  rw [if_pos connected, forced_dpsMove, only.dpsSlewEn, only.dpsLevelWord, forced_modDps, ← at0]
  rfl

/-! ### DPS_CFG (R151, R155, R164) -/

theorem dpsW_ne {n : RidgeId} {j k : Nat} (h : j ≠ k) : dpsW n j ≠ dpsW n k := by
  unfold dpsW; omega

/-- A write of a stored DPS word, where no injection meets it. -/
theorem writeEffect_dpsStored (s : State) (n : RidgeId) {k d m : Nat} {a : Access} (v : Nat) (hk : k < 32)
    (hw : dpsWord k = some ⟨a, d, m⟩) (ha : a = .rw ∨ a = .rwl) (hj : injectOn (dpsWrite s n k (v &&& m)) 26 = none) :
    writeEffect s (dpsW n k) v = dpsWrite s n k (v &&& m) := by
  have applied : applyWord s (dpsW n k) (v &&& m) = dpsWrite s n k (v &&& m) := by
    simp only [applyWord, locate_dpsW n k hk, ofNat_ridge]
  have stored := writeEffect_stored s v ((wordInfo_dpsW n k hk).trans hw) ha
  rw [applied] at stored
  exact stored hj

section
variable {s : State} (n : RidgeId) (v : Nat)

/-- DPS_CFG as a write stores it. -/
abbrev cfgStored (s : State) (n : RidgeId) (v : Nat) : State := putWord s (dpsW n 0) (v &&& 0x3FF)

theorem word_cfgStored_other {k : Nat} (hk : k ≠ 0) : word (cfgStored s n v) (dpsW n k) = word s (dpsW n k) :=
  word_putWord_other _ _ _ _ (dpsW_ne hk)

theorem dpsHeld_cfgStored : dpsHeld (cfgStored s n v) n = dpsHeld s n := isSet_of_word (word_cfgStored_other n v (by decide)) 9

variable (hc : Canonical s)
include hc

theorem word_cfgStored : word (cfgStored s n v) (dpsW n 0) = v &&& 0x3FF := word_putWord_masked hc _ _ (by decide)

theorem dpsMode_cfgStored : dpsMode (cfgStored s n v) n = v % 4 := by
  have low : v &&& 0x3FF = v % 1024 := Nat.and_two_pow_sub_one_eq_mod v 10
  rw [dpsMode, field, word_cfgStored n v hc, low]
  simp only [bits, Nat.shiftRight_zero]
  omega

theorem dpsOpt_cfgStored {b : Nat} (hb : Nat.testBit 0x3FF b = true) : dpsOpt (cfgStored s n v) n b = bit v b := by
  rw [dpsOpt, isSet, word_cfgStored n v hc, Nat.testBit_and, hb, Bool.and_true, bit]

end

theorem dpsCfgWrite_sameRange {s : State} {n : RidgeId} {v : Nat} (hr : bits v 4 2 = dpsRange s n) :
    dpsCfgWrite s n (v &&& 0x3FF) = dpsApply (cfgStored s n v) n := by
  have low : v &&& 0x3FF = v % 1024 := Nat.and_two_pow_sub_one_eq_mod v 10
  have range : dpsRange s n = bits (v &&& 0x3FF) 4 2 := by
    rw [← hr, low]
    simp only [bits, Nat.shiftRight_eq_div_pow]
    omega
  simp only [dpsCfgWrite, if_pos range]

section
variable {s : State} {n : RidgeId} {v : Nat} (hc : Canonical s) (hj : injectOn s 26 = none) (hh : dpsHeld s n = false)
  (hf : dpsForcedOff s n = false) (hr : bits v 4 2 = dpsRange s n)
include hc hj hh hf hr

/-- A DPS_CFG write within the range stores the word, and the output follows it; the other channels stay. -/
theorem writeEffect_dpsCfg :
    writeEffect s (dpsW n 0) v = dpsFollow (dpsSync (cfgStored s n v) n) n (dpsWanted (cfgStored s n v) n) ∧
      word (writeEffect s (dpsW n 0) v) (dpsW n 0) = (v &&& 0x3FF) ∧
      ∀ m : RidgeId, m ≠ n → (writeEffect s (dpsW n 0) v).dps[m] = s.dps[m] := by
  have only := onlySupply_dpsApply (cfgStored s n v) n
  have wrote : dpsWrite s n 0 (v &&& 0x3FF) = dpsApply (cfgStored s n v) n := dpsCfgWrite_sameRange hr
  have effect : writeEffect s (dpsW n 0) v = dpsApply (cfgStored s n v) n := by
    rw [writeEffect_dpsStored s n v (by decide) rfl (.inr rfl) (by rw [wrote, only.injectOn]; exact hj), wrote]
  rw [effect]
  exact ⟨dpsApply_eq ((dpsHeld_cfgStored n v).trans hh) hf, (only.word _).trans (word_cfgStored n v hc), only.2⟩

/-- DPS_CFG in FV from OFF (R155, Table 15-2). -/
theorem forced_dpsCfg_connects (ho : s.dps[n].out = .off) (hm : v % 4 = 1) (h9 : s.smons[9].released = true) :
    forced (writeEffect s (dpsW n 0) v) n =
      Forced.moved ⟨.fv, 0, 0, false, false⟩ (bit v 5) (field s (dpsW n 1) 15 0 : Nat) := by
  obtain ⟨effect, -, -⟩ := writeEffect_dpsCfg hc hj hh hf hr
  have sync := onlySupply_dpsSync (cfgStored s n v) n
  have mode : dpsMode (cfgStored s n v) n = 1 := (dpsMode_cfgStored n v hc).trans hm
  have wanted : dpsWanted (cfgStored s n v) n = .fv := dpsWanted_of_fv mode
  have off : (forced (cfgStored s n v) n).out = .off := ho
  have level : dpsLevelWord (cfgStored s n v) n = (field s (dpsW n 1) 15 0 : Nat) := by
    rw [dpsLevelWord, mode, if_neg (by decide), field_of_word (word_cfgStored_other n v (by decide))]
  have slew : dpsSlewEn (cfgStored s n v) n = bit v 5 := dpsOpt_cfgStored n v hc rfl
  have synced : (forced (dpsSync (cfgStored s n v) n) n).out ≠ .fv := by
    rw [forced_dpsSync (by rw [off]; decide), off]
    decide
  rw [effect, wanted, forced_dpsFollow_connects (by decide) synced (by rw [sync.smons]; exact h9), sync.dpsSlewEn, slew,
    sync.dpsLevelWord, level]

variable (hm : v % 4 = 0)
include hm

/-- DPS_CFG in OFF disconnects, after a slew to 0 where SLEW_EN is set. -/
theorem writeEffect_dpsCfg_off :
    writeEffect s (dpsW n 0) v = dpsDisconnect (dpsSync (cfgStored s n v) n) n (bit v 5) := by
  obtain ⟨effect, -, -⟩ := writeEffect_dpsCfg hc hj hh hf hr
  have sync := onlySupply_dpsSync (cfgStored s n v) n
  have wanted : dpsWanted (cfgStored s n v) n = .off :=
    dpsWanted_of_off ((dpsMode_cfgStored n v hc).trans hm)
  have slew : dpsSlewEn (cfgStored s n v) n = bit v 5 := dpsOpt_cfgStored n v hc rfl
  rw [effect, wanted, dpsFollow, if_pos rfl, sync.dpsSlewEn, slew]

theorem forced_dpsCfg_off (h5 : bit v 5 = false) :
    forced (writeEffect s (dpsW n 0) v) n = ⟨.off, 0, 0, false, bit v 9⟩ := by
  have disch : dpsDisch (cfgStored s n v) n = bit v 9 := by
    rw [dpsDisch, dpsHeld_cfgStored, hh, Bool.false_or, dpsOpt_cfgStored n v hc rfl]
  rw [writeEffect_dpsCfg_off hc hj hh hf hr hm, h5, forced_dpsDisconnect_unslewed, (onlySupply_dpsSync ..).dpsDisch, disch]

theorem forced_dpsCfg_closes (ho : s.dps[n].out = .fv) (hl : s.dps[n].level ≠ 0) (h5 : bit v 5 = true) :
    forced (writeEffect s (dpsW n 0) v) n = { forced s n with target := 0, closing := true } := by
  have out : (forced s n).out = .fv := ho
  have notFi : (forced s n).out ≠ .fi := by rw [out]; decide
  have synced : forced (dpsSync (cfgStored s n v) n) n = forced s n := forced_dpsSync notFi
  rw [writeEffect_dpsCfg_off hc hj hh hf hr hm, h5,
    forced_dpsDisconnect_slewed (by rw [synced, out]; decide) (by rw [synced]; exact hl), synced]

end

/-! ### DPS_LEVEL (R157, R158, R164) -/

/-- A DPS_LEVEL write to an output that is on in the mode of DPS_CFG moves it. -/
theorem dpsLevelWrite_moves {s : State} {n : RidgeId} (v : Nat) (hh : dpsHeld s n = false) (hf : dpsForcedOff s n = false)
    (ho : s.dps[n].out = dpsWanted s n) (hon : s.dps[n].out ≠ .off) (hcl : s.dps[n].closing = false) :
    let t := putWord s (dpsW n 1) v
    dpsLevelWrite s n v = dpsMove t n (dpsSlewEn s n) (dpsLevelWord t n) := by
  intro t
  have cfg : word t (dpsW n 0) = word s (dpsW n 0) := word_putWord_other _ _ _ _ (dpsW_ne (by decide))
  have held : dpsHeld t n = false :=
    (isSet_of_word (word_putWord_other s _ _ v (dpsW_ne (by decide))) 9).trans hh
  have wanted : dpsWanted t n = dpsWanted s n := by rw [dpsWanted, dpsMode, field_of_word cfg, ← dpsMode, ← dpsWanted]
  have slew : dpsSlewEn t n = dpsSlewEn s n := isSet_of_word cfg 5
  have off : (t.dps[n].out == .off) = false := beq_eq_false_iff_ne.mpr hon
  have out : (t.dps[n].out != dpsWanted t n) = false := by rw [wanted]; exact bne_eq_false_iff_eq.mpr ho
  have moves : ¬(dpsHeld t n || dpsForcedOff t n || t.dps[n].out == .off || t.dps[n].closing ||
      t.dps[n].out != dpsWanted t n) = true := by
    rw [held, show dpsForcedOff t n = false from hf, off, show t.dps[n].closing = false from hcl, out]
    decide
  rw [← slew]
  exact if_neg moves

/-- DPS_LEVEL of an output that is on in FV (R157). -/
theorem writeEffect_dpsLevel {s : State} {n : RidgeId} {v : Nat} (hc : Canonical s) (hj : injectOn s 26 = none)
    (hh : dpsHeld s n = false) (hf : dpsForcedOff s n = false) (ho : s.dps[n].out = .fv) (hcl : s.dps[n].closing = false)
    (hm : dpsMode s n = 1) (hv : v < 65536) :
    word (writeEffect s (dpsW n 1) v) (dpsW n 1) = v ∧
      forced (writeEffect s (dpsW n 1) v) n = (forced s n).moved (dpsSlewEn s n) (v : Int) := by
  have masked : v &&& 0xFFFF = v := (Nat.and_two_pow_sub_one_eq_mod v 16).trans (Nat.mod_eq_of_lt hv)
  have stored : word (putWord s (dpsW n 1) v) (dpsW n 1) = v := by
    rw [word_putWord_same _ _ _ hc.p]
    omega
  have mode : dpsMode (putWord s (dpsW n 1) v) n = 1 :=
    (field_of_word (word_putWord_other s _ _ v (dpsW_ne (by decide))) 1 0).trans hm
  have level : dpsLevelWord (putWord s (dpsW n 1) v) n = (v : Int) := by
    rw [dpsLevelWord, mode, if_neg (by decide), field, stored]
    simp only [bits, Nat.shiftRight_zero]
    omega
  have wanted : s.dps[n].out = dpsWanted s n := ho.trans (dpsWanted_of_fv hm).symm
  have moves := dpsLevelWrite_moves v hh hf wanted (by rw [ho]; decide) hcl
  dsimp only at moves
  rw [level] at moves
  have only : OnlySupply n (putWord s (dpsW n 1) v) (dpsLevelWrite s n v) := by rw [moves]; exact onlySupply_dpsMove ..
  have effect : writeEffect s (dpsW n 1) v = dpsLevelWrite s n v := by
    have plain := writeEffect_dpsStored s n v (k := 1) (by decide) rfl (.inl rfl)
    rw [masked] at plain
    exact plain ((only.injectOn 26).trans hj)
  rw [effect]
  refine ⟨(only.word _).trans stored, ?_⟩
  rw [moves]
  exact forced_dpsMove ..

/-! ### DPS_NCO_FREQ, DPS_NCO_PHASE and DPS_STATUS (R163, R164, R170) -/

theorem writeEffect_dpsNco {s : State} (n : RidgeId) {k : Nat} (v : Word) (hj : injectOn s 26 = none) (hk : k = 9 ∨ k = 10) :
    writeEffect s (dpsW n k) v.toNat =
      modDps (putWord s (dpsW n k) v.toNat) n fun x => { x with phaseReset := true } := by
  have wrote : dpsWrite s n k v.toNat = modDps (putWord s (dpsW n k) v.toNat) n fun x => { x with phaseReset := true } := by
    rw [dpsWrite, if_neg (by omega), if_neg (by omega), if_pos hk]
  have masked : v.toNat &&& 0xFFFFFFFF = v.toNat :=
    (Nat.and_two_pow_sub_one_eq_mod v.toNat 32).trans (Nat.mod_eq_of_lt v.isLt)
  obtain ⟨d, row⟩ : ∃ d, dpsWord k = some ⟨.rw, d, 0xFFFFFFFF⟩ := by
    rcases hk with rfl | rfl
    · exact ⟨_, rfl⟩
    · exact ⟨_, rfl⟩
  have stored := writeEffect_dpsStored s n v.toNat (by omega) row (.inl rfl)
  rw [masked, wrote] at stored
  exact stored hj

/-- A write to DPS_STATUS clears the bits it names; with FAULT_HELD the output returns to its registers. -/
theorem writeEffect_dpsStatus (s : State) (n : RidgeId) (v : Nat) :
    writeEffect s (dpsW n 13) v =
      if bit v 9 then dpsApply (clrBits s (dpsW n 13) (v &&& 0x3B5)) n else clrBits s (dpsW n 13) (v &&& 0x3B5) := by
  have row : wordInfo (dpsW n 13) = some ⟨.w1c, 0, 0x3B5⟩ := wordInfo_dpsW n 13 (by decide)
  have held : bit (v &&& 0x3B5) 9 = bit v 9 := by
    rw [bit, Nat.testBit_and, show Nat.testBit 0x3B5 9 = true from rfl, Bool.and_true, bit]
  have cleared : writeEffect s (dpsW n 13) v = clearBits s (dpsW n 13) (v &&& 0x3B5) := by simp only [writeEffect, row]
  rw [cleared, clearBits, locate_dpsW n 13 (by decide)]
  simp only [ofNat_ridge, held, true_and]

end Sys2Proof.Machine
end

section
/-! The writes of DPS registers (R151, R155 to R157, R164, R170, Tables 6-6 and 15-2). -/

namespace Sys2Proof.Machine

/-- Settles O16: what the output forces after each write, from the equations of its connection, its move and its disconnection. -/
theorem supplyRegisterWrites : Obligations.SupplyRegisterWrites := by
  refine ⟨?connects, ?off, ?closes, ?level, fun s n k v hj hk => writeEffect_dpsNco n v hj hk, ?release, ?clears⟩
  case connects =>
    intro s n v hc hj hh hf ho hm hr _ h9 t
    obtain ⟨-, cfg, others⟩ := writeEffect_dpsCfg hc hj hh hf hr
    have out := forced_dpsCfg_connects hc hj hh hf hr ho hm h9
    have level : t.dps[n].level = ((if bit v 5 then 0 else field s (dpsW n 1) 15 0 : Nat) : Int) :=
      (congrArg Forced.level out).trans (Nat.cast_ite ..).symm
    exact ⟨cfg, congrArg Forced.out out, congrArg Forced.target out, level, congrArg Forced.disch out, others⟩
  case off =>
    intro s n v hc hj hh hf hm hr _ h5 t
    obtain ⟨-, cfg, -⟩ := writeEffect_dpsCfg hc hj hh hf hr
    have out := forced_dpsCfg_off hc hj hh hf hr hm h5
    exact ⟨cfg, congrArg Forced.out out, congrArg Forced.level out, congrArg Forced.closing out, congrArg Forced.disch out⟩
  case closes =>
    intro s n v hc hj hh hf ho hl hm hr _ h5 t
    have out := forced_dpsCfg_closes hc hj hh hf hr hm ho hl h5
    exact ⟨(congrArg Forced.out out).trans ho, congrArg Forced.closing out, congrArg Forced.target out,
      congrArg Forced.level out⟩
  case level =>
    intro s n v hc hj hh hf ho hcl hm hv t
    obtain ⟨stored, out⟩ := writeEffect_dpsLevel hc hj hh hf ho hcl hm hv
    exact ⟨stored, congrArg Forced.target out, congrArg Forced.level out, (congrArg Forced.out out).trans ho⟩
  case release =>
    intro s n v h9
    rw [writeEffect_dpsStatus, if_pos h9]
  case clears =>
    intro s n v h9
    rw [writeEffect_dpsStatus, if_neg (Bool.eq_false_iff.mp h9)]

end Sys2Proof.Machine
end

section
/-! SUPPORT. The events of a DPS channel: limits, compliance, open loads and senses, the booster and the cap (R159 to R161, R167,
R173). -/

namespace Sys2Proof.Machine

section
variable {s : State} {n : RidgeId}

/-! ### DPS_CURRENT_LIMIT and DPS_COMPLIANCE (R159) -/

theorem dpsCurrentLimit_new (ho : s.dps[n].out = .fv) (hn : s.dps[n].limitNow = false) :
    dpsCurrentLimitEffect n s =
      markMeasures (raise (setBits (modDps s n fun x => { x with limitNow := true }) (dpsW n 13) 1) (0x60 + n.val) n.val)
        (selIsDps n) fun j => { j with comply := true } :=
  if_neg (not_or.mpr ⟨not_not.mpr ho, Bool.eq_false_iff.mp hn⟩)

theorem dpsCurrentLimit_ignored (h : s.dps[n].out ≠ .fv ∨ s.dps[n].limitNow = true) : dpsCurrentLimitEffect n s = s := if_pos h

theorem dpsCompliance_new (ho : s.dps[n].out = .fi) (hn : s.dps[n].complyNow = false) :
    dpsComplianceEffect n s =
      markMeasures (raise (setBits (modDps s n fun x => { x with complyNow := true }) (dpsW n 13) 4) (0x70 + n.val) n.val)
        (selIsDps n) fun j => { j with comply := true } :=
  if_neg (not_or.mpr ⟨not_not.mpr ho, Bool.eq_false_iff.mp hn⟩)

theorem dpsCompliance_ignored (h : s.dps[n].out ≠ .fi ∨ s.dps[n].complyNow = true) : dpsComplianceEffect n s = s := if_pos h

/-! ### DPS_OPEN_LOAD and DPS_SENSE_OPEN (R160, R161) -/

theorem dpsOpenLoad_seen (ho : s.dps[n].out = .fv) (he : dpsOpt s n 7 = true) :
    dpsOpenLoadEffect n s = raise (setBits s (dpsW n 13) 16) (0x80 + n.val) n.val := if_pos ⟨ho, he⟩

theorem dpsOpenLoad_ignored (h : s.dps[n].out ≠ .fv ∨ dpsOpt s n 7 = false) : dpsOpenLoadEffect n s = s :=
  if_neg (not_and_or.mpr (h.imp_right Bool.eq_false_iff.mp))

theorem dpsSenseOpen_new (ho : s.dps[n].out ≠ .off) (hi : s.dps[n].internalSense = false) :
    dpsSenseOpenEffect n s =
      raise (setBits (modDps s n fun x => { x with internalSense := true }) (dpsW n 13) 32) (0x90 + n.val) n.val :=
  if_neg (not_or.mpr ⟨ho, Bool.eq_false_iff.mp hi⟩)

theorem dpsSenseOpen_ignored (h : s.dps[n].out = .off ∨ s.dps[n].internalSense = true) : dpsSenseOpenEffect n s = s := if_pos h

/-! ### BOOSTER_FAULT (R167) -/

theorem boosterFault_enabled (h : s.dps[n].boostEn = true) :
    boosterFaultEffect n s =
      parkCheck (ridgeFault (dpsFault (modDps s n fun x => { x with boostEn := false }) n) n 7 none false) :=
  if_neg (by rw [h]; decide)

theorem boosterFault_disabled (h : s.dps[n].boostEn = false) : boosterFaultEffect n s = s := if_pos (by rw [h]; rfl)

/-! ### DPS_CAP_RELEASE (R173) -/

theorem dpsCapRelease_below {e : Nat} (he : s.dps[n].effLimit = some e) (hb : 10 * s.dps[n].current.natAbs < 9 * e) :
    dpsCapReleaseEffect n s = modDps s n fun x => { x with effLimit := none } := by
  simp only [dpsCapReleaseEffect, he, if_pos hb]

/-- Without a cap, or from 90 % of it on. -/
theorem dpsCapRelease_stays (h : ∀ e, s.dps[n].effLimit = some e → 9 * e ≤ 10 * s.dps[n].current.natAbs) :
    dpsCapReleaseEffect n s = s := by
  cases he : s.dps[n].effLimit with
  | none => simp only [dpsCapReleaseEffect, he]
  | some e => simp only [dpsCapReleaseEffect, he, if_neg (h e he).not_gt]

end

end Sys2Proof.Machine
end

section
/-! What the events of a DPS channel do. -/

namespace Sys2Proof.Machine

/-- Settles O23: each event by what its own rule asks of the channel. -/
theorem supplyEvents : Obligations.SupplyEvents := by
  refine ⟨?limit, ?limitIgnored, ?comply, ?complyIgnored, fun s n => done_eq s _, ?load, ?loadIgnored, ?sense, ?senseIgnored,
    fun s n => done_eq s _, ?booster, ?boosterDisabled, ?cap, ?capStays⟩
  case limit => exact fun s n ho hn => congrArg (done s) (dpsCurrentLimit_new ho hn)
  case limitIgnored => exact fun s n h => congrArg (done s) (dpsCurrentLimit_ignored h)
  case comply => exact fun s n ho hn => congrArg (done s) (dpsCompliance_new ho hn)
  case complyIgnored => exact fun s n h => congrArg (done s) (dpsCompliance_ignored h)
  case load => exact fun s n ho he => congrArg (done s) (dpsOpenLoad_seen ho he)
  case loadIgnored => exact fun s n h => congrArg (done s) (dpsOpenLoad_ignored h)
  case sense => exact fun s n ho hi => congrArg (done s) (dpsSenseOpen_new ho hi)
  case senseIgnored => exact fun s n h => congrArg (done s) (dpsSenseOpen_ignored h)
  case booster => exact fun s n h => congrArg (done s) (boosterFault_enabled h)
  case boosterDisabled => exact fun s n h => congrArg (done s) (boosterFault_disabled h)
  case cap => exact fun s n e he hb => congrArg (done s) (dpsCapRelease_below he hb)
  case capStays => exact fun s n h => congrArg (done s) (dpsCapRelease_stays h)

end Sys2Proof.Machine
end

section
/-! FAULT_CLEAR, FAULT_INJECT, FW_UPDATE, SAVE_STATE, RESTORE_STATE, RSI_APPLY and their ends (R162, R336, R341, R352 to R355, R377,
R390, R391). -/

namespace Sys2Proof.Machine

/-- Work that ends by an event of its own proceeds outside the safe state and a thermal shutdown. -/
theorem not_stopped_of_live {s : State} (h : Live s) : ¬(bearSafe s || s.owl.shutdown) = true := by
  rw [h.1, h.2]
  decide

theorem not_negated {b : Bool} (h : b = true) : ¬(!b) = true := by
  rw [h]
  decide

/-! ### FW_UPDATE_DONE (R341) -/

/-- The flash with a programmed image. -/
def Flash.programmed (f : Flash) (patch : Bool) (img : FwImage) : Flash :=
  if patch then { f with patch := some img } else { f with firmware := some img }

/-- The reply to a firmware update that is programmed. -/
def fwReplied (s : State) (l : Long) (patch : Bool) (img : FwImage) : State :=
  replyDone { dropLong s l with flash := s.flash.programmed patch img } l.hdr 0x60 0

theorem fwReplied_flash (s : State) (l : Long) (patch : Bool) (img : FwImage) :
    (fwReplied s l patch img).flash = s.flash.programmed patch img := congrArg Quiet.flash (quiet_replyDone ..)

theorem fwReplied_boot (s : State) (l : Long) (patch : Bool) (img : FwImage) : (fwReplied s l patch img).boot = s.boot :=
  congrArg Quiet.boot (quiet_replyDone ..)

/-- Fox starts the boot again at STAGE 1 from its ROM loader. -/
def Boot.restarted (b : Boot) : Boot :=
  { b with stage := 1, mode := .normal, fwResult := 0, patchResult := 0, romLoader := true, sfdpOk := false }

theorem fwUpdateDone_programs {s : State} {l : Long} {patch : Bool} {img : FwImage} (hs : Live s)
    (hl : findLong s (fun j => match j with | .fwUpdate _ _ => true | _ => false) = some l) (hj : l.job = .fwUpdate patch img) :
    fwUpdateDoneEffect s =
      let t := fwReplied s l patch img
      if t.boot.stage = 7 ∧ !patch then modBoot t Boot.restarted else t := by
  unfold fwUpdateDoneEffect
  split
  next none => cases hl.symm.trans none
  next l' found =>
    obtain rfl : l = l' := Option.some.inj (hl.symm.trans found)
    simp only [hj, if_neg (not_stopped_of_live hs)]
    rfl

/-- In loader mode a firmware update restarts the boot, and no other update moves it. -/
theorem fwUpdateDone_fields {s : State} {l : Long} {patch : Bool} {img : FwImage} (hs : Live s)
    (hl : findLong s (fun j => match j with | .fwUpdate _ _ => true | _ => false) = some l) (hj : l.job = .fwUpdate patch img) :
    (fwUpdateDoneEffect s).flash = s.flash.programmed patch img ∧
      (fwUpdateDoneEffect s).boot = if s.boot.stage = 7 ∧ !patch then s.boot.restarted else s.boot := by
  rw [fwUpdateDone_programs hs hl hj]
  dsimp only
  rw [fwReplied_boot]
  split
  · exact ⟨fwReplied_flash .., congrArg Boot.restarted (fwReplied_boot ..)⟩
  · exact ⟨fwReplied_flash .., fwReplied_boot ..⟩

/-! ### SAVE_STATE_DONE (R354) -/

theorem saveStateDone_ends {s : State} {l : Long} {k : Fin 3} {b : Bool} {g : Word} {i : Retained} (ok : Bool) (hs : Live s)
    (hl : findLong s (fun j => match j with | .save _ _ _ _ => true | _ => false) = some l) (hj : l.job = .save k b g i) :
    saveStateDoneEffect ok s =
      let t := dropLong s l
      if ok then replyDone { t with flash := { t.flash with slots := t.flash.slots.set k (some ⟨b, g, i⟩) } } l.hdr 0x08 g.toNat
      else refuse (contained t ⟨37, 0, .contained, 0, 0, none, false, false⟩ id) l.hdr 0x08 ABORTED_FAULT 0 := by
  unfold saveStateDoneEffect
  split
  next none => cases hl.symm.trans none
  next l' found =>
    obtain rfl : l = l' := Option.some.inj (hl.symm.trans found)
    simp only [hj, if_neg (not_stopped_of_live hs)]

/-! ### RSI_APPLY (R352, R353) -/

/-- A copy applied, with the result of its application. -/
def copyApplied (s : State) (copyB : Bool) (x : RSlot) : State :=
  imageApplied (applyImage s x.image) (if copyB then 2 else 1) x.generation.toNat (some x.image)

/-- STAGE 6, and the power-up of the supplies. -/
def enterStage6 (s : State) : State := dpsPowerUp { s with boot := { s.boot with stage := 6 } }

/-- A copy as RSI_APPLY reads it. -/
def rsiRead (s : State) (copyB ok : Bool) : Option RSlot := if ok then copyContent s.flash (copyOf s.flash copyB) else none

theorem rsiRead_some {s : State} {copyB ok : Bool} {x : RSlot} (ho : ok = true)
    (hx : copyContent s.flash (copyOf s.flash copyB) = some x) : rsiRead s copyB ok = some x := (if_pos ho).trans hx

theorem rsiRead_none {s : State} {copyB ok : Bool} (h : ok = false ∨ copyContent s.flash (copyOf s.flash copyB) = none) :
    rsiRead s copyB ok = none := by
  rcases h with rfl | h
  · rfl
  · rw [rsiRead, h, ite_self]

theorem rsiApply_runs {s : State} (h5 : s.boot.stage = 5) (hc : s.boot.calDone = true) (ho : s.owl.shutdown = false) :
    ¬(s.boot.stage ≠ 5 ∨ (!s.boot.calDone) = true ∨ s.owl.shutdown = true) := by
  simp [h5, hc, ho]

section
variable {s : State} {ok other : Bool} (h5 : s.boot.stage = 5) (hc : s.boot.calDone = true) (ho : s.owl.shutdown = false)
include h5 hc ho

theorem rsiApply_newer {x : RSlot} (hx : rsiRead s (newerIsB s.flash) ok = some x) :
    rsiApplyEffect ok other s = enterStage6 (copyApplied s (newerIsB s.flash) x) := by
  rw [rsiRead] at hx
  simp only [rsiApplyEffect, if_neg (rsiApply_runs h5 hc ho), hx]
  rfl

/-- The newer copy does not read back. -/
theorem rsiApply_other {x : RSlot} (hn : rsiRead s (newerIsB s.flash) ok = none)
    (hx : rsiRead s (!newerIsB s.flash) other = some x) :
    rsiApplyEffect ok other s = enterStage6 (copyApplied s (!newerIsB s.flash) x) := by
  rw [rsiRead] at hn hx
  simp only [rsiApplyEffect, if_neg (rsiApply_runs h5 hc ho), hn, hx]
  rfl

/-- Neither copy reads back: the ROM defaults hold, and no route is set (R364). -/
theorem rsiApply_defaults (hn : rsiRead s (newerIsB s.flash) ok = none) (hx : rsiRead s (!newerIsB s.flash) other = none) :
    rsiApplyEffect ok other s =
      enterStage6 (imageApplied { s with events := { s.events with routes := Vector.replicate 256 0 } } 0 0 none) := by
  rw [rsiRead] at hn hx
  simp only [rsiApplyEffect, if_neg (rsiApply_runs h5 hc ho), hn, hx]
  rfl

end

/-- Settles O55: each packet by the branches of its body, and each end by the job that it finds. -/
theorem faultsFirmwareAndImages : Obligations.FaultsFirmwareAndImages := by
  refine ⟨fun s h mask ha => done_command ha, ?inject, ?update, ?updateDone, ?save, ?saveDone, ?restore, ?apply⟩
  case inject =>
    intro s h source count ha u n dbl b run
    refine ⟨fun bad => done_command_of_body 0x52 ha rfl (if_pos ?_), fun h1 h2 h3 => ?_⟩
    · exact bad.imp_right (Or.imp_right (And.imp_right (Bool.not_eq_true' _).mpr))
    have good : ¬(32 ≤ source.toNat ∨ n = 0 ∨ (injectFatal source.toNat dbl = true ∧ (!isSet u gFAULTCFG 28) = true)) := by
      rintro (range | count | ⟨fatal, off⟩)
      · omega
      · exact h2 count
      · exact not_negated (h3 fatal) off
    refine ⟨fun busy => done_command_of_body 0x52 ha rfl ((if_neg good).trans (if_pos busy)),
      fun free => done_command_of_body 0x52 ha rfl ((if_neg good).trans (if_neg ?_))⟩
    rw [free]
    decide
  case update =>
    intro s h target len addr img ha u patch n fox long run
    refine ⟨fun bad => done_command_of_body 0x60 ha rfl (if_pos bad), fun h1 h2 => ?_⟩
    have good : ¬(1 < target.toNat ∨ addr.toNat % 64 ≠ 0) := by omega
    refine ⟨fun hf => done_command_of_body 0x60 ha rfl ((if_neg good).trans (if_pos ((Bool.not_eq_true' _).mpr hf))),
      fun hf hl => ?length, fun hf hl hi => ?image, fun hf hl hi => ?starts⟩
    all_goals refine done_command_of_body 0x60 ha rfl ((if_neg good).trans ((if_neg (not_negated hf)).trans ?_))
    case length => exact if_pos hl
    case image => exact (if_neg hl).trans (if_pos hi)
    case starts => exact (if_neg hl).trans (if_neg (not_not.mpr hi))
  case updateDone =>
    intro s l patch img hs hl hj
    obtain ⟨flash, boot⟩ := fwUpdateDone_fields hs hl hj
    refine ⟨_, done_eq s (fwUpdateDoneEffect s), (after_flash ..).trans flash, fun h7 hp => ?_, fun h => ?_⟩
    · have restarts : s.boot.stage = 7 ∧ (!patch) = true := ⟨h7, (Bool.not_eq_true' _).mpr hp⟩
      rw [after_boot, boot, if_pos restarts]
      exact ⟨rfl, rfl, rfl⟩
    · have stays : ¬(s.boot.stage = 7 ∧ (!patch) = true) := not_and_or.mpr (h.imp_right not_negated)
      rw [after_boot, boot, if_neg stays]
  case save =>
    intro s h ha u g k run
    exact ⟨fun hf => done_command_of_body 0x08 ha rfl (if_pos ((Bool.not_eq_true' _).mpr hf)),
      fun hf hg => done_command_of_body 0x08 ha rfl ((if_neg (not_negated hf)).trans (if_pos hg)),
      fun hf hg => done_command_of_body 0x08 ha rfl ((if_neg (not_negated hf)).trans (if_neg hg))⟩
  case saveDone =>
    intro s l k b g i hs hl hj
    exact ⟨congrArg (done s) (saveStateDone_ends true hs hl hj), congrArg (done s) (saveStateDone_ends false hs hl hj)⟩
  case restore =>
    intro s h source crcOk ha u busy run
    refine ⟨fun hb => done_command_of_body 0x09 ha rfl (if_pos hb), fun hb bad => ?_, fun b x hb h2 hx hcrc => ?_⟩
    · refine done_command_of_body 0x09 ha rfl ((if_neg (Bool.eq_false_iff.mp hb)).trans ?_)
      split
      · rfl
      next h2 =>
        split
        · rfl
        next b x hx =>
          rcases bad with h | h | h
          · exact absurd h h2
          · rw [hx] at h; cases h
          · rw [h]; rfl
    · refine done_command_of_body 0x09 ha rfl ((if_neg (Bool.eq_false_iff.mp hb)).trans ((if_neg h2.not_gt).trans ?_))
      rw [hx, hcrc]
      rfl
  case apply =>
    intro s ok other h5 hc ho b done_ use
    exact ⟨fun x h1 hx => congrArg (done s) (rsiApply_newer h5 hc ho (rsiRead_some h1 hx)),
      fun x hn h1 hx => congrArg (done s) (rsiApply_other h5 hc ho (rsiRead_none hn) (rsiRead_some h1 hx)),
      fun hn hx => congrArg (done s) (rsiApply_defaults h5 hc ho (rsiRead_none hn) (rsiRead_none hx))⟩

end Sys2Proof.Machine
end

section
/-! SUPPORT. What the writes of port, capture, Marten and action words do to the words, the ports, the store and the slots (R182, R186,
R200, R240, R243, R248). -/

namespace Sys2Proof.Machine

/-! ### Actions -/

/-- A write to an action word starts what its writable bits name. -/
theorem writeEffect_action (s : State) {i d m : Nat} (v : Nat) (h : wordInfo i = some ⟨.wo, d, m⟩) :
    writeEffect s i v = act s i (v &&& m) := by
  simp only [writeEffect, h]

theorem bit_zero_masked {v m : Nat} (hm : m % 2 = 1) (hv : v % 2 = 1) : bit (v &&& m) 0 = true := by
  rw [bit, Nat.testBit_and, Nat.testBit_zero, Nat.testBit_zero, hm, hv]
  rfl

theorem writeEffect_portAction (s : State) (n : RidgeId) (v : Nat) :
    writeEffect s (aptW n 13) v =
      let u := if bit (v &&& 3) 0 then stopAwg s n else s
      if bit (v &&& 3) 1 then stopAcq u n else u := by
  rw [writeEffect_action s v (wordInfo_aptW n 13 (by decide)), act, locate_aptW n 13 (by decide)]
  simp only [ofNat_ridge]

/-! ### Freeing images leaves the ports (R79) -/

theorem raise_ports (s : State) (src payload : Nat) : (raise s src payload).ports = s.ports := by
  obtain ⟨e, c, h⟩ := raise_eq s src payload
  rw [h]

theorem ports_each {α : Type} {l : List α} {f : State → α → State} {s : State} (h : ∀ s a, (f s a).ports = s.ports) :
    (each l f s).ports = s.ports :=
  each_ind (·.ports = s.ports) rfl fun u a hu => (h u a).trans hu

theorem freeImage_ports (s : State) (h : Handle) : (freeImage s h).ports = s.ports := by
  unfold freeImage
  split
  · rfl
  · exact ports_each fun _ _ => rfl

theorem sweep_ports (s : State) : (sweep s).ports = s.ports :=
  ports_each fun _ _ => (raise_ports ..).trans (freeImage_ports ..)

theorem stopAwg_port (s : State) (n : RidgeId) :
    (stopAwg s n).ports[n] = { s.ports[n] with awg := none, awgAt := none, awgRidge := false } := by
  simp only [stopAwg, sweep_ports, modPort_fields, vmod_same]

/-! ### Stored words of a port and a ridge -/

/-- A write of a stored word of 32 bits, where no injection meets it. -/
theorem writeEffect_whole (s : State) {i d : Nat} (v : Word) (h : wordInfo i = some ⟨.rw, d, 0xFFFFFFFF⟩)
    (hj : injectOn (applyWord s i v.toNat) 26 = none) : writeEffect s i v.toNat = applyWord s i v.toNat := by
  have masked : v.toNat &&& 0xFFFFFFFF = v.toNat :=
    (Nat.and_two_pow_sub_one_eq_mod v.toNat 32).trans (Nat.mod_eq_of_lt v.isLt)
  have stored := writeEffect_stored s v.toNat h (.inl rfl)
  rw [masked] at stored
  exact stored hj

theorem applyWord_aptW (s : State) (n : RidgeId) {k : Nat} (v : Nat) (h : k < 32) : applyWord s (aptW n k) v = portWrite s n k v := by
  simp only [applyWord, locate_aptW n k h, ofNat_ridge]

theorem aptW_ne {n : RidgeId} {j k : Nat} (h : j ≠ k) : aptW n j ≠ aptW n k := by
  unfold aptW; omega

/-- A word of the NCO is stored, and the phase loads at the next sample instant (R186). -/
theorem writeEffect_aptNco (s : State) (n : RidgeId) {k : Nat} (v : Word) (hj : injectOn s 26 = none) (hk : k = 4 ∨ k = 5) :
    writeEffect s (aptW n k) v.toNat = ncoReset (putWord s (aptW n k) v.toNat) n s.now := by
  obtain ⟨d, row⟩ : ∃ d, portWord k = some ⟨.rw, d, 0xFFFFFFFF⟩ := by
    rcases hk with rfl | rfl
    · exact ⟨_, rfl⟩
    · exact ⟨_, rfl⟩
  have short : k < 32 := by omega
  have applied : applyWord s (aptW n k) v.toNat = ncoReset (putWord s (aptW n k) v.toNat) n s.now :=
    (applyWord_aptW s n _ short).trans (if_pos hk)
  rw [← applied]
  exact writeEffect_whole s v ((wordInfo_aptW n k short).trans row) (by rw [applied]; exact hj)

theorem ncoReset_port (s : State) (n : RidgeId) (t : T64) :
    (ncoReset s n t).ports[n] =
      { s.ports[n] with phase := BitVec.ofNat 32 (word s (aptW n 5)), phaseAt := sampleAfter s n false t } := by
  simp only [ncoReset, modPort_fields, vmod_same]

/-- The sample instants do not depend on the words of the NCO. -/
theorem sampleAfter_ncoWord (s : State) (n : RidgeId) {k : Nat} (v : Nat) (adc : Bool) (t : T64) (hk : k ≠ 7) :
    sampleAfter (putWord s (aptW n k) v) n adc t = sampleAfter s n adc t := by
  have deskew : word (putWord s (aptW n k) v) (aptW n 7) = word s (aptW n 7) := word_putWord_other _ _ _ _ (aptW_ne hk.symm)
  simp only [sampleAfter, portShift, field_of_word deskew]
  rfl

/-! ### GLB_MARTEN_CFG (R240, R243, R248) -/

/-- With every lent slot given up, no ridge keeps one. -/
theorem endLending_ridge (s : State) (r : RidgeId) : (endLending s).ridges[r].lent = [] ∧ (endLending s).ridges[r].lentDue = [] := by
  have ended (l : List RidgeId) (u : State) (h : r ∈ l ∨ (u.ridges[r].lent = [] ∧ u.ridges[r].lentDue = [])) :
      let t := each l (fun s r => modR s r fun x => { x with lent := [], lentDue := [] }) u
      t.ridges[r].lent = [] ∧ t.ridges[r].lentDue = [] := by
    induction l generalizing u with
    | nil => exact h.resolve_left (List.not_mem_nil)
    | cons q l ih =>
      refine ih _ ?_
      rw [modR_ridge]
      split
      · exact .inr ⟨rfl, rfl⟩
      next other =>
        exact h.imp_left fun hm => (List.mem_cons.mp hm).resolve_left fun e => other e.symm
  exact ended allRidges s (.inl (List.mem_finRange r))

theorem endLending_store (s : State) : (endLending s).store = s.store := store_each fun _ _ => rfl

theorem endLending_params (s : State) : (endLending s).params = s.params :=
  each_ind (·.params = s.params) rfl fun _ _ hu => hu

theorem endLending_bear (s : State) : (endLending s).bear = s.bear :=
  each_ind (·.bear = s.bear) rfl fun _ _ hu => hu

/-- The segment store as a GLB_MARTEN_CFG write leaves it: leaving replay mode empties the frames that await RECLAIM, entering it sets
the allocation pointer to 0. -/
def martenStored (s : State) (was : Bool) (v : Nat) : State :=
  { s with store := { s.store with awaiting := if was && !bit v 0 then [] else s.store.awaiting
                                   ptr := if !was && bit v 0 then 0 else s.store.ptr } }

theorem martenCfg_eq (s : State) (was : Bool) (v : Nat) :
    martenCfg s was v = if bit v 0 || !bit v 1 then endLending (martenStored s was v) else martenStored s was v := by
  unfold martenCfg martenStored
  cases was <;> cases bit v 0 <;> rfl

/-- Of the map, Bear and the store, GLB_MARTEN_CFG moves the store alone. -/
theorem martenCfg_store (s : State) (was : Bool) (v : Nat) :
    (martenCfg s was v).params = s.params ∧ (martenCfg s was v).bear = s.bear ∧
      (martenCfg s was v).store = (martenStored s was v).store := by
  rw [martenCfg_eq]
  split
  · exact ⟨endLending_params .., endLending_bear .., endLending_store ..⟩
  · exact ⟨rfl, rfl, rfl⟩

theorem martenCfg_lent (s : State) (was : Bool) {v : Nat} (h : bit v 0 = true ∨ bit v 1 = false) (r : RidgeId) :
    (martenCfg s was v).ridges[r].lent = [] ∧ (martenCfg s was v).ridges[r].lentDue = [] := by
  have ends : (bit v 0 || !bit v 1) = true := by
    rcases h with h | h
    · rw [h]; rfl
    · rw [h]; exact Bool.or_true _
  rw [martenCfg_eq, if_pos ends]
  exact endLending_ridge _ r

theorem writeEffect_martenCfg {s : State} {v : Nat} (hj : injectOn s 26 = none) :
    writeEffect s gMARTENCFG v = martenCfg (putWord s gMARTENCFG (v &&& 3)) (replayMode s) (v &&& 3) := by
  have located : locate gMARTENCFG = (.global, 0, 0xC0) := rfl
  have applied : applyWord s gMARTENCFG (v &&& 3) = martenCfg (putWord s gMARTENCFG (v &&& 3)) (replayMode s) (v &&& 3) := by
    simp only [applyWord, located, globalWrite, if_true]
  have stored := writeEffect_stored s (i := gMARTENCFG) v rfl (.inl rfl)
  rw [applied] at stored
  obtain ⟨-, bear, -⟩ := martenCfg_store (putWord s gMARTENCFG (v &&& 3)) (replayMode s) (v &&& 3)
  exact stored (by rw [injectOn, bear]; exact hj)

end Sys2Proof.Machine
end

section
/-! The writes of port, capture, Marten, event and reset registers (R186, R188, R189, R200, R240, R243, R248, R365, R389, R404). -/

namespace Sys2Proof.Machine

/-- Settles O17: each action word starts its action, each stored word is stored, and GLB_MARTEN_CFG by its fields. -/
theorem portAndGlobalWrites : Obligations.PortAndGlobalWrites := by
  refine ⟨?stopAwg, ?stopAcq, ?nco, ?hostRd, ?capHostRd, ?marten, ?reclaim, ?fire, ?ridge, ?host⟩
  case stopAwg =>
    intro s n
    have stopped : writeEffect s (aptW n 13) 1 = stopAwg s n := writeEffect_portAction s n 1
    dsimp only
    rw [stopped, stopAwg_port]
    exact ⟨rfl, rfl, rfl, rfl⟩
  case stopAcq => exact fun s n => writeEffect_portAction s n 2
  case nco =>
    intro s n k v hc hj hk
    dsimp only
    rw [writeEffect_aptNco s n v hj hk, ncoReset_port]
    have stored : word (putWord s (aptW n k) v.toNat) (aptW n k) = v.toNat :=
      (word_putWord_same _ _ _ hc.p).trans (Nat.mod_eq_of_lt v.isLt)
    exact ⟨stored, rfl, sampleAfter_ncoWord s n _ false _ (by omega), rfl⟩
  case hostRd =>
    intro s n v hj
    have applied : applyWord s (aptW n 16) v.toNat = putWord s (aptW n 16) v.toNat := applyWord_aptW s n _ (by decide)
    rw [← applied]
    exact writeEffect_whole s v (wordInfo_aptW n 16 (by decide)) (by rw [applied]; exact hj)
  case capHostRd =>
    intro s r v hj
    have applied : applyWord s (rdgW r 0x20) v.toNat = putWord s (rdgW r 0x20) v.toNat := by
      simp only [applyWord, locate_rdgW r 0x20 (by decide), ofNat_ridge]
      rfl
    rw [← applied]
    exact writeEffect_whole s v (wordInfo_rdgW r 0x20 (by decide)) (by rw [applied]; exact hj)
  case marten =>
    intro s v hc hj
    have replay : bit (v &&& 3) 0 = decide (v % 2 = 1) := by
      rw [bit, Nat.testBit_and, show Nat.testBit 3 0 = true from rfl, Bool.and_true, Nat.testBit_zero]
    have lend : bit (v &&& 3) 1 = decide (v / 2 % 2 = 1) := by
      rw [bit, Nat.testBit_and, show Nat.testBit 3 1 = true from rfl, Bool.and_true, Nat.testBit_succ, Nat.testBit_zero]
    obtain ⟨params, -, store⟩ := martenCfg_store (putWord s gMARTENCFG (v &&& 3)) (replayMode s) (v &&& 3)
    dsimp only
    rw [writeEffect_martenCfg hj, store]
    refine ⟨(word_of_params params _).trans (word_putWord_masked hc _ _ (by decide)), ?_, ?_, fun h r => martenCfg_lent _ _ ?_ r⟩
    · cases hr : replayMode s <;> simp [martenStored, replay, putWord]
    · cases hr : replayMode s <;> simp [martenStored, replay, putWord]
    · rw [replay, lend, decide_eq_true_eq, decide_eq_false_iff_not]
      omega
  case reclaim =>
    intro s v hv
    exact (writeEffect_action s v rfl).trans (if_pos (bit_zero_masked rfl hv))
  case fire =>
    intro s v
    have source : (v &&& 0xF) % 16 = v % 16 := by
      rw [show v &&& 0xF = v % 16 from Nat.and_two_pow_sub_one_eq_mod v 4, Nat.mod_mod]
    rw [← source]
    exact writeEffect_action s v rfl
  case ridge =>
    intro s r
    rw [writeEffect_action s 1 (wordInfo_rdgW r 0x30 (by decide)), act, locate_rdgW r 0x30 (by decide)]
    simp only [ofNat_ridge]
    rfl
  case host => exact fun s => rfl

end Sys2Proof.Machine
end

section
/-! SUPPORT. When an acquisition starts, what the trigger engine makes of a sample, and when a hold-off is over (R178, R190 to R194). -/

namespace Sys2Proof.Machine

theorem not_live_iff {s : State} : ¬Live s ↔ bearSafe s = true ∨ s.owl.shutdown = true := by
  rw [Live, not_and_or, Bool.not_eq_false, Bool.not_eq_false]

theorem modPort_congr {s : State} {n : RidgeId} {f g : Port → Port} (h : f s.ports[n] = g s.ports[n]) :
    modPort s n f = modPort s n g := by
  simp only [modPort, vmod, h]

/-- A change of the acquisition that a port runs. -/
theorem modAcq_some {s : State} {n : RidgeId} {a : Acq} (f : Acq → Acq) (h : s.ports[n].acq = some a) :
    modAcq s n f = modPort s n fun p => { p with acq := some (f a) } :=
  modPort_congr (by rw [h]; rfl)

/-! ### ACQ_START (R190) -/

theorem acqStart_due {s : State} {n : RidgeId} {a : Acq} (ha : s.ports[n].acq = some a) (hs : a.started = false)
    (he : a.ended = false) (hr : reached s.now a.startAt = true) (hl : Live s) :
    acqStartEffect n s = modPort s n fun p => { p with acq := some { a with started := true } } := by
  obtain ⟨safe, shutdown⟩ := hl
  unfold acqStartEffect
  split
  next none => cases none.symm.trans ha
  next b hb =>
    obtain rfl : b = a := Option.some.inj (hb.symm.trans ha)
    exact (if_neg (by rw [hs, he, hr, safe, shutdown]; decide)).trans (modAcq_some _ hb)

theorem acqStart_waits {s : State} {n : RidgeId} (h : ∀ a, s.ports[n].acq = some a → a.started = true ∨ a.ended = true ∨
    reached s.now a.startAt = false ∨ ¬Live s) : acqStartEffect n s = s := by
  unfold acqStartEffect
  split
  · rfl
  next a ha =>
    have waits := h a ha
    rw [not_live_iff] at waits
    refine if_pos ?_
    simp only [Bool.or_eq_true, Bool.not_eq_true']
    tauto

/-! ### The engine's conditions (R191, R192, R194) -/

/-- The engine is armed, and the acquisition takes the sample with this index. -/
def Acq.opens (a : Acq) (i : Nat) : Bool := a.armed && !a.ended && a.stopAt.all fun z => decide (i < z)

theorem Acq.opens_iff (a : Acq) (i : Nat) :
    a.opens i = true ↔ a.armed = true ∧ a.ended = false ∧ ∀ z, a.stopAt = some z → i < z := by
  unfold Acq.opens
  cases a.stopAt <;> simp [and_assoc]

theorem triggers_rising (level hyst s0 s1 x : Int) (first arm i : Nat) :
    triggers false level hyst s0 s1 x first arm i = true ↔
      first ≤ arm ∧ arm < i ∧ x ≤ level - hyst ∧ level ≤ s1 ∧ (arm + 1 = i → s0 = x) ∧ (arm + 1 ≠ i → s0 < level) := by
  by_cases next : arm + 1 = i <;> simp [triggers, arms, reaches, next, and_assoc]

theorem triggers_falling (level hyst s0 s1 x : Int) (first arm i : Nat) :
    triggers true level hyst s0 s1 x first arm i = true ↔
      first ≤ arm ∧ arm < i ∧ level + hyst ≤ x ∧ s1 ≤ level ∧ (arm + 1 = i → s0 = x) ∧ (arm + 1 ≠ i → level < s0) := by
  by_cases next : arm + 1 = i <;> simp [triggers, arms, reaches, next, and_assoc]

/-- LEVEL lies between the two samples of a trigger. -/
theorem triggers_spans {falling : Bool} {level hyst s0 s1 x : Int} {first arm i : Nat} (hh : 0 ≤ hyst)
    (h : triggers falling level hyst s0 s1 x first arm i = true) : (level - s0).natAbs ≤ (s1 - s0).natAbs := by
  cases falling with
  | false =>
    obtain ⟨-, -, armed, passed, next, later⟩ := (triggers_rising ..).mp h
    have before : s0 ≤ level := by
      by_cases adjacent : arm + 1 = i
      · rw [next adjacent]; omega
      · exact (later adjacent).le
    omega
  | true =>
    obtain ⟨-, -, armed, passed, next, later⟩ := (triggers_falling ..).mp h
    have before : level ≤ s0 := by
      by_cases adjacent : arm + 1 = i
      · rw [next adjacent]; omega
      · exact (later adjacent).le
    omega

/-- The quotient of R192 is at most 256 where LEVEL lies between the samples. -/
theorem crossQ_le {free : Nat} {level s0 s1 : Int} (h : (level - s0).natAbs ≤ (s1 - s0).natAbs) :
    crossQ free level s0 s1 ≤ 256 := by
  unfold crossQ
  extract_lets d
  split
  · exact Nat.le_of_lt_succ (Config.flatCrossing free).isLt
  next apart => exact Nat.le_of_lt_succ (Nat.div_lt_of_lt_mul (by omega))

/-! ### ANALOG_TRIGGER (R178, R191 to R194, R201) -/

theorem markRange_trigSource (s : State) (n : RidgeId) (l : List (BitVec 16)) : trigSource (markRange s n l) n = trigSource s n := by
  unfold markRange
  split
  · exact field_of_word (word_setBits_other s 8 (aptW_ne (by decide))) 1 0
  · rfl

/-- A sample of an acquisition has come, and lies in no complete block. -/
structure SampleComes (s : State) (n : RidgeId) (a : Acq) (i : Nat) : Prop where
  acquires : s.ports[n].acq = some a
  started : a.started = true
  takes : a.ended = false ∨ a.stream = false
  fresh : a.stream = true → a.nextIndex ≤ i
  come : reached s.now (a.instant i) = true
  live : Live s

/-- What the engine makes of a sample that has come, for each SOURCE. -/
theorem analogTrigger_comes {s : State} {n : RidgeId} {a : Acq} {i : Nat} (h : SampleComes s n a i) (s0 s1 x : BitVec 16)
    (arm : Nat) :
    let level := signed 16 (field s (aptW n 11) 15 0)
    let hyst : Int := field s (aptW n 11) 30 16
    let falling := isSet s (aptW n 10) 2
    let y0 := (adcCode s0).toInt
    let y1 := (adcCode s1).toInt
    let u := markRange s n [adcCode s0, adcCode s1]
    (trigSource s n = 0 → analogTriggerEffect n s0 s1 i arm x s =
      if a.triggers = 0 ∧ i = 0 ∧ a.opens i then acceptTrigger u n a a.startAt 0 false else u) ∧
    (trigSource s n = 1 → analogTriggerEffect n s0 s1 i arm x s =
      if a.opens i && triggers falling level hyst y0 y1 (adcCode x).toInt a.firstOk arm i then
        acceptTrigger (tickFree u) n a (a.instant (i - 1) + BitVec.ofNat 64 (12 * crossQ u.free level y0 y1)) i true
      else if crosses falling level y0 y1 then passOver u n i else u) ∧
    (2 ≤ trigSource s n → analogTriggerEffect n s0 s1 i arm x s =
      if a.opens i && decide (a.firstOk ≤ i) && decide (a.eventAt.map a.indexAt = some i) then
        acceptTrigger u n a (a.instant i) i false
      else u) := by
  obtain ⟨ha, started, takes, fresh, come, safe, shutdown⟩ := h
  intro level hyst falling y0 y1 u
  have source : trigSource u n = trigSource s n := markRange_trigSource ..
  have taken : (a.ended && a.stream) = false := by
    rcases takes with e | e <;> simp [e]
  have inside : (a.stream && decide (i < a.nextIndex)) = false := by
    cases e : a.stream with
    | false => rfl
    | true => simpa using fresh e
  unfold analogTriggerEffect
  split
  next none => cases none.symm.trans ha
  next b hb =>
    obtain rfl : b = a := Option.some.inj (hb.symm.trans ha)
    rw [if_neg (by rw [started, taken, come, safe, shutdown, inside]; decide)]
    extract_lets open_
    have opens : open_ = b.opens i := by
      unfold open_ Acq.opens
      cases b.stopAt <;> rfl
    rw [opens]
    refine ⟨fun hs => ?_, fun hs => ?_, fun hs => ?_⟩
    all_goals rw [← source] at hs
    · rw [hs]; rfl
    · rw [hs]; rfl
    · split
      next e => omega
      next e => omega
      next => rfl

theorem analogTrigger_ignored {s : State} {n : RidgeId} {i : Nat} (s0 s1 x : BitVec 16) (arm : Nat)
    (h : ∀ a, s.ports[n].acq = some a → a.started = false ∨ (a.ended = true ∧ a.stream = true) ∨
      reached s.now (a.instant i) = false ∨ ¬Live s ∨ (a.stream = true ∧ i < a.nextIndex)) :
    analogTriggerEffect n s0 s1 i arm x s = s := by
  unfold analogTriggerEffect
  split
  · rfl
  next a ha =>
    have ignored := h a ha
    rw [not_live_iff] at ignored
    refine if_pos ?_
    simp only [Bool.or_eq_true, Bool.and_eq_true, Bool.not_eq_true', decide_eq_true_eq]
    tauto

/-! ### TRIGGER_HOLDOFF_END (R194) -/

/-- The hold-off that began at stream index l is over. -/
def HoldOver (s : State) (n : RidgeId) (a : Acq) (l : Nat) : Prop :=
  if isSet s (aptW n 10) 3 then a.holdEvents = 0 else reached s.now (a.instant (l + 1 + word s (aptW n 12))) = true

theorem holdOver_iff (s : State) (n : RidgeId) (a : Acq) (l : Nat) :
    (if isSet s (aptW n 10) 3 then a.holdEvents == 0 else reached s.now (a.instant (l + 1 + word s (aptW n 12)))) = true ↔
      HoldOver s n a l := by
  unfold HoldOver
  split
  · exact beq_iff_eq
  · exact Iff.rfl

theorem not_holdOver_iff (s : State) (n : RidgeId) (a : Acq) (l : Nat) :
    ¬HoldOver s n a l ↔ if isSet s (aptW n 10) 3 then a.holdEvents ≠ 0
      else reached s.now (a.instant (l + 1 + word s (aptW n 12))) = false := by
  unfold HoldOver
  split
  · exact Iff.rfl
  · exact (Bool.not_eq_true _).to_iff

theorem triggerHoldoffEnd_over {s : State} {n : RidgeId} {a : Acq} {l : Nat} (ha : s.ports[n].acq = some a)
    (hf : a.holdFrom = some l) (hl : Live s) (ends : HoldOver s n a l) :
    triggerHoldoffEndEffect n s = modPort s n fun p => { p with acq := some { a with armed := true, holdFrom := none } } := by
  obtain ⟨safe, shutdown⟩ := hl
  unfold triggerHoldoffEndEffect
  split
  next none => cases none.symm.trans ha
  next b hb =>
    obtain rfl : b = a := Option.some.inj (hb.symm.trans ha)
    split
    next none => cases none.symm.trans hf
    next m hm =>
      obtain rfl : m = l := Option.some.inj (hm.symm.trans hf)
      refine (if_pos ?_).trans (modAcq_some _ hb)
      rw [(holdOver_iff ..).mpr ends, safe, shutdown]
      rfl

theorem triggerHoldoffEnd_waits {s : State} {n : RidgeId}
    (h : ∀ a l, s.ports[n].acq = some a → a.holdFrom = some l → ¬Live s ∨ ¬HoldOver s n a l) :
    triggerHoldoffEndEffect n s = s := by
  unfold triggerHoldoffEndEffect
  split
  · rfl
  next a ha =>
    split
    · rfl
    next l hl =>
      have waits := h a l ha hl
      rw [not_live_iff] at waits
      refine if_neg ?_
      rw [Bool.and_eq_true, Bool.and_eq_true, holdOver_iff, Bool.not_eq_true', Bool.not_eq_true', ← Bool.not_eq_true,
        ← Bool.not_eq_true]
      tauto

end Sys2Proof.Machine
end

section
/-! The trigger engine (R178, R190 to R194, R201). -/

namespace Sys2Proof.Machine

/-- Settles O28: each row by whether its instant has come, and a sample by what the engine of its SOURCE makes of it. -/
theorem triggerEngine : Obligations.TriggerEngine := by
  refine ⟨?start, ?startWaits, ?sample, ?ignored, triggers_rising, triggers_falling, ?fraction, ?holdOff, ?holds⟩
  case start => exact fun s n a ha hs he hr hl => congrArg (done s) (acqStart_due ha hs he hr hl)
  case startWaits => exact fun s n h => congrArg (done s) (acqStart_waits h)
  case sample =>
    intro s n a s0 s1 x i arm ha started takes fresh come live level hyst falling y0 y1 open_ hit u c
    obtain ⟨first, crossing, event⟩ := analogTrigger_comes ⟨ha, started, takes, fresh, come, live⟩ s0 s1 x arm
    have opens : a.opens i = true ↔ open_ := a.opens_iff i
    have run {t : State} (e : analogTriggerEffect n s0 s1 i arm x s = t) : exec c s = .next (after s t) := congrArg (done s) e
    refine ⟨fun hs ht hi ho => run ?_, fun hs no => run ?_, fun hs ho hh => run ?_, fun hs no hc => run ?_,
      fun hs no hc => run ?_, fun hs ho hf he => run ?_, fun hs no => run ?_⟩
    · exact (first hs).trans (if_pos ⟨ht, hi, opens.mpr ho⟩)
    · exact (first hs).trans (if_neg fun ⟨ht, hi, ho⟩ => no ⟨ht, hi, opens.mp ho⟩)
    · exact (crossing hs).trans (if_pos (by rw [opens.mpr ho]; exact hh))
    · refine (crossing hs).trans ((if_neg fun both => no ?_).trans (if_pos hc))
      obtain ⟨ho, hh⟩ := Bool.and_eq_true_iff.mp both
      exact ⟨opens.mp ho, hh⟩
    · refine (crossing hs).trans ((if_neg fun both => no ?_).trans (if_neg (Bool.eq_false_iff.mp hc)))
      obtain ⟨ho, hh⟩ := Bool.and_eq_true_iff.mp both
      exact ⟨opens.mp ho, hh⟩
    · exact (event hs).trans (if_pos (by rw [opens.mpr ho, decide_eq_true hf, decide_eq_true he]; rfl))
    · refine (event hs).trans (if_neg fun all => no ?_)
      simp only [Bool.and_eq_true, decide_eq_true_eq] at all
      exact ⟨opens.mp all.1.1, all.1.2, all.2⟩
  case ignored => exact fun s n s0 s1 p h => congrArg (done s) (analogTrigger_ignored s0 s1 p.x p.arm h)
  case fraction =>
    intro falling level hyst s0 s1 x first arm i free hh hit
    have q : crossQ free level s0 s1 ≤ 256 := crossQ_le (triggers_spans hh hit)
    omega
  case holdOff => exact fun s n a l ha hf hl ends => congrArg (done s) (triggerHoldoffEnd_over ha hf hl ends)
  case holds =>
    intro s n h
    exact congrArg (done s) (triggerHoldoffEnd_waits fun a l ha hf => (h a l ha hf).imp_right (not_holdOver_iff s n a l).mpr)

end Sys2Proof.Machine
end

section
/-! SUPPORT. When playback starts, when a pass of an image is over, and what becomes of playback then (R180 to R185, R372, R381). -/

namespace Sys2Proof.Machine

/-! ### AWG_START (R180, R185) -/

/-- A port that begins playback at an instant: the image of APT_AWG_HANDLE with its reference, or the sine. -/
def playbackBegun (s : State) (n : RidgeId) (t : T64) : State :=
  let k : Handle := BitVec.ofNat 20 (word s (aptW n 1))
  let sine := field s (aptW n 0) 1 0 == 2
  modPort s n fun p =>
    { p with awg := some ⟨sine, k, k, 0, t, p.awgRidge, if sine then [] else [k], t⟩, awgAt := none,
             phase := BitVec.ofNat 32 (word s (aptW n 5)), phaseAt := t }

theorem awgStart_due {s : State} {n : RidgeId} {t : T64} (ha : s.ports[n].awgAt = some t) (hr : reached s.now t = true)
    (hl : Live s) : awgStartEffect n s = awgRun (renewRefs (playbackBegun s n t) n) n := by
  obtain ⟨safe, shutdown⟩ := hl
  unfold awgStartEffect
  split
  next none => cases none.symm.trans ha
  next x hx =>
    obtain rfl : x = t := Option.some.inj (hx.symm.trans ha)
    refine (if_neg (by rw [hr, safe, shutdown]; decide)).trans ?_
    exact congrArg (fun u => awgRun (renewRefs u n) n) (modPort_congr rfl)

theorem awgStart_waits {s : State} {n : RidgeId}
    (h : ∀ t, s.ports[n].awgAt = some t → reached s.now t = false ∨ ¬Live s) : awgStartEffect n s = s := by
  unfold awgStartEffect
  split
  · rfl
  next t ht =>
    have waits := h t ht
    rw [not_live_iff] at waits
    refine if_pos ?_
    simp only [Bool.or_eq_true, Bool.not_eq_true']
    tauto

/-! ### AWG_SEGMENT_END (R180, R183) -/

theorem awgRun_store (s : State) (n : RidgeId) : (awgRun s n).store = s.store := by
  unfold awgRun
  split
  · rfl
  · dsimp only
    split <;> rfl

/-- What follows the last sample of a pass: the image again, the end, or the successor. -/
def awgPassOver (s : State) (n : RidgeId) (read : Secded) (a : Awg) : State :=
  let next := a.segAt + samplesFu 8192
  match getImg s a.cur with
  | none => stopAwg s n
  | some i =>
    if a.played + 1 < i.span then
      awgRun (modPort s n fun p => { p with awg := p.awg.map fun a => { a with played := a.played + 1, segAt := next } }) n
    else if i.next = noHandle then stopAwg s n
    else awgRun (awgMove (awgRead s i.next read) n i.next next) n

theorem awgSegmentEnd_over {s : State} {n : RidgeId} {a : Awg} (read : Secded) (ha : s.ports[n].awg = some a)
    (hs : a.sine = false) (hl : Live s) (hr : reached s.now (a.segAt + samplesFu 8192) = true) :
    awgSegmentEndEffect n read s = awgPassOver (awgRun s n) n read a := by
  obtain ⟨safe, shutdown⟩ := hl
  unfold awgSegmentEndEffect
  split
  next none => cases none.symm.trans ha
  next b hb =>
    obtain rfl : b = a := Option.some.inj (hb.symm.trans ha)
    exact if_neg (by rw [hs, hr, safe, shutdown]; decide)

theorem awgSegmentEnd_plays {s : State} {n : RidgeId} (read : Secded) (h : ∀ a, s.ports[n].awg = some a →
    a.sine = true ∨ reached s.now (a.segAt + samplesFu 8192) = false ∨ ¬Live s) : awgSegmentEndEffect n read s = s := by
  unfold awgSegmentEndEffect
  split
  · rfl
  next a ha =>
    have plays := h a ha
    rw [not_live_iff] at plays
    refine if_pos ?_
    simp only [Bool.or_eq_true, Bool.not_eq_true']
    tauto

/-! ### The successor (R80, R183, R372, R381) -/

theorem awgMove_goes {s : State} {n : RidgeId} {a : Awg} {h : Handle} {j : Image} (t : T64) (ha : s.ports[n].awg = some a)
    (hj : getImg s h = some j) (analog : j.analog = true) (held : takesRef s h = true ∨ h ∈ a.refs) :
    awgMove s n h t =
      sweep (renewRefs (modPort s n fun p => { p with awg := some { a with cur := h, played := 0, segAt := t } }) n) := by
  have plays : (takesRef s h || decide (h ∈ a.refs)) = true := by
    rwa [Bool.or_eq_true, decide_eq_true_eq]
  simp only [awgMove, ha, hj, analog, plays, Bool.and_self, if_true]

theorem awgMove_breaks {s : State} {n : RidgeId} {a : Awg} {h : Handle} (t : T64) (ha : s.ports[n].awg = some a)
    (broken : ∀ j, getImg s h = some j → j.analog = false ∨ (takesRef s h = false ∧ h ∉ a.refs)) :
    awgMove s n h t = raise (setBits (stopAwg s n) (aptW n 14) 16) (0xC0 + n.val) n.val := by
  unfold awgMove
  split
  next none => cases none.symm.trans ha
  next b hb =>
    obtain rfl : b = a := Option.some.inj (hb.symm.trans ha)
    refine if_neg ?_
    split
    next j hj =>
      rw [Bool.and_eq_true, Bool.or_eq_true, decide_eq_true_eq]
      rcases broken j hj with vector | ⟨gone, apart⟩
      · simp [vector]
      · simp [gone, apart]
    · decide

theorem awgRead_outcomes {s : State} {h : Handle} {j : Image} (hj : getImg s h = some j) :
    awgRead s h .clean = s ∧ awgRead s h .corrected = corrected s 20 0 false ∧
      awgRead s h .failed = frameFault s j.frame id := by
  simp only [awgRead, hj, and_self]

end Sys2Proof.Machine
end

section
/-! AWG playback (R177, R180 to R185, R187, R381). -/

namespace Sys2Proof.Machine

/-- Settles O26: each row by whether its instant has come, and a pass that is over by the image played and its successor. -/
theorem awgPlayback : Obligations.AwgPlayback := by
  refine ⟨?start, ?waits, ?segmentEnd, ?move, fun s h j hj => awgRead_outcomes hj, ?plays⟩
  case start => exact fun s n t ha hr hl => congrArg (done s) (awgStart_due ha hr hl)
  case waits => exact fun s n h => congrArg (done s) (awgStart_waits h)
  case segmentEnd =>
    intro s n read a ha hs hl hr u next
    have run {t : State} (e : awgPassOver u n read a = t) : exec (.awgSegmentEnd ⟨n, read⟩) s = .next (after s t) :=
      congrArg (done s) ((awgSegmentEnd_over read ha hs hl hr).trans e)
    have image : getImg u a.cur = getImg s a.cur := getImg_of_store (awgRun_store s n) _
    refine ⟨fun i hi again => run ?_, fun hi => run ?_, fun i hi over_ hn => run ?_, fun i hi over_ hn => run ?_⟩
    all_goals
      rw [← image] at hi
      unfold awgPassOver
      rw [hi]
    · exact if_pos again
    · exact (if_neg over_.not_gt).trans (if_pos hn)
    · exact (if_neg over_.not_gt).trans (if_neg hn)
  case move =>
    intro s n a h t ha
    exact ⟨fun j hj analog held => awgMove_goes t ha hj analog held, fun broken => awgMove_breaks t ha broken⟩
  case plays => exact fun s n read h => congrArg (done s) (awgSegmentEnd_plays read h)

end Sys2Proof.Machine
end

section
/-! SUPPORT. The injections that wait when a ticket is issued and frames are allocated, and what taking a packet leaves (R224, R240,
R282, R390). -/

namespace Sys2Proof.Machine

/-! ### Taking a packet -/

theorem ensureTaken_lastTicket (s : State) (h : Hdr) (op : Nat) : (ensureTaken s h op).lastTicket = s.lastTicket := by
  unfold ensureTaken
  split
  · rfl
  · split <;> rfl

theorem nextTicket_ensureTaken (s : State) (h : Hdr) (op : Nat) : nextTicket (ensureTaken s h op) = nextTicket s := by
  simp only [nextTicket, ensureTaken_tickets, ensureTaken_lastTicket]

theorem startTime_ensureTaken (s : State) (h : Hdr) (op : Nat) (t : T64) :
    startTime (ensureTaken s h op) h t = startTime s h t := by
  simp [startTime, tooLate, horizon, ringBound]

/-! ### Replies, frames and acquisitions leave the injections -/

theorem silent_answer (s : State) (h : Hdr) (op st info : Nat) (t : T64) : silent (answer s h op st info t) = silent s := by
  unfold answer
  dsimp only
  split
  · exact silent_sendRing ..
  · exact silent_memberReply ..

theorem injects_replyAccepted (s : State) (h : Hdr) (op info : Nat) (t : T64) : injects (replyAccepted s h op info t) = injects s :=
  injects_of_silent (silent_answer ..)

theorem injects_allocFrames (n : Nat) (s : State) : injects (allocFrames n s).2 = injects s := by
  induction n generalizing s with
  | zero => rfl
  | succ n ih =>
    unfold allocFrames
    split
    · rfl
    next f t found => exact (ih t).trans (injects_allocFrame found)

theorem injects_armAcq (s : State) (h : Hdr) (n : RidgeId) (a : AcqArgs) (t : T64) : injects (armAcq s h n a t) = injects s :=
  injects_allocFrames a.frames (issue s h a.queue true (.acquire n))

theorem injects_armAwg (s : State) (n : RidgeId) (t : T64) (withRidge : Bool) : injects (armAwg s n t withRidge) = injects s := by
  unfold armAwg
  split <;> rfl

/-! ### Packets that may issue a ticket -/

theorem ticketWrite_clear {t : State} (h : injectOn t 25 = none) (s : State) : ticketWrite s t = t := by
  unfold ticketWrite
  split
  · rfl
  · simp only [strike, accessInject, h]

/-- An admitted packet that may issue a ticket and take frames ends in what its body makes of the state in which it is taken. -/
theorem done_booking_of_body {s v : State} {h : Hdr} {w : Row} {need : List Need} {body : State → State}
    (op : Nat) (ha : Admitted s h w need) (ho : w.op = op) (h25 : injectOn s 25 = none) (h29 : injectOn s 29 = none)
    (hv : injects v = injects (ensureTaken s h op)) (hb : body (ensureTaken s h op) = v) :
    done s (martenWrite s (ticketWrite s (command s h w need body))) = .next (after s v) := by
  have kept : injects v = injects s := hv.trans (injects_ensureTaken ..)
  have clear25 : injectOn v 25 = none := (injectOn_of_injects kept (by decide)).trans h25
  have clear29 : injectOn v 29 = none := (injectOn_of_injects kept (by decide)).trans h29
  rw [command_admitted ha, ho, hb, ticketWrite_clear clear25, martenWrite_clear clear29, done_eq]

end Sys2Proof.Machine
end

section
/-! ACQ_ARM (R189, R190, R224, R282). -/

namespace Sys2Proof.Machine

/-- Settles O27: the packet by whether a check of Table 7-2 refuses it. -/
theorem acquisitionArmed : Obligations.AcquisitionArmed := by
  intro s h dig awg stream k pre post frames queue buf nb a n u ha h25 h29
  constructor
  · intro st info hr
    refine done_booking_of_body 0x2B ha rfl h25 h29 (injects_refuse ..) ?_
    dsimp only
    rw [hr]
  · intro hr t v w
    have armed : injects v = injects u := by
      unfold v
      split
      · exact injects_armAcq ..
      · rfl
    have playing : injects w = injects v := by
      unfold w
      split
      · exact injects_armAwg ..
      · rfl
    refine done_booking_of_body 0x2B ha rfl h25 h29 ((injects_replyAccepted ..).trans (playing.trans armed)) ?_
    dsimp only
    rw [hr]
    dsimp only
    rw [startTime_ensureTaken, nextTicket_ensureTaken, ensureTaken_now]

end Sys2Proof.Machine
end

section
/-! SUPPORT. Block packets, the regions that their blocks leave, and the frames that a failed read retires leave the injections that
wait; the reads of regions (R200, R245, R372, R381, R390). -/

namespace Sys2Proof.Machine

/-! ### Packets and regions -/

theorem injects_packetCommitted (s : State) (w : WaitPkt) : injects (packetCommitted s w) = injects s := by
  unfold packetCommitted
  split
  · rfl
  · split
    · rfl
    · split
      · exact injects_dropTicket ..
      · dsimp only
        split
        · exact injects_dropTicket ..
        · rfl

theorem injects_submitPkt (s : State) (id : Nat) (w : WaitPkt) : injects (submitPkt s id w) = injects s := by
  unfold submitPkt
  split
  · exact (injects_packetCommitted ..).trans (injects_commitPkt ..)
  · rfl

theorem injects_leaveRegion (s : State) (w : WaitPkt) : injects (leaveRegion s w) = injects s := by
  unfold leaveRegion
  split
  · rfl
  · split <;> rfl
  · rfl

theorem injects_admitPkt (s : State) (id : Nat) (w : WaitPkt) : injects (admitPkt s id w) = injects s :=
  (injects_each injects_placeOne).trans
    ((injects_packetCommitted ..).trans ((injects_commitPkt ..).trans (injects_leaveRegion ..)))

theorem injects_submitBlock (s : State) (id : Nat) (w : WaitPkt) : injects (submitBlock s id w) = injects s := by
  unfold submitBlock
  split
  · exact injects_admitPkt ..
  · exact injects_submitPkt ..

theorem injects_dmaWrite (s : State) (addr : Nat) (data : List Byte) : injects (dmaWrite s addr data) = injects s := by
  unfold dmaWrite
  split
  · exact injects_of_silent (silent_sendRing ..)
  · rfl

/-! ### Frames that are retired (R381) -/

theorem injects_modR (s : State) (r : RidgeId) (f : Ridge → Ridge) : injects (modR s r f) = injects s := rfl

theorem injects_modPort (s : State) (n : RidgeId) (f : Port → Port) : injects (modPort s n f) = injects s := rfl

theorem injects_putImg (s : State) (h : Handle) (i : Option Image) : injects (putImg s h i) = injects s := rfl

theorem injects_retireFrame (s : State) (frame : Nat) : injects (retireFrame s frame) = injects s := by
  unfold retireFrame
  extract_lets lost t
  have removed : injects t = injects s := injects_each fun u k => by
    dsimp only
    rw [injects_raise, injects_dropCopies, injects_putImg]
    exact (injects_each fun _ _ => injects_modPort ..).trans (injects_each fun _ _ => injects_modR ..)
  exact removed

theorem injects_regionFault (s : State) (frame : Nat) (num : BitVec 17) : injects (regionFault s frame num) = injects s :=
  injects_contained _ ((injects_retireFrame ..).trans (injects_endTickets ..))

/-! ### Rows of the HBM controller (R372, R390) -/

/-- A row that leaves the state as it was meets no injection on the PHY. -/
theorem phyCommand_self (s : State) : phyCommand s s = s := by
  unfold phyCommand
  split
  · rfl
  · exact if_pos rfl

/-- A read of a region, and what it makes of each outcome of its SECDED check, with no injection on the PHY. -/
theorem done_regionRead {s : State} {frame : Nat} {num : BitVec 17} {go : State → State} (h22 : injectOn s 22 = none)
    (hg : ∀ u, injects (go u) = injects u) :
    done s (phyCommand s (regionRead s .clean frame num go)) = .next (after s (go s)) ∧
    done s (phyCommand s (regionRead s .corrected frame num go)) = .next (after s (go (corrected s 20 0 false))) ∧
    done s (phyCommand s (regionRead s .failed frame num go)) = .next (after s (regionFault s frame num)) :=
  ⟨done_phyCommand h22 (hg s), done_phyCommand h22 ((hg _).trans (injects_corrected ..)),
    done_phyCommand h22 (injects_regionFault ..)⟩

end Sys2Proof.Machine
end

section
/-! ANALOG_BLOCK_COPY (R200, R201, R245, R372, R381). -/

namespace Sys2Proof.Machine

/-- The copy of an analog block whose samples have been read: the block in the host buffer, counted, and its packet. -/
def analogBlockCopied (n : RidgeId) (a : Acq) (b : AcqBlock) (s : State) : State :=
  let mark := fun (x : Acq) => if x.ticket = a.ticket then { x with copied := x.copied + 1 } else x
  let v := dmaWrite s (a.buf.toNat + b.number % a.nb * 16384) (b.samples.flatMap fun x => leBytes 2 x.toNat)
  let w := modPort v n fun p => { p with delivered := p.delivered + (if a.rdAt.isNone then 1 else 0),
                                         acq := p.acq.map mark, tails := p.tails.map mark }
  submitBlock w a.queue.toNat ⟨4, blockPacket w a b, some a.ticket, b.last, none⟩

theorem injects_analogBlockCopied (n : RidgeId) (a : Acq) (b : AcqBlock) (s : State) :
    injects (analogBlockCopied n a b s) = injects s :=
  (injects_submitBlock ..).trans (injects_dmaWrite ..)

theorem analogBlockCopy_reads {s : State} {n : RidgeId} {a : Acq} {b : AcqBlock} {bs : List AcqBlock} (read : Secded)
    (ha : nextAcq s.ports[n] = some a) (hb : a.blocks.drop a.copied = b :: bs) (route : dmaRoute s = true)
    (room : hostRoom b.number (a.rdAt.getD (word s (aptW n 16))) a.nb = true) :
    analogBlockCopyEffect n read s =
      regionRead s read (a.frames.getD (b.number % max 1 a.frames.length) 0) a.ticket (analogBlockCopied n a b) := by
  simp only [analogBlockCopyEffect, ha, hb, route, room, Bool.not_true, Bool.or_self, Bool.false_eq_true, if_false]
  rfl

theorem analogBlockCopy_waits {s : State} {n : RidgeId} (read : Secded) (h : ∀ a b bs, nextAcq s.ports[n] = some a →
    a.blocks.drop a.copied = b :: bs →
      dmaRoute s = false ∨ hostRoom b.number (a.rdAt.getD (word s (aptW n 16))) a.nb = false) :
    analogBlockCopyEffect n read s = s := by
  unfold analogBlockCopyEffect
  split
  · rfl
  next a ha =>
    split
    · rfl
    next b bs hb =>
      refine if_pos ?_
      rw [Bool.or_eq_true, Bool.not_eq_true', Bool.not_eq_true']
      exact h a b bs ha hb

/-- Settles O30: the copy by the outcome of its read, and the packet by the storage of its queue. -/
theorem analogBlockCopy : Obligations.AnalogBlockCopy := by
  refine ⟨?copies, ?waits, fun s id w hw hq => if_pos ⟨hw, hq⟩, fun s id w h => if_neg fun both => ?_⟩
  case copies =>
    intro s n a b bs h22 ha hb route room go
    have run (read : Secded) : exec (.analogBlockCopy n read) s = done s (phyCommand s (regionRead s read _ a.ticket go)) :=
      congrArg (fun t => done s (phyCommand s t)) (analogBlockCopy_reads read ha hb route room)
    rw [run, run, run]
    exact done_regionRead h22 (injects_analogBlockCopied n a b)
  case waits =>
    intro s n read h
    have e : phyCommand s (analogBlockCopyEffect n read s) = s := by rw [analogBlockCopy_waits read h, phyCommand_self]
    exact congrArg (done s) e
  · obtain ⟨empty, fits⟩ := both
    rcases h with waits | full
    · exact waits empty
    · cases full.symm.trans fits

end Sys2Proof.Machine
end

section
/-! SUPPORT. The end of a capture window, ANCHOR pairs, blocks that time out and blocks that are copied (R200, R206 to R212). -/

namespace Sys2Proof.Machine

/-! ### Packets leave the ridges -/

theorem ridges_qstoreInject (n : Nat) (s : State) : (qstoreInject n s).1.ridges = s.ridges := by
  induction n generalizing s with
  | zero => rfl
  | succ n ih =>
    refine (ih _).trans ?_
    split <;> rfl

theorem ridges_commitPkt (s : State) (id : Nat) (typ : BitVec 3) (payload : List (BitVec 96)) :
    (commitPkt s id typ payload).ridges = s.ridges :=
  ridges_qstoreInject payload.length s

theorem ridges_dropTicket (s : State) (num : BitVec 17) : (dropTicket s num).ridges = s.ridges := by
  unfold dropTicket
  split <;> rfl

theorem ridges_packetCommitted (s : State) (w : WaitPkt) : (packetCommitted s w).ridges = s.ridges := by
  unfold packetCommitted
  split
  · rfl
  · split
    · rfl
    · split
      · exact ridges_dropTicket ..
      · dsimp only
        split
        · exact ridges_dropTicket ..
        · rfl

theorem ridges_submitPkt (s : State) (id : Nat) (w : WaitPkt) : (submitPkt s id w).ridges = s.ridges := by
  unfold submitPkt
  split
  · exact (ridges_packetCommitted ..).trans (ridges_commitPkt ..)
  · rfl

/-! ### CAPTURE_WINDOW_END (R207, R208, R210, R212) -/

/-- Every compare window of the ridges of the gang whose run has ended has closed. -/
def windowsClosed (s : State) (r : RidgeId) : Bool :=
  (gang s r).all fun q => s.ridges[q].ended.isNone || s.ridges[q].open_.all fun e => e.over (s.now - 1023)

theorem windowsClosed_iff (s : State) (r : RidgeId) :
    windowsClosed s r = true ↔
      ∀ q ∈ gang s r, s.ridges[q].ended = none ∨ ∀ e ∈ s.ridges[q].open_, e.over (s.now - 1023) = true := by
  simp only [windowsClosed, List.all_eq_true, Bool.or_eq_true, Option.isNone_iff_eq_none]

theorem windowsClosed_false {s : State} {r : RidgeId}
    (h : ∃ q ∈ gang s r, s.ridges[q].ended ≠ none ∧ ∃ e ∈ s.ridges[q].open_, e.over (s.now - 1023) = false) :
    windowsClosed s r = false := by
  obtain ⟨q, hq, ended, e, he, stillOpen⟩ := h
  refine Bool.eq_false_iff.mpr fun closed => ?_
  rcases (windowsClosed_iff s r).mp closed q hq with none | over_
  · exact ended none
  · cases stillOpen.symm.trans (over_ e he)

theorem captureWindowEnd_over {s : State} {r : RidgeId} {t : T64} (ht : s.ridges[r].ended = some t)
    (hr : reached s.now (t + ticksFu 32) = true) (hl : Live s) (closed : windowsClosed s r = true) :
    captureWindowEndEffect r s = endWindow s r := by
  obtain ⟨safe, shutdown⟩ := hl
  unfold captureWindowEndEffect
  split
  next none => cases none.symm.trans ht
  next u hu =>
    obtain rfl : u = t := Option.some.inj (hu.symm.trans ht)
    exact if_pos (by rw [hr, safe, shutdown, Bool.true_and, Bool.not_false, Bool.and_true, Bool.and_true]; exact closed)

theorem captureWindowEnd_waits {s : State} {r : RidgeId} (h : ∀ t, s.ridges[r].ended = some t →
    reached s.now (t + ticksFu 32) = false ∨ ¬Live s ∨ windowsClosed s r = false) : captureWindowEndEffect r s = s := by
  unfold captureWindowEndEffect
  split
  · rfl
  next t ht =>
    have waits := h t ht
    rw [not_live_iff] at waits
    extract_lets closed
    have same : closed = windowsClosed s r := rfl
    refine if_neg ?_
    rw [same, Bool.and_eq_true, Bool.and_eq_true, Bool.and_eq_true, Bool.not_eq_true', Bool.not_eq_true']
    rcases waits with h | (h | h) | h <;> simp [h]

/-- The window of the ridge is over, and no armed stream stays. -/
theorem endWindow_ridge {s : State} {r : RidgeId} {t : T64} (ht : s.ridges[r].ended = some t) :
    (endWindow s r).ridges[r].ended = none ∧ ∀ x, (endWindow s r).ridges[r].stream = some x → x.active = false := by
  unfold endWindow
  split
  next none => cases none.symm.trans ht
  next =>
    extract_lets u v y w
    split
    · rw [modR_ridge, if_pos rfl]
      exact ⟨rfl, fun x hx => nomatch hx⟩
    next inactive =>
      have kept : w.ridges = v.ridges := by
        unfold w
        split
        · rfl
        · exact ridges_submitPkt ..
      rw [modR_ridge, if_pos rfl, kept]
      refine ⟨rfl, fun x hx => Bool.eq_false_iff.mpr fun active => ?_⟩
      dsimp only at hx
      rw [hx, Option.filter_some, if_pos active] at inactive
      cases inactive

/-! ### ANCHOR (R206, R208) -/

theorem dueAnchor_due {s : State} {r : RidgeId} {x : Stream} {before : T64} (hx : s.ridges[r].stream = some x)
    (active : x.active = true)
    (inside : ∀ e, s.ridges[r].ended = some e → later (e + ticksFu 32) (x.anchorAt + ticksFu (2 ^ 32)) = true)
    (known : s.ridges[r].st = .running → later (x.anchorAt + ticksFu (2 ^ 32)) s.ridges[r].start = false)
    (hr : reached before (x.anchorAt + ticksFu (2 ^ 32)) = true) :
    let t := x.anchorAt + ticksFu (2 ^ 32)
    dueAnchor s r before =
      modStream (writeSpecial s r t (basePair 6 t s.ridges[r].entries) false) r fun x => { x with anchorAt := t } := by
  unfold dueAnchor
  split
  next y hy =>
    obtain rfl : y = x := Option.some.inj (hy.symm.trans hx)
    extract_lets t records
    have recording : records = true := by
      unfold records
      split
      · rfl
      next e he => exact inside e he
    have executed : anchorKnown s.ridges[r] t = true := by
      rw [anchorKnown, Bool.or_eq_true, decide_eq_true_eq, Bool.not_eq_true', or_iff_not_imp_left, not_not]
      exact known
    exact if_pos (by rw [active, recording, hr, executed]; rfl)
  next none => cases none.symm.trans hx

theorem dueAnchor_waits {s : State} {r : RidgeId} {before : T64} (h : ∀ x, s.ridges[r].stream = some x → x.active = false ∨
      reached before (x.anchorAt + ticksFu (2 ^ 32)) = false ∨
      (∃ e, s.ridges[r].ended = some e ∧ later (e + ticksFu 32) (x.anchorAt + ticksFu (2 ^ 32)) = false) ∨
      (s.ridges[r].st = .running ∧ later (x.anchorAt + ticksFu (2 ^ 32)) s.ridges[r].start = true)) :
    dueAnchor s r before = s := by
  unfold dueAnchor
  split
  next x hx =>
    extract_lets t records
    refine if_neg fun due => ?_
    simp only [Bool.and_eq_true] at due
    obtain ⟨⟨⟨active, recording⟩, come⟩, executed⟩ := due
    rcases h x hx with inactive | early | ⟨e, he, ended⟩ | ⟨running, ahead⟩
    · cases inactive.symm.trans active
    · cases early.symm.trans come
    · unfold records at recording
      rw [he] at recording
      cases ended.symm.trans recording
    · have unknown : anchorKnown s.ridges[r] t = false := by
        rw [anchorKnown, running, ahead]
        rfl
      cases unknown.symm.trans executed
  · rfl

/-! ### CAPTURE_BLOCK_TIMEOUT (R210) -/

theorem captureBlockTimeout_closes {s : State} {r : RidgeId} {x : Stream}
    (hx : (settleStream (judge s r) r).ridges[r].stream = some x) (open_ : x.cur ≠ [])
    (old : 150000 ≤ (settleStream (judge s r) r).ticks - x.openedAt) :
    captureBlockTimeoutEffect r s = modStream (settleStream (judge s r) r) r fun x => x.close false := by
  unfold captureBlockTimeoutEffect
  extract_lets u
  split
  next y hy =>
    obtain rfl : y = x := Option.some.inj (hy.symm.trans hx)
    exact if_pos (by rw [bne_iff_ne.mpr open_, decide_eq_true old]; rfl)
  next none => cases none.symm.trans hx

theorem captureBlockTimeout_waits {s : State} {r : RidgeId}
    (h : ∀ x, (settleStream (judge s r) r).ridges[r].stream = some x →
      x.cur = [] ∨ (settleStream (judge s r) r).ticks - x.openedAt < 150000) :
    captureBlockTimeoutEffect r s = settleStream (judge s r) r := by
  unfold captureBlockTimeoutEffect
  extract_lets u
  split
  next x hx =>
    refine if_neg fun due => ?_
    rw [Bool.and_eq_true, bne_iff_ne, decide_eq_true_eq] at due
    exact (h x hx).elim due.1 due.2.not_gt
  · rfl

/-! ### CAPTURE_BLOCK_COPY (R200, R210, R211) -/

/-- The copy of a capture block whose records have been read: the block in the host buffer, counted, and its packet. -/
def captureBlockCopied (r : RidgeId) (x : Stream) (b : CapBlock) (s : State) : State :=
  let mark := fun (y : Stream) => if y.ticket = x.ticket then { y with copied := y.copied + 1 } else y
  let v := dmaWrite s (x.buf.toNat + b.number % max 1 x.nb * 16384) (b.records.flatMap fun w => leBytes 8 w.toNat)
  let w := modR v r fun y => { y with delivered := y.delivered + (if x.rdAt.isNone then 1 else 0),
                                      stream := y.stream.map mark, tails := y.tails.map mark }
  submitBlock w x.queue.toNat ⟨3, capturePacket w r b x.ticket.toNat, some x.ticket, b.last, some r⟩

theorem injects_captureBlockCopied (r : RidgeId) (x : Stream) (b : CapBlock) (s : State) :
    injects (captureBlockCopied r x b s) = injects s :=
  (injects_submitBlock ..).trans (injects_dmaWrite ..)

/-- An EMPTY block is not read from HBM. -/
theorem captureBlockCopy_reads {s : State} {r : RidgeId} {x : Stream} {b : CapBlock} {bs : List CapBlock} (read : Secded)
    (hx : nextStream s.ridges[r] = some x) (hb : x.closed.drop x.copied = b :: bs) (route : dmaRoute s = true)
    (room : b.records = [] ∨ hostRoom b.number (x.rdAt.getD (word s (rdgW r 0x20))) x.nb = true) :
    captureBlockCopyEffect r read s =
      regionRead s (if b.records == [] then .clean else read) (x.frames.getD (b.number % max 1 x.frames.length) 0) x.ticket
        (captureBlockCopied r x b) := by
  have fits : (!(b.records == []) && !hostRoom b.number (x.rdAt.getD (word s (rdgW r 0x20))) x.nb) = false := by
    rcases room with empty | room
    · rw [beq_iff_eq.mpr empty]; rfl
    · rw [room]; exact Bool.and_false _
  simp only [captureBlockCopyEffect, hx, hb, route, fits, Bool.not_true, Bool.or_self, Bool.false_eq_true, if_false]
  rfl

theorem captureBlockCopy_waits {s : State} {r : RidgeId} (read : Secded) (h : ∀ x b bs, nextStream s.ridges[r] = some x →
    x.closed.drop x.copied = b :: bs →
      dmaRoute s = false ∨ (b.records ≠ [] ∧ hostRoom b.number (x.rdAt.getD (word s (rdgW r 0x20))) x.nb = false)) :
    captureBlockCopyEffect r read s = s := by
  unfold captureBlockCopyEffect
  split
  · rfl
  next x hx =>
    split
    · rfl
    next b bs hb =>
      refine if_pos ?_
      rw [Bool.or_eq_true, Bool.and_eq_true, Bool.not_eq_true', Bool.not_eq_true', Bool.not_eq_true', beq_eq_false_iff_ne]
      exact h x b bs hx hb

end Sys2Proof.Machine
end

section
/-! The rows of change capture (R200, R206 to R211, R245, R372, R381). -/

namespace Sys2Proof.Machine

/-- Settles O36: each row by whether its instant has come, and a copy by the outcome of its read. -/
theorem captureRows : Obligations.CaptureRows := by
  refine ⟨?windowEnd, fun s r t => endWindow_ridge, ?windowOpen, ?anchor, ?noAnchor, ?timeout, ?copy, ?noCopy⟩
  case windowEnd =>
    exact fun s r t ht hr hl closed => congrArg (done s) (captureWindowEnd_over ht hr hl ((windowsClosed_iff s r).mpr closed))
  case windowOpen =>
    exact fun s r h => congrArg (done s)
      (captureWindowEnd_waits fun t ht => (h t ht).imp_right fun w => w.imp_right windowsClosed_false)
  case anchor =>
    intro s r x hx active t inside known hr
    exact congrArg (done s) (dueAnchor_due hx active inside known hr)
  case noAnchor => exact fun s r h => congrArg (done s) (dueAnchor_waits h)
  case timeout =>
    intro s r u
    exact ⟨fun x hx open_ old => congrArg (done s) (captureBlockTimeout_closes hx open_ old),
      fun h => congrArg (done s) (captureBlockTimeout_waits h)⟩
  case copy =>
    intro s r x b bs h22 hx hb route room go
    obtain ⟨clean, repaired, failed⟩ := done_regionRead (frame := x.frames.getD (b.number % max 1 x.frames.length) 0)
      (num := x.ticket) h22 (injects_captureBlockCopied r x b)
    have run (read c : Secded) (hc : (if b.records == [] then .clean else read) = c) : exec (.captureBlockCopy r read) s =
        done s (phyCommand s (regionRead s c (x.frames.getD (b.number % max 1 x.frames.length) 0) x.ticket go)) :=
      hc ▸ congrArg (fun t => done s (phyCommand s t)) (captureBlockCopy_reads read hx hb route room)
    have unread (read : Secded) (full : b.records ≠ []) : (if b.records == [] then .clean else read) = read :=
      if_neg (by rw [beq_iff_eq]; exact full)
    refine ⟨fun read h => (run read .clean ?_).trans clean, fun full => (run _ _ (unread _ full)).trans repaired,
      fun full => (run _ _ (unread _ full)).trans failed⟩
    rcases h with rfl | empty
    · exact ite_self _
    · exact if_pos (beq_iff_eq.mpr empty)
  case noCopy =>
    intro s r read h
    have e : phyCommand s (captureBlockCopyEffect r read s) = s := by rw [captureBlockCopy_waits read h, phyCommand_self]
    exact congrArg (done s) e

end Sys2Proof.Machine
end

section
/-! SUPPORT. The first of a run of candidates that passes, and the numbers that tickets in flight have taken (R224). -/

namespace Sys2Proof.Machine

/-! ### The first candidate that passes -/

theorem firstFrom_some {ok : Nat → Bool} {n i k : Nat} (h : firstFrom ok n i = some k) :
    i ≤ k ∧ k < i + n ∧ ok k = true ∧ ∀ m, i ≤ m → m < k → ok m = false := by
  induction n generalizing i with
  | zero => cases h
  | succ n ih =>
    rw [firstFrom] at h
    split at h
    next passes =>
      obtain rfl := Option.some.inj h
      exact ⟨le_rfl, by omega, passes, fun m _ _ => by omega⟩
    next fails =>
      obtain ⟨low, high, passes, before⟩ := ih h
      refine ⟨by omega, by omega, passes, fun m hi hk => ?_⟩
      rcases hi.eq_or_lt with rfl | above
      · exact Bool.eq_false_iff.mpr fails
      · exact before m above hk

theorem firstFrom_none {ok : Nat → Bool} {n i : Nat} (h : firstFrom ok n i = none) :
    ∀ m, i ≤ m → m < i + n → ok m = false := by
  induction n generalizing i with
  | zero => exact fun m _ _ => by omega
  | succ n ih =>
    rw [firstFrom] at h
    split at h
    next => cases h
    next fails =>
      intro m hi hm
      rcases hi.eq_or_lt with rfl | above
      · exact Bool.eq_false_iff.mpr fails
      · exact ih h m above (by omega)

/-! ### Numbers in flight -/

/-- A ticket in flight has the number, counted on past 131,071. -/
def numberTaken (s : State) (n : Nat) : Bool := s.tickets.any fun t => decide (t.num.toNat = n % 131072)

theorem numberTaken_iff {s : State} {n : Nat} : numberTaken s n = true ↔ ∃ t ∈ s.tickets, t.num = BitVec.ofNat 17 n := by
  simp only [numberTaken, List.any_eq_true, decide_eq_true_eq, ← BitVec.toNat_inj, BitVec.toNat_ofNat, Nat.reducePow]

theorem nextTicket_eq (s : State) : nextTicket s = BitVec.ofNat 17
    ((firstFrom (fun n => !numberTaken s n) (s.tickets.length + 1) (s.lastTicket.toNat + 1)).getD 0) := rfl

/-- No more consecutive numbers are taken than there are tickets in flight. -/
theorem exists_number_free {s : State} (h : s.tickets.length < 131072) (i : Nat) :
    ∃ m, i ≤ m ∧ m < i + (s.tickets.length + 1) ∧ numberTaken s m = false := by
  by_contra all
  push Not at all
  have distinct : ((List.range' i (s.tickets.length + 1)).map (BitVec.ofNat 17)).Nodup := by
    refine List.Nodup.map_on (fun x hx y hy e => ?_) List.nodup_range'
    rw [List.mem_range'_1] at hx hy
    have e : x % 2 ^ 17 = y % 2 ^ 17 := by simpa only [BitVec.toNat_ofNat] using congrArg BitVec.toNat e
    omega
  have taken : (List.range' i (s.tickets.length + 1)).map (BitVec.ofNat 17) ⊆ s.tickets.map (·.num) := by
    intro b hb
    obtain ⟨m, hm, rfl⟩ := List.mem_map.mp hb
    obtain ⟨low, high⟩ := List.mem_range'_1.mp hm
    exact List.mem_map.mpr (numberTaken_iff.mp (Bool.not_eq_false _ ▸ all m low high))
  have count := (distinct.subperm taken).length_le
  rw [List.length_map, List.length_map, List.length_range'] at count
  omega

/-- The next number, counted on past 131,071: it is free, and those between the one issued last and it are taken. -/
theorem nextTicket_spec {s : State} (h : s.tickets.length < 131072) :
    ∃ k, nextTicket s = BitVec.ofNat 17 k ∧ s.lastTicket.toNat < k ∧ k ≤ s.lastTicket.toNat + 131072 ∧
      numberTaken s k = false ∧ ∀ m, s.lastTicket.toNat < m → m < k → numberTaken s m = true := by
  rw [nextTicket_eq]
  cases e : firstFrom (fun n => !numberTaken s n) (s.tickets.length + 1) (s.lastTicket.toNat + 1) with
  | none =>
    obtain ⟨m, low, high, free⟩ := exists_number_free h (s.lastTicket.toNat + 1)
    cases (Bool.not_eq_false' _ ▸ firstFrom_none e m low high : numberTaken s m = true).symm.trans free
  | some k =>
    obtain ⟨low, high, free, before⟩ := firstFrom_some e
    exact ⟨k, rfl, low, by omega, Bool.not_eq_true' _ ▸ free, fun m hl hk => Bool.not_eq_false' _ ▸ before m hl hk⟩

end Sys2Proof.Machine
end

section
/-! The number of a new ticket (R224). -/

namespace Sys2Proof.Machine

/-- Settles O31: the next number is the first free one in a run of numbers longer than the list of tickets in flight. -/
theorem ticketNumbers : Obligations.TicketNumbers := by
  refine ⟨?free, ?between, ?first⟩
  case free =>
    intro s room t ht same
    obtain ⟨k, hk, -, -, free, -⟩ := nextTicket_spec room
    exact Bool.eq_false_iff.mp free (numberTaken_iff.mpr ⟨t, ht, same.trans hk⟩)
  case between =>
    intro s room j hj
    obtain ⟨k, hk, low, high, -, taken⟩ := nextTicket_spec room
    have below : s.lastTicket.toNat + 1 + j < k := by
      rw [hk] at hj
      bv_omega
    obtain ⟨t, ht, hn⟩ := numberTaken_iff.mp (taken _ (by omega) below)
    refine ⟨t, ht, hn.trans ?_⟩
    rw [BitVec.ofNat_add, BitVec.ofNat_add, BitVec.ofNat_toNat, BitVec.setWidth_eq]
  case first =>
    have empty : numberTaken State.reset 131072 = false := rfl
    have last : State.reset.lastTicket.toNat = 131071 := rfl
    rw [nextTicket_eq, last, firstFrom, empty]
    rfl

end Sys2Proof.Machine
end

section
/-! SUPPORT. Jobs of the analog converters and the TIMUs: what placing them leaves alone, and when they start and end (R220 to R223,
R228, R233, R390). -/

namespace Sys2Proof.Machine

/-! ### Issue and placement -/

theorem ticketsOut_ensureTaken (s : State) (h : Hdr) (op : Nat) : ticketsOut (ensureTaken s h op) = ticketsOut s := by
  rw [ticketsOut, ticketsOut, ensureTaken_tickets]

theorem injects_replaceJobs (s : State) : injects (replaceJobs s) = injects s := injects_each injects_placeOne

/-- An admitted booking that its body refuses. -/
theorem done_booking_refused {s : State} {h : Hdr} {w : Row} {need : List Need} {body : State → State} {st info : Nat}
    (op : Nat) (ha : Admitted s h w need) (ho : w.op = op) (h25 : injectOn s 25 = none) (h29 : injectOn s 29 = none)
    (hb : body (ensureTaken s h op) = refuse (ensureTaken s h op) h op st info) :
    done s (martenWrite s (ticketWrite s (command s h w need body))) =
      .next (after s (refuse (ensureTaken s h op) h op st info)) :=
  done_booking_of_body op ha ho h25 h29 (injects_refuse ..) hb

/-- An admitted booking that its body accepts with a state in which the same injections wait. -/
theorem done_booking_accepted {s v : State} {h : Hdr} {w : Row} {need : List Need} {body : State → State} {info : Nat} {t : T64}
    (op : Nat) (ha : Admitted s h w need) (ho : w.op = op) (h25 : injectOn s 25 = none) (h29 : injectOn s 29 = none)
    (hv : injects v = injects (ensureTaken s h op)) (hb : body (ensureTaken s h op) = replyAccepted v h op info t) :
    done s (martenWrite s (ticketWrite s (command s h w need body))) = .next (after s (replyAccepted v h op info t)) :=
  done_booking_of_body op ha ho h25 h29 ((injects_replyAccepted ..).trans hv) hb

/-- A body whose two first checks pass goes on. -/
theorem checks_pass {bad full : Bool} {x y z : State} (good : bad = false) (free : full = false) :
    (if bad then x else if full then y else z) = z := by
  rw [good, free]
  rfl

/-- A body whose first check passes is refused by the second. -/
theorem second_check_refuses {bad full : Bool} {x y z : State} (good : bad = false) (out : full = true) :
    (if bad then x else if full then y else z) = y := by
  rw [good, out]
  rfl

/-! ### A start that may meet an injection (R390) -/

/-- A start of a ticket's job on a source: with an injection on the source the ticket ends in its scope. -/
def startMeeting (s : State) (b : Fin 64) (num : BitVec 17) (go : State → State) : State :=
  match injectOn s b with
  | none => go s
  | some _ => ticketFault (useInject s b) b num true

theorem startMeeting_clear {s : State} {b : Fin 64} (h : injectOn s b = none) (num : BitVec 17) (go : State → State) :
    startMeeting s b num go = go s := by
  rw [startMeeting, h]

theorem startMeeting_struck {s : State} {b : Fin 64} {d : Bool} (h : injectOn s b = some d) (num : BitVec 17)
    (go : State → State) : startMeeting s b num go = ticketFault (useInject s b) b num true := by
  rw [startMeeting, h]

/-- What keeps a job from its start: no booking, a start before, an instant still to come, or a unit that is not live. -/
theorem startHeld_iff {s : State} {booked started come : Bool} :
    ((!booked) = true ∨ started = true ∨ (!come) = true ∨ bearSafe s = true ∨ s.owl.shutdown = true) ↔
      booked = false ∨ started = true ∨ come = false ∨ ¬Live s := by
  rw [not_live_iff, Bool.not_eq_true', Bool.not_eq_true']

theorem not_startHeld {s : State} {booked started come : Bool} (hb : booked = true) (hs : started = false) (hc : come = true)
    (hl : Live s) :
    ¬((!booked) = true ∨ started = true ∨ (!come) = true ∨ bearSafe s = true ∨ s.owl.shutdown = true) := by
  rw [startHeld_iff]
  simp [hb, hs, hc, hl]

/-! ### MEASURE_START and MEASURE_END (R221 to R223) -/

/-- The converter takes the first sample of a job: its source's range and compliance, and the wait of an untimed one. -/
def measureStarted (num : BitVec 17) (j : MeasJob) (s : State) : State :=
  let u := if j.timed then s else keepMax s gPLACEWAIT (nsBetween j.takenAt j.first) 0xFFFFFFFF
  setJob u num true (.measure { j with
    started := true, range := BitVec.ofNat 3 (sourceRange u j.sel.toNat), comply := sourceComply u j.sel.toNat })

theorem measureStart_due {s : State} {num : BitVec 17} {t : Ticket} {j : MeasJob} (ht : findTicket s num = some t)
    (hj : t.job = .measure j) (hb : t.booked = true) (hs : j.started = false) (hr : reached s.now j.first = true) (hl : Live s) :
    measureStartEffect num s = startMeeting s 31 num (measureStarted num j) := by
  simp only [measureStartEffect, ht, hj]
  refine (if_neg (not_startHeld hb hs hr hl)).trans ?_
  unfold startMeeting accessInject
  cases injectOn s 31 <;> rfl

theorem measureStart_waits {s : State} {num : BitVec 17} (h : ∀ t j, findTicket s num = some t → t.job = .measure j →
    t.booked = false ∨ j.started = true ∨ reached s.now j.first = false ∨ ¬Live s) : measureStartEffect num s = s := by
  unfold measureStartEffect
  split
  next t ht =>
    split
    next j hj => exact if_pos (startHeld_iff.mpr (h t j ht hj))
    next => rfl
  next => rfl

theorem measureEnd_commits {s : State} {num : BitVec 17} {t : Ticket} {j : MeasJob} {l : List Int} (lim : Bool)
    (ht : findTicket s num = some t) (hj : t.job = .measure j) (hs : j.started = true) (hn : l.length = j.n)
    (hr : reached s.now (j.first + ticksFu (usTicks j.n)) = true) (hl : Live s) :
    measureEndEffect num l lim s = commitJob s t 0 (measurePacket s num j l lim) := by
  obtain ⟨safe, shutdown⟩ := hl
  simp only [measureEndEffect, ht, hj]
  exact if_neg (by simp [hs, hn, hr, safe, shutdown])

theorem measureEnd_waits {s : State} {num : BitVec 17} {l : List Int} (lim : Bool)
    (h : ∀ t j, findTicket s num = some t → t.job = .measure j → j.started = false ∨ l.length ≠ j.n ∨
      reached s.now (j.first + ticksFu (usTicks j.n)) = false ∨ ¬Live s) : measureEndEffect num l lim s = s := by
  unfold measureEndEffect
  split
  next t ht =>
    split
    next j hj =>
      refine if_pos ?_
      rw [Bool.not_eq_true', Bool.not_eq_true', ← not_live_iff]
      exact h t j ht hj
    next => rfl
  next => rfl

/-! ### TIMU_JOB_START and TIMU_JOB_END (R216 to R218) -/

/-- A TIMU job counts from its start instant: the wait of an untimed one. -/
def timuStarted (num : BitVec 17) (j : TimuJob) (s : State) : State :=
  let u := if j.timed then s else keepMax s gPLACEWAIT (nsBetween j.takenAt j.start) 0xFFFFFFFF
  setJob u num true (.timu { j with started := true })

theorem timuJobStart_due {s : State} {num : BitVec 17} {t : Ticket} {j : TimuJob} (ht : findTicket s num = some t)
    (hj : t.job = .timu j) (hb : t.booked = true) (hs : j.started = false) (hr : reached s.now j.start = true) (hl : Live s) :
    timuJobStartEffect num s = startMeeting s 30 num (timuStarted num j) := by
  simp only [timuJobStartEffect, ht, hj]
  refine (if_neg (not_startHeld hb hs hr hl)).trans ?_
  unfold startMeeting accessInject
  cases injectOn s 30 <;> rfl

theorem timuJobStart_waits {s : State} {num : BitVec 17} (h : ∀ t j, findTicket s num = some t → t.job = .timu j →
    t.booked = false ∨ j.started = true ∨ reached s.now j.start = false ∨ ¬Live s) : timuJobStartEffect num s = s := by
  unfold timuJobStartEffect
  split
  next t ht =>
    split
    next j hj => exact if_pos (startHeld_iff.mpr (h t j ht hj))
    next => rfl
  next => rfl

theorem timuJobEnd_commits {s : State} {num : BitVec 17} {t : Ticket} {j : TimuJob} (ht : findTicket s num = some t)
    (hj : t.job = .timu j) (hs : j.started = true)
    (over_ : reached s.now (j.start + ticksFu j.limit) = true ∨ (j.freq = false ∧ j.count ≤ j.stamps.length)) (hl : Live s) :
    timuJobEndEffect num s = commitJob s t (if j.freq then 2 else 1) (timuPacket s num j) := by
  obtain ⟨safe, shutdown⟩ := hl
  simp only [timuJobEndEffect, ht, hj]
  refine if_neg ?_
  rcases over_ with late | ⟨stamps, full⟩
  · simp [hs, safe, shutdown, late]
  · simp [hs, safe, shutdown, stamps, full]

theorem timuJobEnd_waits {s : State} {num : BitVec 17} (h : ∀ t j, findTicket s num = some t → t.job = .timu j →
    j.started = false ∨ ¬Live s ∨
      (reached s.now (j.start + ticksFu j.limit) = false ∧ (j.freq = true ∨ j.stamps.length < j.count))) :
    timuJobEndEffect num s = s := by
  unfold timuJobEndEffect
  split
  next t ht =>
    split
    next j hj =>
      refine if_pos ?_
      rw [← not_live_iff]
      rcases h t j ht hj with idle | dead | ⟨early, lacking⟩
      · exact .inl (Bool.not_eq_true' _ ▸ idle)
      · exact .inr (.inr dead)
      · refine .inr (.inl ?_)
        rcases lacking with gate | few
        · simp [early, gate]
        · simp [early, few]
    next => rfl
  next => rfl

end Sys2Proof.Machine
end

section
/-! MEASURE and TIME_MEASURE, and their jobs (R215 to R236, R282, R390, Tables 8-7, 8-10 and 11-9). -/

namespace Sys2Proof.Machine

/-- Settles O32: the packet by its checks, its launch time, and the placement and storage that it finds. -/
theorem measureArmed : Obligations.MeasureArmed := by
  intro s h selector nMinus1 conv pinned queue q u convs job ha h25 h29
  have out : ticketsOut u = ticketsOut s := ticketsOut_ensureTaken ..
  have num : nextTicket u = nextTicket s := nextTicket_ensureTaken ..
  have now : u.now = s.now := ensureTaken_now ..
  refine ⟨fun bad => ?bad, fun good full => ?full, fun good free untimed => ?untimed, fun t good free timed => ?timed⟩
  case bad => exact done_booking_refused 0x28 ha rfl h25 h29 (if_pos bad)
  case full => exact done_booking_refused 0x28 ha rfl h25 h29 (second_check_refuses good (out.trans full))
  case untimed =>
    refine done_booking_accepted 0x28 ha rfl h25 h29 (injects_replaceJobs _) ((checks_pass good (out.trans free)).trans ?_)
    simp only [job, untimed, ← num, ← now]
    rfl
  case timed =>
    intro place
    refine ⟨fun hp => ?late, fun p hp lacks => ?busy, fun p hp holds => ?booked⟩
    all_goals unfold place at hp
    case late =>
      refine done_booking_refused 0x28 ha rfl h25 h29 ((checks_pass good (out.trans free)).trans ?_)
      simp only [timed]
      rw [hp]
    case busy =>
      refine done_booking_refused 0x28 ha rfl h25 h29 ((checks_pass good (out.trans free)).trans ?_)
      simp only [timed]
      rw [hp]
      exact if_pos (congrArg (!·) lacks)
    case booked =>
      refine done_booking_accepted 0x28 ha rfl h25 h29 rfl ((checks_pass good (out.trans free)).trans ?_)
      simp only [job, timed]
      rw [hp, ← num, ← now]
      exact if_neg (Bool.eq_false_iff.mp (congrArg (!·) holds))

/-- Settles O33: the packet by its checks, its launch time, and the TIMU and storage that it finds. -/
theorem timeMeasureArmed : Obligations.TimeMeasureArmed := by
  intro s h pinA edges pinB timu count queue limit a u job c ha h25 h29
  have out : ticketsOut u = ticketsOut s := ticketsOut_ensureTaken ..
  have num : nextTicket u = nextTicket s := nextTicket_ensureTaken ..
  have now : u.now = s.now := ensureTaken_now ..
  refine ⟨fun bad => ?bad, fun good full => ?full, fun good free untimed => ?untimed, fun t good free timed => ?timed⟩
  case bad => exact done_booking_refused 0x29 ha rfl h25 h29 (if_pos bad)
  case full => exact done_booking_refused 0x29 ha rfl h25 h29 (second_check_refuses good (out.trans full))
  case untimed =>
    refine done_booking_accepted 0x29 ha rfl h25 h29 (injects_replaceJobs _) ((checks_pass good (out.trans free)).trans ?_)
    simp only [job, untimed, ← num, ← now]
    rfl
  case timed =>
    intro len pin place
    refine ⟨fun hp => ?late, fun p hp lacks => ?busy, fun p hp holds => ?booked⟩
    all_goals
      simp only [place, len, job, timed, ← now] at hp
    case late =>
      refine done_booking_refused 0x29 ha rfl h25 h29 ((checks_pass good (out.trans free)).trans ?_)
      simp only [timed]
      rw [hp]
    case busy =>
      refine done_booking_refused 0x29 ha rfl h25 h29 ((checks_pass good (out.trans free)).trans ?_)
      simp only [timed]
      rw [hp]
      exact if_pos (congrArg (!·) lacks)
    case booked =>
      refine done_booking_accepted 0x29 ha rfl h25 h29 rfl ((checks_pass good (out.trans free)).trans ?_)
      simp only [job, timed]
      rw [hp, ← num, ← now]
      exact if_neg (Bool.eq_false_iff.mp (congrArg (!·) holds))

/-- Settles O34: each row by whether its job's instant has come, and a start by whether an injection meets it. -/
theorem ticketJobs : Obligations.TicketJobs := by
  refine ⟨?measureStart, ?measureWaits, ?measureEnd, ?measureRuns, ?timuStart, ?timuWaits, ?timuEnd, ?timuRuns⟩
  case measureStart =>
    intro s num t j ht hj hb hs hr hl
    have due := measureStart_due ht hj hb hs hr hl
    exact ⟨fun clear => congrArg (done s) (due.trans (startMeeting_clear clear ..)),
      fun d struck => congrArg (done s) (due.trans (startMeeting_struck struck ..))⟩
  case measureWaits => exact fun s num h => congrArg (done s) (measureStart_waits h)
  case measureEnd =>
    exact fun s num t j l lim ht hj hs hn hr hl => congrArg (done s) (measureEnd_commits lim ht hj hs hn hr hl)
  case measureRuns => exact fun s num l lim h => congrArg (done s) (measureEnd_waits lim h)
  case timuStart =>
    intro s num t j ht hj hb hs hr hl
    have due := timuJobStart_due ht hj hb hs hr hl
    exact ⟨fun clear => congrArg (done s) (due.trans (startMeeting_clear clear ..)),
      fun d struck => congrArg (done s) (due.trans (startMeeting_struck struck ..))⟩
  case timuWaits => exact fun s num h => congrArg (done s) (timuJobStart_waits h)
  case timuEnd => exact fun s num t j ht hj hs over_ hl => congrArg (done s) (timuJobEnd_commits ht hj hs over_ hl)
  case timuRuns => exact fun s num h => congrArg (done s) (timuJobEnd_waits h)

end Sys2Proof.Machine
end

section
/-! SUPPORT. Admission of waiting packets, the stale timer, and what starts and ends a drain (R259 to R264, R268). -/

namespace Sys2Proof.Machine

/-! ### PACKET_ADMISSION (R245, R259) -/

theorem packetAdmission_admits {s : State} {id : BitVec 14} {w : WaitPkt} {ws : List WaitPkt}
    (hw : (getQ s id.toNat).waiting = w :: ws) (hl : Live s) (fits : admits s id.toNat w.payload.length = true) :
    packetAdmissionEffect id s = admitPkt (modQ s id.toNat fun q => { q with waiting := ws }) id.toNat w := by
  obtain ⟨safe, shutdown⟩ := hl
  simp only [packetAdmissionEffect, hw]
  exact if_pos (by rw [fits, safe, shutdown]; rfl)

theorem packetAdmission_waits {s : State} {id : BitVec 14} (h : ∀ w ws, (getQ s id.toNat).waiting = w :: ws →
    ¬Live s ∨ admits s id.toNat w.payload.length = false) : packetAdmissionEffect id s = s := by
  unfold packetAdmissionEffect
  split
  · rfl
  next w ws hw =>
    have waits := h w ws hw
    rw [not_live_iff] at waits
    refine if_neg ?_
    rcases waits with (safe | shutdown) | full
    · simp [safe]
    · simp [shutdown]
    · simp [full]

/-! ### STALE_TIMER (R263) -/

theorem staleTimer_over {s : State} {id : BitVec 14} {t stale : Nat} (ht : (getQ s id.toNat).timerAt = some (t, stale))
    (old : usTicks stale ≤ s.ticks - t) :
    staleTimerEffect id s = modQ s id.toNat fun q => { q with timerAt := none, due := true } := by
  simp only [staleTimerEffect, ht]
  exact if_pos old

theorem staleTimer_waits {s : State} {id : BitVec 14}
    (h : ∀ t k, (getQ s id.toNat).timerAt = some (t, k) → s.ticks - t < usTicks k) : staleTimerEffect id s = s := by
  unfold staleTimerEffect
  split
  · rfl
  next t k ht => exact if_neg (Nat.not_le.mpr (h t k ht))

/-! ### DRAIN_START (R261 to R263, R268) -/

/-- What the drain takes of the queue that is served. -/
def drainTaken (id : BitVec 14) (bad : List (BitVec 12)) (s : State) : State × Drained :=
  drainTake id.toNat bad (getQ s id.toNat).store ⟨0, 0, 0⟩ { s with lastQueue := id }

/-- The queue whose drain took no packet: one that still holds packets stays due with RING_FULL. -/
def drainStuck (s : State) (i : Nat) : State :=
  let full := (getQ s i).store != []
  modQ s i fun q => { q with due := full, ringFull := q.ringFull || full, timerAt := if full then q.timerAt else none }

theorem drainStart_served {s : State} {id : BitVec 14} (route : dmaRoute s = true) (next : nextServed s = some id.toNat) :
    ¬(!dmaRoute s || nextServed s != some id.toNat) = true := by
  simp [route, next]

theorem drainStart_takes {s : State} {id : BitVec 14} {bad : List (BitVec 12)} (route : dmaRoute s = true)
    (next : nextServed s = some id.toNat) (took : (drainTaken id bad s).2.packets ≠ 0) :
    drainStartEffect id bad s = replaceJobs (modQ (drainTaken id bad s).1 id.toNat fun q =>
      { q with due := false, timerAt := none, draining := some ((drainTaken id bad s).2.entries, (drainTaken id bad s).2.seq,
        (drainTaken id bad s).2.packets) }) :=
  (if_neg (drainStart_served route next)).trans (if_neg took)

/-- A DRAIN flush that waits for packets which find no room is answered with BUSY, one that waits for none with DONE. -/
theorem drainStart_stuck {s : State} {id : BitVec 14} {bad : List (BitVec 12)} (route : dmaRoute s = true)
    (next : nextServed s = some id.toNat) (empty : (drainTaken id bad s).2.packets = 0) :
    let u := drainStuck (drainTaken id bad s).1 id.toNat
    drainStartEffect id bad s = replaceJobs
      ((getQ u id.toNat).flushLeft.elim u fun x => flushReply u id.toNat (if x.1 = 0 then 0 else BUSY) x.2) := by
  intro u
  refine ((if_neg (drainStart_served route next)).trans (if_pos empty)).trans (congrArg replaceJobs ?_)
  split
  next left d asked =>
    rw [show (getQ u id.toNat).flushLeft = some (left, d) from asked]
    rfl
  next unasked =>
    rw [show (getQ u id.toNat).flushLeft = none from unasked]
    rfl

theorem drainStart_waits {s : State} {id : BitVec 14} (bad : List (BitVec 12))
    (h : dmaRoute s = false ∨ nextServed s ≠ some id.toNat) : drainStartEffect id bad s = s := by
  refine if_pos ?_
  rcases h with unreachable | other
  · simp [unreachable]
  · simp [other]

/-! ### DRAIN_DONE (R263, R264, R268) -/

/-- A drain of n entries ends: TAIL moves over them, the stale timer starts again for what waits, and the writeback and the notice
follow. -/
def drainEnded (s : State) (i n : Nat) (seq : BitVec 12) : State :=
  let u := modQ s i fun q =>
    { q with tail := q.tail + BitVec.ofNat 32 n, draining := none, timerAt := if q.store = [] then none else some (s.ticks, q.stale),
             due := q.due || (decide (q.drainThr ≤ q.depth) && q.store != []) }
  queueNotice (queueWriteback u i seq) i

/-- The ring has room for the oldest packet in storage. -/
def Queue.roomForNext (q : Queue) : Bool :=
  match q.store with
  | p :: _ => decide ((q.tail - q.head).toNat + p.payload.length ≤ 2 ^ q.ringSize)
  | [] => true

theorem Queue.roomForNext_cons {q : Queue} {p : QPacket} {l : List QPacket} (h : q.store = p :: l) :
    q.roomForNext = decide ((q.tail - q.head).toNat + p.payload.length ≤ 2 ^ q.ringSize) := by
  rw [roomForNext, h]

/-- A DRAIN flush that waits for `left` packets and has seen d sees k more. -/
def flushSees (s : State) (i left d k : Nat) : State :=
  if left ≤ k then flushReply s i 0 (d + left)
  else if (getQ s i).roomForNext then modQ s i fun q => { q with flushLeft := some (left - k, d + k), due := true }
  else flushReply s i BUSY (d + k)

theorem drainDone_ends {s : State} {id : BitVec 14} {n k : Nat} {seq : BitVec 12}
    (hd : (getQ s id.toNat).draining = some (n, seq, k)) (route : dmaRoute s = true)
    (unblocked : (getQ s id.toNat).blocked = false) :
    let v := drainEnded s id.toNat n seq
    drainDoneEffect id s = (getQ v id.toNat).flushLeft.elim v fun x => flushSees v id.toNat x.1 x.2 k := by
  intro v
  simp only [drainDoneEffect, hd, route, unblocked, Bool.not_true, Bool.or_self, Bool.false_eq_true, if_false]
  split
  next unasked =>
    rw [show (getQ v id.toNat).flushLeft = none from unasked]
    rfl
  next left d asked =>
    rw [show (getQ v id.toNat).flushLeft = some (left, d) from asked]
    rfl

theorem drainDone_waits {s : State} {id : BitVec 14}
    (h : (getQ s id.toNat).draining = none ∨ dmaRoute s = false ∨ (getQ s id.toNat).blocked = true) :
    drainDoneEffect id s = s := by
  unfold drainDoneEffect
  extract_lets
  split
  · rfl
  next n seq k hd =>
    refine if_pos ?_
    rw [Bool.or_eq_true, Bool.not_eq_true']
    exact h.resolve_left fun idle => by cases idle.symm.trans hd

theorem flushSees_all {s : State} {i left d k : Nat} (h : left ≤ k) : flushSees s i left d k = flushReply s i 0 (d + left) :=
  if_pos h

theorem flushSees_room {s : State} {i left d k : Nat} {p : QPacket} {l : List QPacket} (more : k < left)
    (hp : (getQ s i).store = p :: l)
    (fits : ((getQ s i).tail - (getQ s i).head).toNat + p.payload.length ≤ 2 ^ (getQ s i).ringSize) :
    flushSees s i left d k = modQ s i fun q => { q with flushLeft := some (left - k, d + k), due := true } :=
  (if_neg (Nat.not_le.mpr more)).trans (if_pos ((Queue.roomForNext_cons hp).trans (decide_eq_true fits)))

theorem flushSees_full {s : State} {i left d k : Nat} {p : QPacket} {l : List QPacket} (more : k < left)
    (hp : (getQ s i).store = p :: l)
    (full : 2 ^ (getQ s i).ringSize < ((getQ s i).tail - (getQ s i).head).toNat + p.payload.length) :
    flushSees s i left d k = flushReply s i BUSY (d + k) := by
  refine (if_neg (Nat.not_le.mpr more)).trans (if_neg ?_)
  rw [Queue.roomForNext_cons hp, decide_eq_true_eq]
  exact Nat.not_le.mpr full

end Sys2Proof.Machine
end

section
/-! Admission, the stale timer and the drains of the result queues (R234, R245, R259 to R264, R268, Tables 10-5 and 10-6). -/

namespace Sys2Proof.Machine

/-- Settles O39: each row by whether its condition has come, a start by what the drain takes, and an end by what a flush waits for. -/
theorem queueDrains : Obligations.QueueDrains := by
  refine ⟨?admits, fun s i w => rfl, ?waits, ?stale, ?fresh, ?start, ?unserved, ?ended, ?unended⟩
  case admits => exact fun s id w ws hw hl fits => congrArg (done s) (packetAdmission_admits hw hl fits)
  case waits => exact fun s id h => congrArg (done s) (packetAdmission_waits h)
  case stale => exact fun s id t stale ht old => congrArg (done s) (staleTimer_over ht old)
  case fresh => exact fun s id h => congrArg (done s) (staleTimer_waits h)
  case start =>
    intro s id bad route next i d
    refine ⟨fun took => congrArg (done s) (drainStart_takes route next took), fun empty => ?_⟩
    intro full u
    have stuck : exec (.drainStart id bad) s = done s (replaceJobs
        ((getQ u i).flushLeft.elim u fun x => flushReply u i (if x.1 = 0 then 0 else BUSY) x.2)) :=
      congrArg (done s) (drainStart_stuck route next empty)
    exact ⟨fun unasked => by rw [stuck, unasked]; rfl, fun m n asked => by rw [stuck, asked]; rfl⟩
  case unserved => exact fun s id bad h => congrArg (done s) (drainStart_waits bad h)
  case ended =>
    intro s id n seq k hd route unblocked i u v
    have ends : exec (.drainDone id) s = done s ((getQ v i).flushLeft.elim v fun x => flushSees v i x.1 x.2 k) :=
      congrArg (done s) (drainDone_ends hd route unblocked)
    have sees (left d : Nat) (asked : (getQ v i).flushLeft = some (left, d)) :
        exec (.drainDone id) s = done s (flushSees v i left d k) := by
      rw [ends, asked]
      rfl
    exact ⟨fun unasked => by rw [ends, unasked]; rfl,
      fun left d asked all => (sees left d asked).trans (congrArg (done s) (flushSees_all all)),
      fun left d p l asked more hp fits => (sees left d asked).trans (congrArg (done s) (flushSees_room more hp fits)),
      fun left d p l asked more hp full => (sees left d asked).trans (congrArg (done s) (flushSees_full more hp full))⟩
  case unended => exact fun s id h => congrArg (done s) (drainDone_waits h)

end Sys2Proof.Machine
end

section
/-! SUPPORT. A queue read after a change of one queue, and what a commit that meets no injection makes of its queue (R257, R258,
R262, R263). -/

namespace Sys2Proof.Machine

/-! ### One queue changed -/

theorem getQ_modQ_same {s : State} (hc : Canonical s) (id : Nat) (f : Queue → Queue) :
    getQ (modQ s id f) id = (f (getQ s id)).shrink :=
  sget_sput_same qDflt _ _ _ hc.q

theorem getQ_modQ_other (s : State) {id k : Nat} (f : Queue → Queue) (h : k ≠ id) : getQ (modQ s id f) k = getQ s k :=
  sget_sput_other qDflt _ _ _ _ h

/-! ### Commits (R257, R258, R262, R263, R390) -/

theorem qstoreInject_clear {s : State} (h : injectOn s 24 = none) (n : Nat) : qstoreInject n s = (s, none) := by
  induction n with
  | zero => rfl
  | succ n ih => simp only [qstoreInject, accessInject, h, ih]

/-- The queue in which a packet has been committed at a tick, with no injection on its entries. -/
def Queue.committed (q : Queue) (now : Nat) (typ : BitVec 3) (payload : List (BitVec 96)) : Queue :=
  let q' := { q with store := q.store ++ [(⟨typ, payload, q.nextSeq, none⟩ : QPacket)], nextSeq := q.nextSeq + 1,
                     timerAt := if q.store = [] ∧ q.timerAt = none then q.timer now else q.timerAt,
                     writeEnd := max now q.writeEnd + cdiv (3 * payload.length) 2,
                     flush := q.flush.map fun (m, n) => (m, n + 1) }
  { q' with due := q'.due || decide (q'.drainThr ≤ q'.depth) }

theorem commitPkt_clear {s : State} (h : injectOn s 24 = none) (id : Nat) (typ : BitVec 3) (payload : List (BitVec 96)) :
    commitPkt s id typ payload = modQ s id fun q => q.committed s.ticks typ payload := by
  rw [commitPkt, qstoreInject_clear h]
  rfl

theorem Queue.committed_due_iff (q : Queue) (now : Nat) (typ : BitVec 3) (payload : List (BitVec 96)) :
    (q.committed now typ payload).due = true ↔ q.due = true ∨ q.drainThr ≤ (q.committed now typ payload).depth :=
  Bool.or_eq_true_iff.trans (or_congr_right decide_eq_true_iff)

theorem Queue.committed_starts_timer {q : Queue} (empty : q.store = []) (idle : q.timerAt = none) (now : Nat) (typ : BitVec 3)
    (payload : List (BitVec 96)) : (q.committed now typ payload).timerAt = some (now, q.stale) :=
  if_pos ⟨empty, idle⟩

end Sys2Proof.Machine
end

section
/-! Commits to the result queues (R257, R258, R262, R263). -/

namespace Sys2Proof.Machine

/-- Settles O38: with no injection a commit changes its own queue alone, and each clause reads the committed queue. -/
theorem commitTakesSeq : Obligations.CommitTakesSeq := by
  intro s id typ l hc clear q t
  have ht : t = modQ s id fun q => q.committed s.ticks typ l := commitPkt_clear clear id typ l
  have own : getQ t id = (q.committed s.ticks typ l).shrink := by rw [ht, getQ_modQ_same hc]
  refine ⟨?store, ?seq, ?due, ?timer, fun k other => ?others, ?frame⟩
  case store => rw [own]; rfl
  case seq => rw [own]; rfl
  case due => rw [own]; exact q.committed_due_iff s.ticks typ l
  case timer =>
    intro empty idle
    rw [own]
    exact Queue.committed_starts_timer empty idle s.ticks typ l
  case others => rw [ht, getQ_modQ_other s _ other]
  case frame => rw [ht]; rfl

end Sys2Proof.Machine
end

section
/-! SUPPORT. A reply writes the rings, host memory, the interrupts and the frames on the ring links, and nothing else; so a refusal
books nothing (R25, R274, R276, R281, R293). -/

namespace Sys2Proof.Machine

/-- Nothing differs but what a reply may write. -/
def OnlyReply (s t : State) : Prop := t = { s with host := t.host, sq := t.sq, cq := t.cq, msix := t.msix, ring := t.ring }

theorem OnlyReply.trans {s t u : State} (h : OnlyReply s t) (k : OnlyReply t u) : OnlyReply s u := by
  unfold OnlyReply at *
  rw [k, h]

theorem onlyReply_cqWrite (s : State) (c : Fin 64) (entry : List Byte) : OnlyReply s (cqWrite s c entry) := by
  unfold cqWrite
  dsimp only
  split <;> rfl

theorem onlyReply_sendRing (s : State) (dest : Option Nat) (m : RingMsg) : OnlyReply s (sendRing s dest m) := by
  unfold sendRing
  dsimp only
  split <;> rfl

theorem onlyReply_deliverList (q : Fin 64) (l : List Taken) (s : State) : OnlyReply s (deliverList q l s) := by
  induction l generalizing s with
  | nil => rfl
  | cons t ts ih =>
    have released : OnlyReply s (unreserve s t.cq) := rfl
    unfold deliverList
    split
    · rfl
    · split
      · exact released.trans (ih _)
      · split
        · exact released.trans ((onlyReply_cqWrite ..).trans (ih _))
        · rfl

theorem onlyReply_setReply (s : State) (q : Fin 64) (era : Nat) (seq : Word) (r : Reply) : OnlyReply s (setReply s q era seq r) :=
  OnlyReply.trans (t := modTaken s q era seq fun t => { t with reply := some r }) rfl (onlyReply_deliverList ..)

theorem onlyReply_memberReply (s : State) (q : Fin 64) (era : Nat) (seq : Word) (pos : Nat) (r : Reply) :
    OnlyReply s (memberReply s q era seq pos r) := by
  unfold memberReply
  split
  · rfl
  · split
    · exact onlyReply_setReply ..
    · next m _ =>
      have noted : OnlyReply s (modTaken s q era seq fun t => { t with mc := some (m.add pos r) }) := rfl
      split
      · rfl
      · dsimp only
        split
        · exact noted.trans (onlyReply_setReply ..)
        · exact noted

theorem onlyReply_refuse (s : State) (h : Hdr) (op st info : Nat) : OnlyReply s (refuse s h op st info) := by
  unfold refuse answer
  dsimp only
  split
  · exact onlyReply_sendRing ..
  · exact onlyReply_memberReply ..

/-! ### A refused packet books nothing -/

/-- No ticket is issued and no frame allocated between two states. -/
def BooksNothing (s t : State) : Prop := t.tickets = s.tickets ∧ t.store = s.store

theorem booksNothing_refuse (s : State) (h : Hdr) (op op' st info : Nat) :
    BooksNothing s (refuse (ensureTaken s h op) h op' st info) := by
  have only := onlyReply_refuse (ensureTaken s h op) h op' st info
  exact ⟨(congrArg State.tickets only).trans (ensureTaken_tickets ..), (congrArg State.store only).trans (ensureTaken_store ..)⟩

theorem BooksNothing.ticketWrite {s t : State} (b : BooksNothing s t) : ticketWrite s t = t :=
  if_pos (congrArg List.length b.1).le

theorem BooksNothing.martenWrite {s t : State} (b : BooksNothing s t) : martenWrite s t = t :=
  if_pos ⟨(congrArg List.length b.1).le, (congrArg (fun x => x.used.length) b.2).le⟩

section
variable {s : State} {h : Hdr} {w : Row} {need : List Need} {body : State → State} {op st info : Nat}
  (hr : command s h w need body = refuse (ensureTaken s h op) h op st info)
include hr

/-- A refused packet ends in its refusal. -/
theorem done_refused : done s (command s h w need body) = .next (after s (refuse (ensureTaken s h op) h op st info)) := by
  rw [hr, done_eq]

/-- So does one that would have allocated a frame. -/
theorem done_loading_refused :
    done s (martenWrite s (command s h w need body)) = .next (after s (refuse (ensureTaken s h op) h op st info)) := by
  rw [hr, (booksNothing_refuse ..).martenWrite, done_eq]

/-- So does one that would have issued a ticket. -/
theorem done_ticket_refused : done s (martenWrite s (ticketWrite s (command s h w need body))) =
    .next (after s (refuse (ensureTaken s h op) h op st info)) := by
  rw [hr, (booksNothing_refuse ..).ticketWrite, (booksNothing_refuse ..).martenWrite, done_eq]

end

end Sys2Proof.Machine
end

section
/-! Checks of a packet's header, and what long commands hold (R280, R282, R283, R286, R338, R339, Table 11-6). -/

namespace Sys2Proof.Machine

/-- Each row of Table 11-9 is served by `command`, which refuses a packet that fails a check of its header. -/
theorem exec_refused {c : Instr} {h : Hdr} {w : Row} {s : State} {st info : Nat} (hp : packetRow c = some (h, w))
    (hpor : s.boot.por = false) (ht : canTake s h = true) (hi : injectOn s 28 = none) (ha : admission s h w = some (st, info)) :
    exec c s = .next (after s (refuse (ensureTaken s h w.op) h w.op st info)) := by
  unfold packetRow at hp
  split at hp <;> cases hp
  -- PARAM_READ
  case h_3 => exact (congrArg (done s) (paramRead_packet hpor ..)).trans (done_refused (command_refused ht hi ha))
  -- SEG_LOAD
  case h_7 => exact done_loading_refused (command_refused ht hi ha)
  -- EVENT_JUMP_ARM
  case h_16 =>
    change done s (eventJumpArmEffect _ _ _ _ s) = _
    unfold eventJumpArmEffect
    exact done_refused (command_refused ht hi ha)
  -- MEASURE, TIME_MEASURE, CAPTURE_ARM, ACQ_ARM
  case h_17 | h_18 | h_19 | h_20 => exact done_ticket_refused (command_refused ht hi ha)
  all_goals exact done_refused (command_refused ht hi ha)

/-! ### The checks of a header, in their order (Table 11-6) -/

section
variable {s : State} {h : Hdr} {w : Row}

theorem admission_multicast (hm : h.multicast = true) (hw : w.mc = false) : admission s h w = some (BAD_TARGET, 0) :=
  if_pos ⟨hm, .inl (by rw [hw]; rfl)⟩

variable (hm : h.multicast = false)
include hm

theorem admission_loader (hs : s.boot.stage = 7) (hw : w.loader = false) : admission s h w = some (NOT_IN_BASELINE, 1) :=
  (if_neg (by simp [hm])).trans (if_pos ⟨hs, by rw [hw]; rfl⟩)

variable (hs : s.boot.stage = 6)
include hs

theorem admission_baseline (hb : s.boot.mode = .baseline) (hw : w.baseline = false) :
    admission s h w = some (NOT_IN_BASELINE, 0) :=
  (if_neg (by simp [hm])).trans ((if_neg (by simp [hs])).trans (if_pos ⟨hb, by rw [hw]; rfl⟩))

variable (hn : s.boot.mode = .normal)
include hn

theorem admission_target (hr : w.ridge = .none) (hf : h.ridge ≠ 0xF#4) : admission s h w = some (BAD_TARGET, 0) :=
  (if_neg (by simp [hm])).trans ((if_neg (by simp [hs])).trans ((if_neg (by simp [hn])).trans (if_pos ⟨hr, hf⟩)))

variable (hr : ¬(w.ridge = .none ∧ h.ridge ≠ 0xF#4))
include hr

theorem admission_length (hl : h.launchAt = none) (hlen : h.length.toNat ≠ w.units) :
    admission s h w = some (BAD_LENGTH, w.units) := by
  simp only [admission, hm, hs, hn, hr, hl]
  simp [hlen]

variable {t : T64} (hl : h.launchAt = some t) (hlen : h.length.toNat = w.units + 1)
include hl hlen

theorem admission_launchWord (hw : w.timed = false) : admission s h w = some (BAD_PARAM, 0) := by
  simp only [admission, hm, hs, hn, hr, hl, hlen, hw]
  simp

theorem admission_late (hw : w.timed = true) (ha : h.asap = false) (hlate : timeDiff t s.now < 30000 * 1024) :
    admission s h w = some (LATE, 0) := by
  have late : tooLate s h t = true := by simpa [tooLate, horizon, hm] using hlate
  simp only [admission, hm, hs, hn, hr, hl, hlen, hw, ha, late]
  simp

end

/-- Settles O9: every row refuses through `command`, and each clause takes the first check that fails. -/
theorem admissionRefusals : Obligations.AdmissionRefusals := by
  have named {h : Hdr} {w : Row} (hr : w.ridge = .none → h.ridge = 0xF#4) : ¬(w.ridge = .none ∧ h.ridge ≠ 0xF#4) :=
    fun bad => bad.2 (hr bad.1)
  refine ⟨fun _ _ _ _ _ _ hp hpor ht hi ha => exec_refused hp hpor ht hi ha, fun _ _ _ hm hw => admission_multicast hm hw,
    fun _ _ _ hm hs hw => admission_loader hm hs hw, fun _ _ _ hm hs hb hw => admission_baseline hm hs hb hw,
    fun _ _ _ hm hs hn hr hf => admission_target hm hs hn hr hf, ?length, ?launchWord, ?late⟩
  case length =>
    intro s h w hm hs hn hr hl hlen
    exact admission_length hm hs hn (named hr) hl hlen
  case launchWord =>
    intro s h w t hm hs hn hr hl hlen hw
    exact admission_launchWord hm hs hn (named hr) hl hlen hw
  case late =>
    intro s h w t hm ha hs hn hr hl hlen hw hlate
    exact admission_late hm hs hn (named hr) hl hlen hw ha hlate

/-- Settles O11: each of these rows is served by `command`, which asks for what the packet names. That BUSY stands behind the checks of
the header and before those of the body is the model's choice, log entry 21. -/
theorem longCommandsHold : Obligations.LongCommandsHold := by
  intro c h w need s hp hn ht hi ha hl
  split at hn
  -- No other command
  case h_14 => exact hn.elim
  all_goals cases hp; subst hn
  -- SEG_LOAD
  case h_1 => exact done_loading_refused (command_held ht hi ha hl)
  -- MEASURE
  case h_7 => exact done_ticket_refused (command_held ht hi ha hl)
  all_goals exact done_refused (command_held ht hi ha hl)

end Sys2Proof.Machine
end

section
/-! SUPPORT. Timed writes: what a packet keeps of them, and which one comes first (R13, R284, R285). -/

namespace Sys2Proof.Machine

/-! ### At taking (R282, R285) -/

section
variable {s : State} {l : List (Nat × Nat)} (h : Hdr) (op : Nat) (t : T64)

theorem timedWrites_bad {k : Nat} (hl : l.findIdx? timedBad = some k) :
    timedWrites h op l t s = refuse s h op BAD_PARAM (if op = 2 then 0 else k) := by
  simp only [timedWrites, hl]

theorem timedWrites_full (hl : l.findIdx? timedBad = none) (hn : 256 < s.link.timed.length + l.length) :
    timedWrites h op l t s = refuse s h op BUSY 0 := by
  simp only [timedWrites, hl, if_pos hn]

theorem timedWrites_kept (hl : l.findIdx? timedBad = none) (hn : s.link.timed.length + l.length ≤ 256) :
    timedWrites h op l t s = replyAccepted (l.foldl (addTimed t) s) h op 0 t := by
  simp only [timedWrites, hl, if_neg (not_lt.mpr hn)]

end

/-- A packet in its state of taking starts when it did before. -/
theorem startTime_taken {s : State} {h : Hdr} {t : T64} (op : Nat) (ht : startTime s h s.now = some t) :
    startTime (ensureTaken s h op) h (ensureTaken s h op).now = some t := by
  rw [ensureTaken_now, startTime_ensureTaken, ht]

theorem exec_paramWrite_timed {s : State} {h : Hdr} {i : BitVec 16} {v : Word} {t : T64} (ht : startTime s h s.now = some t)
    (ha : Admitted s h ⟨0x02, 2, .none, true, true, true, false⟩ (wordNeed (i.toNat % 8192))) :
    exec (.paramWrite h i v) s =
      .next (after s (timedWrites h 0x02 [(i.toNat % 8192, v.toNat)] t (ensureTaken s h 0x02))) := by
  have need : ([(i.toNat % 8192, v.toNat)].flatMap fun x => wordNeed x.1) = wordNeed (i.toNat % 8192) := List.flatMap_singleton ..
  refine done_command_of_body 0x02 (need.symm ▸ ha) rfl ?_
  rw [startTime_taken 0x02 ht]

theorem exec_paramWriteMulti_timed {s : State} {h : Hdr} {count : BitVec 16} {pairs : List (BitVec 16 × Word)} {t : T64}
    (ht : startTime s h s.now = some t) (h1 : 1 ≤ count.toNat) (h2 : count.toNat ≤ 8192) {l : List (Nat × Nat)}
    (hl : l = (pairs.take count.toNat).map fun p => (p.1.toNat % 8192, p.2.toNat))
    (ha : Admitted s h ⟨0x04, 2 + cdiv count.toNat 2, .none, true, true, true, false⟩ (l.flatMap fun x => wordNeed x.1)) :
    exec (.paramWriteMulti h count pairs) s = .next (after s (timedWrites h 0x04 l t (ensureTaken s h 0x04))) := by
  subst hl
  refine done_command_of_body 0x04 ha rfl ((if_neg (by omega)).trans ?_)
  rw [startTime_taken 0x04 ht]

/-! ### The first one (R13, R284) -/

/-- Of two times within 2^62 fine units of now, the later one is farther ahead. -/
theorem later_iff_timeDiff {a b now : T64} (ha : (timeDiff a now).natAbs < 2 ^ 62) (hb : (timeDiff b now).natAbs < 2 ^ 62) :
    later a b = true ↔ timeDiff b now < timeDiff a now := by
  unfold later timeDiff at *
  have split : a - b = (a - now) - (b - now) := by bv_omega
  rw [decide_eq_true_iff, split, BitVec.toInt_sub, Int.bmod_eq_of_le]
  all_goals omega

/-- The sooner of two timed writes, the first one of equals. -/
def sooner (best : Option Timed) (x : Timed) : Option Timed :=
  match best with
  | none => some x
  | some b => if later b.at_ x.at_ then some x else some b

theorem firstTimed_eq (s : State) : firstTimed s = s.link.timed.foldl sooner none := rfl

/-- Near now, the soonest of a list is the one least far ahead. -/
theorem foldl_sooner_eq_argmin {now : T64} {l : List Timed} (near : ∀ y ∈ l, (timeDiff y.at_ now).natAbs < 2 ^ 62) :
    l.foldl sooner none = l.argmin fun y => timeDiff y.at_ now := by
  induction l using List.reverseRecOn with
  | nil => rfl
  | append_singleton l x ih =>
    have nearL : ∀ y ∈ l, (timeDiff y.at_ now).natAbs < 2 ^ 62 := fun y hy => near y (List.mem_append_left _ hy)
    rw [List.foldl_append, ih nearL, List.argmin_concat]
    cases hb : l.argmin fun y => timeDiff y.at_ now with
    | none => rfl
    | some b => exact if_congr (later_iff_timeDiff (nearL b (List.argmin_mem hb)) (near x (by simp))) rfl rfl

/-- The first timed write is one that no other precedes. -/
theorem firstTimed_spec {s : State} {x : Timed} (hx : firstTimed s = some x)
    (near : ∀ y ∈ s.link.timed, (timeDiff y.at_ s.now).natAbs < 2 ^ 62) :
    x ∈ s.link.timed ∧ ∀ y ∈ s.link.timed, later x.at_ y.at_ = false := by
  rw [firstTimed_eq, foldl_sooner_eq_argmin near] at hx
  have mem : x ∈ s.link.timed := List.argmin_mem hx
  refine ⟨mem, fun y hy => Bool.eq_false_iff.mpr fun precedes => ?_⟩
  exact absurd ((later_iff_timeDiff (near x mem) (near y hy)).mp precedes) (not_lt.mpr (List.le_of_mem_argmin hy hx))

/-! ### At its instant (R284, R285) -/

theorem timedWriteApply_none {s : State} (hn : s.link.timed = []) : timedWriteApplyEffect s = s := by
  simp only [timedWriteApplyEffect, firstTimed_eq, hn, List.foldl_nil]

section
variable {s : State} {x : Timed} (hx : firstTimed s = some x)
include hx

theorem timedWriteApply_waits (hw : reached s.now x.at_ = false ∨ bearSafe s = true ∨ s.owl.shutdown = true) :
    timedWriteApplyEffect s = s := by
  have held : (!reached s.now x.at_ || bearSafe s || s.owl.shutdown) = true := by
    simpa only [Bool.or_eq_true, Bool.not_eq_true', or_assoc] using hw
  simp only [timedWriteApplyEffect, hx, held, if_true]

theorem timedWriteApply_due (hr : reached s.now x.at_ = true) (live : Live s) : timedWriteApplyEffect s = applyTimed s x := by
  obtain ⟨safe, shutdown⟩ := live
  simp only [timedWriteApplyEffect, hx, hr, safe, shutdown, Bool.not_true, Bool.or_self, Bool.false_eq_true, if_false]

end

section
variable {s u : State} {x : Timed} (hu : u = { s with link := { s.link with timed := s.link.timed.erase x } })
include hu

theorem applyTimed_accepted (hr : writeRefusal u x.index x.value.toNat = none) :
    applyTimed s x = timedPhase (writeEffect u x.index x.value.toNat) x := by
  subst hu
  simp only [applyTimed, tryWrite_accepted hr]

theorem applyTimed_dropped {st : Nat} (hr : writeRefusal u x.index x.value.toNat = some st) :
    applyTimed s x = dropTimed u x.index st := by
  subst hu
  simp only [applyTimed, tryWrite_refused hr]

end

end Sys2Proof.Machine
end

section
/-! Timed writes (R282, R284, R285, Table 11-11). The theorem stands outside `Machine`, where its name is that of the operation. -/

namespace Sys2Proof

open Machine

/-- Settles O21: the packets by their checks at taking, and the row by whether the first write's instant has come. That the grid of an
instant is judged at taking is the model's choice, log entry 46. -/
theorem timedWrites : Obligations.TimedWrites := by
  refine ⟨?single, ?multi, fun s x t => rfl, ?none, ?waits, ?due, fun s x hx near => firstTimed_spec hx near⟩
  case single =>
    intro s h i v t ht ha u k
    have run := exec_paramWrite_timed (v := v) ht ha
    have length : u.link.timed.length = s.link.timed.length := by rw [ensureTaken_link]
    have found : [(k, v.toNat)].findIdx? timedBad = if timedBad (k, v.toNat) then some 0 else none := by
      simp only [List.findIdx?_cons, List.findIdx?_nil, Option.map_none]
    refine ⟨fun bad => ?_, fun good full => ?_, fun good room => ?_⟩
    · rw [run, timedWrites_bad h 0x02 t (found.trans (if_pos bad))]
      rfl
    · have none : [(k, v.toNat)].findIdx? timedBad = none := found.trans (if_neg (Bool.eq_false_iff.mp good))
      rw [run, timedWrites_full h 0x02 t none (by rw [length]; exact Nat.lt_succ_of_le full)]
    · have none : [(k, v.toNat)].findIdx? timedBad = none := found.trans (if_neg (Bool.eq_false_iff.mp good))
      rw [run, timedWrites_kept h 0x02 t none (by rw [length]; exact room)]
      simp only [List.foldl_cons, List.foldl_nil, addTimed, BitVec.ofNat_toNat, BitVec.setWidth_eq]
      rfl
  case multi =>
    intro s h count pairs t ht h1 h2 l u ha
    have run := exec_paramWriteMulti_timed ht h1 h2 rfl ha
    have length : u.link.timed.length = s.link.timed.length := by rw [ensureTaken_link]
    refine ⟨fun k bad => ?_, fun good full => ?_, fun good room => ?_⟩
    · rw [run, timedWrites_bad h 0x04 t bad]
      rfl
    · rw [run, timedWrites_full h 0x04 t good (by rwa [length])]
    · rw [run, timedWrites_kept h 0x04 t good (by rwa [length])]
  case none => exact fun s hn => congrArg (done s) (timedWriteApply_none hn)
  case waits => exact fun s x hx hw => congrArg (done s) (timedWriteApply_waits hx hw)
  case due =>
    intro s x hx hr live u
    have run := timedWriteApply_due hx hr live
    exact ⟨fun ok => congrArg (done s) (run.trans (applyTimed_accepted rfl ok)),
      fun st bad => congrArg (done s) (run.trans (applyTimed_dropped rfl bad))⟩

end Sys2Proof
end

section
/-! SUPPORT. Bytes of host memory, one notice at a time, and what an entry of a completion ring or of the fault log leaves of the blocked
rings and queues (R274 to R276, R376, R377). -/

namespace Sys2Proof.Machine

/-! ### Host memory (R5) -/

/-- A byte that has been written, below the end of the address space, reads as written. -/
theorem hostByte_hostPut_same {m : List Host.Cell} (w : Memory.wf m) {a k : Nat} {bs : List Byte} (hk : k < bs.length)
    (ha : a + bs.length ≤ 2 ^ 64) : hostByte (hostPut m a bs) (a + k) = bs.getD k 0 := by
  induction bs generalizing a k with
  | nil => exact absurd hk (Nat.not_lt_zero k)
  | cons b bs ih =>
    rw [List.length_cons] at hk ha
    have first : a % 2 ^ 64 = a := Nat.mod_eq_of_lt (by omega)
    unfold hostByte hostPut
    rw [first]
    cases k with
    | zero => exact sget_sput_same _ _ _ _ (hostPut_wf m (a + 1) bs w)
    | succ k =>
      rw [sget_sput_other _ _ _ _ _ (by omega), List.getD_cons_succ, ← ih (a := a + 1) (by omega) (by omega), hostByte,
        show a + (k + 1) = a + 1 + k by omega]

/-- Bytes outside a write below the end of the address space stand. -/
theorem hostByte_hostPut_outside (m : List Host.Cell) {a i : Nat} {bs : List Byte} (ha : a + bs.length ≤ 2 ^ 64)
    (hi : ¬(a ≤ i ∧ i < a + bs.length)) : hostByte (hostPut m a bs) i = hostByte m i :=
  hostByte_hostPut_other m a i bs fun k hk => by rw [Nat.mod_eq_of_lt (by omega)]; omega

theorem padTo_self {n : Nat} {l : List Byte} (h : l.length = n) : padTo n l = l := by
  rw [padTo, ← h, List.take_length, Nat.sub_self, List.replicate_zero, List.append_nil]

/-! ### An entry of a completion ring (R276) -/

/-- Where the next entry of a completion ring goes. -/
def Cq.slot (q : Cq) : Nat := q.base.toNat + 16 * (q.tail.toNat % 2 ^ q.n)

/-- The bytes of the writeback. -/
def writeback (tail : Word) : List Byte := leBytes 4 tail.toNat ++ leBytes 4 0

theorem length_writeback (tail : Word) : (writeback tail).length = 8 := rfl

section
variable {s : State} {c : Fin 64} (e : List Byte)

theorem cqWrite_host : (cqWrite s c e).host =
    hostPut (hostPut s.host s.cq[c].slot (padTo 16 e)) s.cq[c].wb.toNat (writeback (s.cq[c].tail + 1)) := by
  unfold cqWrite
  dsimp only
  split <;> rfl

/-- An entry that neither TIME nor COUNT signals advances its ring alone. -/
theorem cqWrite_cq (ht : s.cq[c].irqTime ≠ 0) (hn : s.cq[c].unsignalled + 1 < s.cq[c].irqCount) :
    (cqWrite s c e).cq = vmod s.cq c fun x =>
      { x with tail := s.cq[c].tail + 1, unsignalled := s.cq[c].unsignalled + 1
               oldest := if s.cq[c].unsignalled = 0 then s.ticks else s.cq[c].oldest } := by
  have quiet : ¬(s.cq[c].irqTime = 0 ∨ s.cq[c].irqCount ≤ s.cq[c].unsignalled + 1) := by omega
  unfold cqWrite
  dsimp only
  rw [if_neg quiet]
  rfl

end

/-! ### Notices and interrupts (R275, R276, R426) -/

section
variable {s : State} {c : Fin 64}

theorem pendingNoticeWrite_writes {n : Notice} (hn : s.link.notices.find? (fun m => decide (m.cq = c)) = some n)
    (ho : noticeOut s c = true) : pendingNoticeWriteEffect c s =
      cqWrite { s with link := { s.link with notices := s.link.notices.erase n } } c n.bytes := by
  simp only [pendingNoticeWriteEffect, deliverNotices, hn, ho, if_true]

theorem pendingNoticeWrite_waits
    (h : s.link.notices.find? (fun m => decide (m.cq = c)) = none ∨ noticeOut s c = false) : pendingNoticeWriteEffect c s = s := by
  unfold pendingNoticeWriteEffect deliverNotices
  split
  · rfl
  · next n found =>
    have shut : noticeOut s c = false := h.resolve_left (by rw [found]; nofun)
    rw [shut]
    rfl

theorem cqIrqTimer_signals (hd : dmaOk s = true) (he : s.cq[c].enabled = true) (hu : 0 < s.cq[c].unsignalled)
    (ht : usTicks s.cq[c].irqTime ≤ s.ticks - s.cq[c].oldest) : cqIrqTimerEffect c s = signalCq s c := by
  simp only [cqIrqTimerEffect, hd, he, hu, ht, decide_true, Bool.and_self, if_true]

theorem cqIrqTimer_waits (h : dmaOk s = false ∨ s.cq[c].enabled = false ∨ s.cq[c].unsignalled = 0 ∨
    s.ticks - s.cq[c].oldest < usTicks s.cq[c].irqTime) : cqIrqTimerEffect c s = s := by
  refine if_neg fun due => ?_
  simp only [Bool.and_eq_true, decide_eq_true_eq] at due
  obtain ⟨⟨⟨hd, he⟩, hu⟩, ht⟩ := due
  rcases h with hd' | he' | hu' | ht'
  · exact absurd hd (Bool.eq_false_iff.mp hd')
  · exact absurd he (Bool.eq_false_iff.mp he')
  · omega
  · omega

end

/-! ### Failed writes (R376) -/

/-- The queues, and which completion rings are blocked. -/
def blocking (s : State) : Sparse Queue × (Fin 64 → Bool) := (s.queues, fun c => s.cq[c].blocked)

theorem getQ_of_blocking {s t : State} (h : blocking s = blocking t) (id : Nat) : getQ s id = getQ t id := by
  have queues : s.queues = t.queues := congrArg Prod.fst h
  rw [getQ, queues, getQ]

theorem blocked_of_blocking {s t : State} (h : blocking s = blocking t) (c : Fin 64) : s.cq[c].blocked = t.cq[c].blocked :=
  congrFun (congrArg Prod.snd h) c

theorem blocking_modCq (s : State) (c : Fin 64) {f : Cq → Cq} (hf : ∀ x, (f x).blocked = x.blocked) :
    blocking (modCq s c f) = blocking s := by
  refine Prod.ext rfl (funext fun d => ?_)
  change (vmod s.cq c f)[d].blocked = s.cq[d].blocked
  rw [vmod_get]
  split
  · next same => rw [hf, same]
  · rfl

theorem blocking_signalCq (s : State) (c : Fin 64) : blocking (signalCq s c) = blocking s :=
  blocking_modCq (f := fun q => { q with unsignalled := 0 }) s c fun _ => rfl

theorem blocking_cqWrite (s : State) (c : Fin 64) (e : List Byte) : blocking (cqWrite s c e) = blocking s := by
  unfold cqWrite
  dsimp only
  split
  · exact (blocking_signalCq ..).trans (blocking_modCq _ c fun _ => rfl)
  · exact blocking_modCq _ c fun _ => rfl

theorem blocking_postNotice (s : State) (n : Notice) : blocking (postNotice s n) = blocking s := by
  unfold postNotice
  dsimp only
  split
  · exact blocking_modCq _ _ fun _ => rfl
  · split
    · exact blocking_cqWrite ..
    · rfl

theorem blocking_logFault (s : State) (d : Detect) (packets tickets : Nat) :
    blocking (logFault s d packets tickets) = blocking s := by
  unfold logFault
  dsimp only
  split
  · split <;> rfl
  · split
    · split <;> rfl
    · refine (blocking_postNotice ..).trans ?_
      split <;> rfl

theorem latch_logFault (s : State) (d : Detect) (packets tickets : Nat) :
    (logFault s d packets tickets).bear.latch = s.bear.latch ||| BitVec.ofNat 64 (2 ^ d.bit.val) := by
  obtain ⟨log, h⟩ := logFault_silent s d packets tickets
  exact congrArg (fun x : Vector Ridge 16 × Bear × List Long => x.2.1.latch) h

theorem dmaWriteError_once (t : DmaTarget) (s : State) : dmaWriteErrorEffect t false s = s := if_pos rfl

/-- What a write that failed again blocks. -/
def blockTarget (t : DmaTarget) (s : State) : State :=
  match t with
  | .queue id => modQ s id.toNat fun q => { q with blocked := true }
  | .completion c => modCq s c fun x => { x with blocked := true }
  | .other => s

/-- Outside the safe state a write that fails again blocks its target, and latches its fault. -/
theorem dmaWriteError_again (t : DmaTarget) {s : State} (hp : s.boot.por = false) (hb : bearSafe s = false) :
    blocking (dmaWriteErrorEffect t true s) = blocking (blockTarget t s) ∧
      (dmaWriteErrorEffect t true s).bear.latch.getLsbD 33 = true := by
  have effect : dmaWriteErrorEffect t true s = contained s ⟨33, 0, .contained, 0, 0, none, false, false⟩ (blockTarget t) := by
    simp only [dmaWriteErrorEffect, hp, Bool.not_true, Bool.or_self, Bool.false_eq_true, if_false]
    rfl
  rw [effect, contained, if_neg (Bool.eq_false_iff.mp hb)]
  refine ⟨blocking_logFault .., ?_⟩
  rw [latch_logFault, BitVec.getLsbD_or]
  exact Bool.or_eq_true_iff.mpr (.inr (by decide))

theorem after_blocking (s u : State) : blocking (after s u) = blocking u := by
  simp only [blocking, after, settle_queues, settle_cq]

end Sys2Proof.Machine
end

section
/-! Entries of completion rings, notices, interrupts and failed writes (R274 to R276, R376, R426, Table 11-7). -/

namespace Sys2Proof.Machine

/-- Settles O42: an entry by the bytes it writes and the fields it advances, each row by whether it has something to do. -/
theorem repliesAndNotices : Obligations.RepliesAndNotices := by
  refine ⟨?entry, fun s c n hn ho => congrArg (done s) (pendingNoticeWrite_writes hn ho),
    fun s c h => congrArg (done s) (pendingNoticeWrite_waits h),
    fun s c hd he hu ht => congrArg (done s) (cqIrqTimer_signals hd he hu ht),
    fun s c h => congrArg (done s) (cqIrqTimer_waits h), fun s t => congrArg (done s) (dmaWriteError_once t s), ?again⟩
  case entry =>
    intro s c e k hc he hk ht hn q a ha apart hwb t
    have entry : (padTo 16 e).length = 16 := length_padTo ..
    have cq : t.cq = _ := cqWrite_cq e ht hn
    have host : t.host = hostPut (hostPut s.host a (padTo 16 e)) q.wb.toNat (writeback (q.tail + 1)) := cqWrite_host e
    have wb (i : Nat) (hi : ¬(q.wb.toNat ≤ i ∧ i < q.wb.toNat + 8)) :
        hostByte t.host i = hostByte (hostPut s.host a (padTo 16 e)) i := by
      rw [host]
      exact hostByte_hostPut_outside _ (by rwa [length_writeback]) (by rwa [length_writeback])
    refine ⟨?_, ?_, ?_, fun d hd => ?_, fun i hi hi' => ?_⟩
    · rw [wb (a + k) (by omega), hostByte_hostPut_same hc.1 (by omega) (by omega), padTo_self he]
    · rw [cq, vmod_same]
    · rw [cq, vmod_same]
    · rw [cq, vmod_other _ _ _ _ hd.symm]
    · rw [wb i hi', hostByte_hostPut_outside _ (by omega) (by omega)]
  case again =>
    intro s t hp hb
    obtain ⟨blocks, latched⟩ := dmaWriteError_again t hp hb
    have blocked := (after_blocking s (dmaWriteErrorEffect t true s)).trans blocks
    refine ⟨_, done_eq s _, (congrArg (fun b => b.latch.getLsbD 33) (after_bear ..)).trans latched, ?_, ?_⟩
    · rintro id rfl hc
      rw [getQ_of_blocking blocked, blockTarget, getQ_modQ_same hc]
      rfl
    · rintro c rfl
      rw [blocked_of_blocking blocked]
      exact congrArg Cq.blocked (vmod_same s.cq c fun x => { x with blocked := true })

end Sys2Proof.Machine
end

section
/-! PACKET_FETCH (R271 to R274, R278, R280). -/

namespace Sys2Proof.Machine

section
variable {s : State} {q : Fin 64} {p : Packet}

theorem packetFetch_waits (e : Bool) (hf : canFetch s q p = false) : packetFetchEffect q p e s = s :=
  if_pos (by rw [hf]; rfl)

variable (hf : canFetch s q p = true)
include hf

theorem packetFetch_readError : packetFetchEffect q p true s =
    contained (modSq s q fun x => { x with stopped := true }) ⟨32, 0, .contained, 0, 0, none, false, false⟩ id :=
  (if_neg (by simp [hf])).trans (if_pos rfl)

theorem packetFetch_length (hlen : p.length = 0#16 ∨ 2 ^ s.sq[q].n < p.length.toNat) :
    packetFetchEffect q p false s = stopRing s q p BAD_LENGTH 0 fun x => { x with lenErr := true } :=
  (if_neg (by simp [hf])).trans ((if_neg Bool.false_ne_true).trans (if_pos hlen))

variable (hlen : ¬(p.length = 0#16 ∨ 2 ^ s.sq[q].n < p.length.toNat))
include hlen

theorem packetFetch_crc (hcrc : p.crc ≠ packetCrc p) :
    packetFetchEffect q p false s = stopRing s q p CRC_ERROR 0 fun x => { x with crcErr := true } :=
  (if_neg (by simp [hf])).trans ((if_neg Bool.false_ne_true).trans ((if_neg hlen).trans (if_pos hcrc)))

theorem packetFetch_seq (hcrc : p.crc = packetCrc p) (hseq : p.seq ≠ s.sq[q].seq) :
    packetFetchEffect q p false s = stopRing s q p BAD_PARAM s.sq[q].seq.toNat fun x => { x with seqErr := true } :=
  (if_neg (by simp [hf])).trans ((if_neg Bool.false_ne_true).trans ((if_neg hlen).trans ((if_neg (not_not.mpr hcrc)).trans
    (if_pos hseq))))

theorem packetFetch_taken (hcrc : p.crc = packetCrc p) (hseq : p.seq = s.sq[q].seq) :
    packetFetchEffect q p false s = cstoreStrike (routePacket (modSq (addTaken s q (packetTaken s q p)) q fun x =>
      { x with head := x.head + BitVec.ofNat 32 p.length.toNat, seq := x.seq + 1 }) q p (packetHdr p q s.sq[q].era none)) :=
  (if_neg (by simp [hf])).trans ((if_neg Bool.false_ne_true).trans ((if_neg hlen).trans ((if_neg (not_not.mpr hcrc)).trans
    (if_neg (not_not.mpr hseq)))))

end

/-- Settles O41: the packet at the head of a ring by the first of its checks that fails. -/
theorem packetFetch : Obligations.PacketFetch := by
  refine ⟨fun s q p e hf => congrArg (done s) (packetFetch_waits e hf), fun s q p hf => congrArg (done s) (packetFetch_readError hf),
    fun s q p hf hlen => congrArg (done s) (packetFetch_length hf hlen), fun s q p hf h0 hn => ?_⟩
  have hlen : ¬(p.length = 0#16 ∨ 2 ^ s.sq[q].n < p.length.toNat) := not_or.mpr ⟨h0, not_lt.mpr hn⟩
  exact ⟨fun hcrc => congrArg (done s) (packetFetch_crc hf hlen hcrc),
    fun hcrc hseq => congrArg (done s) (packetFetch_seq hf hlen hcrc hseq),
    fun hcrc hseq => congrArg (done s) (packetFetch_taken hf hlen hcrc hseq)⟩

end Sys2Proof.Machine
end

section
/-! SUPPORT. What a write of one ring register makes of its ring, and the words of BAR0 (R271 to R273, R276, R290, R425, R426). -/

namespace Sys2Proof.Machine

theorem modSq_congr {s : State} {q : Fin 64} {f g : Sq → Sq} (h : f s.sq[q] = g s.sq[q]) : modSq s q f = modSq s q g := by
  simp only [modSq, vmod, h]

theorem modCq_congr {s : State} {c : Fin 64} {f g : Cq → Cq} (h : f s.cq[c] = g s.cq[c]) : modCq s c f = modCq s c g := by
  simp only [modCq, vmod, h]

theorem modCq_modCq (s : State) (c : Fin 64) (f g : Cq → Cq) : modCq (modCq s c f) c g = modCq s c fun x => g (f x) := by
  simp [modCq, vmod]

/-! ### Submission rings (R271, R272, R273, R425) -/

section
variable {s : State} {q : Fin 64} {v : Word}

theorem doorbellWrite_taken (h1 : (s.sq[q].tail - s.sq[q].head).toNat ≤ (v - s.sq[q].head).toNat)
    (h2 : (v - s.sq[q].head).toNat ≤ 2 ^ s.sq[q].n) : doorbellWrite s q v = modSq s q fun x => { x with tail := v } :=
  modSq_congr (if_pos ⟨h1, h2⟩)

theorem doorbellWrite_refused
    (h : (v - s.sq[q].head).toNat < (s.sq[q].tail - s.sq[q].head).toNat ∨ 2 ^ s.sq[q].n < (v - s.sq[q].head).toNat) :
    doorbellWrite s q v = modSq s q fun x => { x with dbErr := true } :=
  modSq_congr (if_neg fun ⟨h1, h2⟩ => by omega)

theorem sqCtrlWrite_same (h : v.getLsbD 0 = s.sq[q].enabled) : sqCtrlWrite s q v = s := if_pos h

theorem sqCtrlWrite_disables (hv : v.getLsbD 0 = false) (he : s.sq[q].enabled = true) :
    sqCtrlWrite s q v = modSq s q fun x => { x with enabled := false } := by
  simp only [sqCtrlWrite, hv, he, Bool.false_eq_true, if_false, if_true]

theorem sqCtrlWrite_refused (hv : v.getLsbD 0 = true) (he : s.sq[q].enabled = false) (hc : s.cq[s.sq[q].cq].enabled = false) :
    sqCtrlWrite s q v = modSq s q fun x => { x with regErr := true } := by
  simp only [sqCtrlWrite, hv, he, hc, sqRefused, Bool.true_eq_false, Bool.false_eq_true, Bool.not_false, if_false, if_true]

theorem sqCtrlWrite_enables (hv : v.getLsbD 0 = true) (he : s.sq[q].enabled = false) (hc : s.cq[s.sq[q].cq].enabled = true) :
    sqCtrlWrite s q v = modSq s q fun x =>
      { x with enabled := true, stopped := false, era := x.era + 1, head := 0, tail := 0, seq := 0 } := by
  simp only [sqCtrlWrite, hv, he, hc, Bool.true_eq_false, Bool.false_eq_true, Bool.not_true, if_false]

end

/-! ### Completion rings (R276, R425, R426) -/

section
variable {s : State} {c : Fin 64} {v : Word}

theorem cqHeadReg_taken (h : (v - s.cq[c].head).toNat ≤ (s.cq[c].tail - s.cq[c].head).toNat) :
    cqHeadReg s c v = modCq s c fun x => { x with head := v } := modCq_congr (if_pos h)

theorem cqHeadReg_refused (h : (s.cq[c].tail - s.cq[c].head).toNat < (v - s.cq[c].head).toNat) :
    cqHeadReg s c v = modCq s c fun x => { x with headErr := true } := modCq_congr (if_neg (by omega))

theorem cqCfgWrite_outOfRange (hr : inRange 6 16 (bits v.toNat 4 0) = false) : cqCfgWrite s c v = cqRefused s c := by
  simp [cqCfgWrite, hr]

variable (hr : inRange 6 16 (bits v.toNat 4 0) = true)
include hr

/-- While the ring stays enabled its size and vector stand. -/
theorem cqCfgWrite_changes (he : s.cq[c].enabled = true) (hv : bit v.toNat 16 = true)
    (hd : bits v.toNat 4 0 ≠ s.cq[c].n ∨ Fin.ofNat 64 (bits v.toNat 13 8) ≠ s.cq[c].vector) : cqCfgWrite s c v = cqRefused s c := by
  simp only [cqCfgWrite, hr, he, hv, hd, Bool.not_true, Bool.and_self, Bool.false_eq_true, if_false, if_true]

theorem cqCfgWrite_same (he : s.cq[c].enabled = true) (hv : bit v.toNat 16 = true) (hn : bits v.toNat 4 0 = s.cq[c].n)
    (hd : Fin.ofNat 64 (bits v.toNat 13 8) = s.cq[c].vector) : cqCfgWrite s c v = s := by
  have same : ¬(bits v.toNat 4 0 ≠ s.cq[c].n ∨ Fin.ofNat 64 (bits v.toNat 13 8) ≠ s.cq[c].vector) :=
    fun differs => differs.elim (· hn) (· hd)
  simp only [cqCfgWrite, hr, he, hv, same, Bool.not_true, Bool.and_self, Bool.false_eq_true, if_false, if_true]

theorem cqCfgWrite_inUse (he : s.cq[c].enabled = true) (hv : bit v.toNat 16 = false) (hu : cqInUse s c = true) :
    cqCfgWrite s c v = cqRefused s c := by
  simp only [cqCfgWrite, hr, he, hv, hu, Bool.not_true, Bool.and_self, Bool.and_false, Bool.false_eq_true, if_false, if_true]

theorem cqCfgWrite_disables (hv : bit v.toNat 16 = false) (hu : s.cq[c].enabled = false ∨ cqInUse s c = false) :
    cqCfgWrite s c v = modCq s c fun x =>
      { x with n := bits v.toNat 4 0, vector := Fin.ofNat 64 (bits v.toNat 13 8), enabled := false } := by
  have free : (s.cq[c].enabled && cqInUse s c) = false := by simpa only [Bool.and_eq_false_iff] using hu
  simp only [cqCfgWrite, hr, hv, free, Bool.not_true, Bool.and_false, Bool.false_eq_true, if_false]

/-- A ring that becomes enabled is empty, and what waited for it is written. -/
theorem cqCfgWrite_enables (he : s.cq[c].enabled = false) (hv : bit v.toNat 16 = true) {u : State}
    (hu : u = each (List.finRange 64) deliver (modCq s c fun x =>
      { x with n := bits v.toNat 4 0, vector := Fin.ofNat 64 (bits v.toNat 13 8), enabled := true, head := 0, tail := 0,
               unsignalled := 0 })) :
    cqCfgWrite s c v = deliverNotices c u.link.notices.length u := by
  rw [hu]
  simp only [cqCfgWrite, hr, he, hv, modCq_modCq, Bool.not_true, Bool.false_and, Bool.false_eq_true, if_false, if_true]

end

/-! ### BAR0 (R290, Table 11-2) -/

section
variable {s : State} (hp : s.boot.por = false)
include hp

theorem bar0Write_window {i : Nat} (hi : i < 0x1A00) (v : Word) : bar0Write s (4 * i) v = windowWrite s i v.toNat := by
  have low : 4 * i < 0x6800 := by omega
  have word : 4 * i / 4 = i := by omega
  simp only [bar0Write, hp, low, word, Bool.false_eq_true, if_false, if_true]

theorem bar0Write_sq (q : Fin 64) (v : Word) {o : Nat} (ho : o < 64) (h4 : o % 4 = 0) :
    bar0Write s (0x10000 + 64 * q.val + o) v = sqWrite s q o v := by
  have hq := q.isLt
  have window : ¬0x10000 + 64 * q.val + o < 0x6800 := by omega
  have rings : 0x10000 ≤ 0x10000 + 64 * q.val + o ∧ 0x10000 + 64 * q.val + o < 0x11000 := by omega
  have ring : Fin.ofNat 64 ((0x10000 + 64 * q.val + o - 0x10000) / 64) = q := Fin.ext (by simp only [Fin.val_ofNat]; omega)
  have offset : (0x10000 + 64 * q.val + o) % 64 / 4 * 4 = o := by omega
  simp only [bar0Write, hp, Bool.false_eq_true, if_false, if_neg window, if_pos rings, ring, offset]

theorem bar0Write_cq (c : Fin 64) (v : Word) {o : Nat} (ho : o < 64) (h4 : o % 4 = 0) :
    bar0Write s (0x12000 + 64 * c.val + o) v = cqWriteReg s c o v := by
  have hc := c.isLt
  have window : ¬0x12000 + 64 * c.val + o < 0x6800 := by omega
  have submission : ¬(0x10000 ≤ 0x12000 + 64 * c.val + o ∧ 0x12000 + 64 * c.val + o < 0x11000) := by omega
  have rings : 0x12000 ≤ 0x12000 + 64 * c.val + o ∧ 0x12000 + 64 * c.val + o < 0x13000 := by omega
  have ring : Fin.ofNat 64 ((0x12000 + 64 * c.val + o - 0x12000) / 64) = c := Fin.ext (by simp only [Fin.val_ofNat]; omega)
  have offset : (0x12000 + 64 * c.val + o) % 64 / 4 * 4 = o := by omega
  simp only [bar0Write, hp, Bool.false_eq_true, if_false, if_neg window, if_neg submission, if_pos rings, ring, offset]

end

end Sys2Proof.Machine
end

section
/-! The registers of the rings (R271 to R273, R275, R276, R290, R425, R426). -/

namespace Sys2Proof.Machine

section
variable {s u : State}

/-- Out of reset the row of a ring register is a write of the register. -/
theorem done_outOfReset {v : State} (hp : s.boot.por = false) (hu : u = v) :
    done s (if s.boot.por then s else u) = .next (after s v) :=
  congrArg (done s) ((if_neg (Bool.eq_false_iff.mp hp)).trans hu)

theorem done_inReset (hp : s.boot.por = true) : done s (if s.boot.por then s else u) = .next (after s s) :=
  congrArg (done s) (if_pos hp)

end

/-- Settles O40: each row is a write of its register, which goes by what it finds in the ring. That a ring enabled again is no longer
stopped and that the registers are dead while POR_N is low are the model's choices, log entry 33; that replies come before notices is
log entry 25. -/
theorem ringRegisters : Obligations.RingRegisters := by
  refine ⟨?doorbell, ?sqCtrl, ?sqResume, ?cqCfg, ?cqHead, ?registerWrite, ?offsets, ?window, ?inReset⟩
  case doorbell =>
    intro s q v hp
    exact ⟨fun h1 h2 => done_outOfReset hp (doorbellWrite_taken h1 h2), fun h => done_outOfReset hp (doorbellWrite_refused h)⟩
  case sqCtrl =>
    intro s q v hp
    exact ⟨fun h => done_outOfReset hp (sqCtrlWrite_same h), fun hv he => done_outOfReset hp (sqCtrlWrite_disables hv he),
      fun hv he hc => done_outOfReset hp (sqCtrlWrite_refused hv he hc),
      fun hv he hc => done_outOfReset hp (sqCtrlWrite_enables hv he hc)⟩
  case sqResume =>
    intro s q v hp
    exact ⟨fun hv => done_outOfReset hp (if_pos hv), fun hv => done_outOfReset hp (if_neg (Bool.eq_false_iff.mp hv))⟩
  case cqCfg =>
    intro s c v hp n vec
    exact ⟨fun hr => done_outOfReset hp (cqCfgWrite_outOfRange hr),
      fun hr he hv hd => done_outOfReset hp (cqCfgWrite_changes hr he hv hd),
      fun hr he hv hn hd => done_outOfReset hp (cqCfgWrite_same hr he hv hn hd),
      fun hr he hv hu => done_outOfReset hp (cqCfgWrite_inUse hr he hv hu),
      fun hr he hv hu => done_outOfReset hp (cqCfgWrite_disables hr hv (.inr hu)),
      fun hr he hv => done_outOfReset hp (cqCfgWrite_disables hr hv (.inl he)),
      fun hr he hv => done_outOfReset hp (cqCfgWrite_enables hr he hv rfl)⟩
  case cqHead =>
    intro s c v hp
    exact ⟨fun h => done_outOfReset hp (cqHeadReg_taken h), fun h => done_outOfReset hp (cqHeadReg_refused h)⟩
  case registerWrite => exact fun s off v => done_eq s (bar0Write s off.toNat v)
  case offsets =>
    intro s q v hp
    exact ⟨bar0Write_sq hp q v (by decide) (by decide), bar0Write_sq hp q v (by decide) (by decide),
      bar0Write_cq hp q v (by decide) (by decide), bar0Write_cq hp q v (by decide) (by decide)⟩
  case window => exact fun s i v hp hi => bar0Write_window hp hi v
  case inReset =>
    intro s q v hp
    exact ⟨done_inReset hp, done_inReset hp, done_inReset hp, done_inReset hp, done_inReset hp⟩

end Sys2Proof.Machine
end

section
/-! SUPPORT. An entry of the fault log writes Bear, a free value, the count of corrected faults, and what its notice writes; it issues
no ticket and allocates no frame (R375, R377). -/

namespace Sys2Proof.Machine

/-- Nothing differs but what a reply, an entry of the fault log and its notice may write. -/
def OnlyLog (s t : State) : Prop :=
  t = { s with host := t.host, sq := t.sq, cq := t.cq, msix := t.msix, ring := t.ring, free := t.free, params := t.params,
               bear := t.bear, link := { s.link with notices := t.link.notices } }

theorem OnlyLog.trans {s t u : State} (h : OnlyLog s t) (k : OnlyLog t u) : OnlyLog s u := by
  unfold OnlyLog at *
  rw [k, h]

theorem OnlyReply.onlyLog {s t : State} (h : OnlyReply s t) : OnlyLog s t := by
  unfold OnlyReply at h
  rw [h]
  rfl

theorem onlyLog_postNotice (s : State) (n : Notice) : OnlyLog s (postNotice s n) := by
  unfold postNotice
  dsimp only
  split
  · rfl
  · split
    · exact (onlyReply_cqWrite ..).onlyLog
    · rfl

theorem onlyLog_logFault (s : State) (d : Detect) (packets tickets : Nat) : OnlyLog s (logFault s d packets tickets) := by
  unfold logFault
  by_cases hc : d.cls = .corrected
  · simp only [hc, if_true, true_and]
    split
    · rfl
    · split
      · rfl
      · refine OnlyLog.trans ?_ (onlyLog_postNotice ..)
        rfl
  · simp only [hc, if_false, false_and]
    split
    · rfl
    · refine OnlyLog.trans ?_ (onlyLog_postNotice ..)
      rfl

theorem OnlyLog.fields {s t : State} (h : OnlyLog s t) : t.boot = s.boot ∧ t.now = s.now ∧ t.flash = s.flash ∧
    t.sensors = s.sensors ∧ t.tickets = s.tickets ∧ t.link.inbox = s.link.inbox := by
  unfold OnlyLog at h
  rw [h]
  exact ⟨rfl, rfl, rfl, rfl, rfl, rfl⟩

theorem OnlyLog.booksNothing {s t : State} (h : OnlyLog s t) : BooksNothing s t := by
  unfold OnlyLog at h
  rw [h]
  exact ⟨rfl, rfl⟩

theorem BooksNothing.trans {s t u : State} (h : BooksNothing s t) (k : BooksNothing t u) : BooksNothing s u :=
  ⟨k.1.trans h.1, k.2.trans h.2⟩

theorem booksNothing_ensureTaken (s : State) (h : Hdr) (op : Nat) : BooksNothing s (ensureTaken s h op) :=
  ⟨ensureTaken_tickets .., ensureTaken_store ..⟩

end Sys2Proof.Machine
end

section
/-! Commands at the front of the queue, and packets that meet an injection on Badger (R390, Table 16-3, log entry 1). -/

namespace Sys2Proof.Machine

/-- Settles O1: a step looks at the front of the queue, and at whether what stands there is a command. That a term which is no
command faults is the model's choice, log entry 1. -/
theorem stepRunsFrontCommand : Obligations.StepRunsFrontCommand :=
  ⟨fun _ _ _ hp hw => (step_of_front hp).trans (if_pos hw),
    fun _ _ _ hp hw => (step_of_front hp).trans (if_neg (Bool.eq_false_iff.mp hw))⟩

/-! ### Injections on Badger -/

/-- Badger after one access of an injection on it: the access is used, and the fault is logged as injected. -/
def badgerStruck (s : State) : State := logFault (useInject s 28) ⟨28, 0, .contained, 0, 0, none, true, false⟩ 0 0

theorem onlyLog_badgerStruck (s : State) : OnlyLog s (badgerStruck s) :=
  OnlyLog.trans (t := useInject s 28) rfl (onlyLog_logFault ..)

/-- A packet that meets an injection on Badger ends with INTERNAL, whatever it asks for. -/
theorem command_injected {s : State} {h : Hdr} {w : Row} {d : Bool} (ht : canTake s h = true) (hi : injectOn s 28 = some d)
    (need : List Need) (body : State → State) :
    let u := badgerStruck (ensureTaken s h w.op)
    command s h w need body = refuse (tickFree u) h w.op INTERNAL (Config.microAddress u.free).toNat := by
  simp only [command, ht, injectOn_ensureTaken, hi, Bool.not_true, Bool.false_eq_true, if_false]
  rfl

/-- A row of Table 11-9 ends in what `command` makes of its packet, where that is the same for every body and books nothing. -/
theorem exec_of_command {c : Instr} {h : Hdr} {w : Row} {s v : State} (hp : packetRow c = some (h, w)) (hpor : s.boot.por = false)
    (hv : ∀ need body, command s h w need body = v) (hb : BooksNothing s v) : exec c s = .next (after s v) := by
  have untabled need body : done s (command s h w need body) = .next (after s v) := by rw [hv, done_eq]
  have loading need body : done s (martenWrite s (command s h w need body)) = .next (after s v) := by
    rw [hv, hb.martenWrite, done_eq]
  have booking need body : done s (martenWrite s (ticketWrite s (command s h w need body))) = .next (after s v) := by
    rw [hv, hb.ticketWrite, hb.martenWrite, done_eq]
  unfold packetRow at hp
  split at hp <;> cases hp
  -- PARAM_READ
  case h_3 => exact (congrArg (done s) (paramRead_packet hpor ..)).trans (untabled ..)
  -- SEG_LOAD
  case h_7 => exact loading ..
  -- EVENT_JUMP_ARM
  case h_16 =>
    change done s (eventJumpArmEffect _ _ _ _ s) = _
    unfold eventJumpArmEffect
    exact untabled ..
  -- MEASURE, TIME_MEASURE, CAPTURE_ARM, ACQ_ARM
  case h_17 | h_18 | h_19 | h_20 => exact booking ..
  all_goals exact untabled ..

/-- Settles O10: `command` looks for the injection before it looks at the packet, and the refusal books nothing. -/
theorem injectedPackets : Obligations.InjectedPackets := by
  intro c h w s d hp hpor ht hi u
  refine exec_of_command hp hpor (command_injected ht hi) ?_
  have struck : OnlyLog (ensureTaken s h w.op) (tickFree u) := (onlyLog_badgerStruck _).trans rfl
  exact (booksNothing_ensureTaken ..).trans (struck.trans (onlyReply_refuse ..).onlyLog).booksNothing

end Sys2Proof.Machine
end

section
/-! SUPPORT. What the state after a command keeps of its effect, what entries of the fault log leave of Bear, and ridges that one
operation changes in turn. -/

namespace Sys2Proof.Machine

theorem after_now (s u : State) : (after s u).now = u.now := by simp only [after, settle_now]
theorem after_host (s u : State) : (after s u).host = u.host := by simp only [after, settle_host]
theorem after_tickets (s u : State) : (after s u).tickets = u.tickets := by simp only [after, settle_tickets]
theorem after_sensors (s u : State) : (after s u).sensors = u.sensors := by simp only [after, settle_sensors]
theorem after_smons (s u : State) : (after s u).smons = u.smons := by simp only [after, settle_smons]
theorem after_pmons (s u : State) : (after s u).pmons = u.pmons := by simp only [after, settle_pmons]
theorem after_owl (s u : State) : (after s u).owl = u.owl := by simp only [after, settle_owl]
theorem after_ring (s u : State) : (after s u).ring = u.ring := by simp only [after, settle_ring]
theorem after_cairn (s u : State) : (after s u).cairn = u.cairn := by simp only [after, settle_cairn]

theorem now_of_quiet {s t : State} (h : quiet t = quiet s) : t.now = s.now := congrArg Quiet.now h
theorem smons_of_quiet {s t : State} (h : quiet t = quiet s) : t.smons = s.smons := congrArg Quiet.smons h
theorem owl_of_quiet {s t : State} (h : quiet t = quiet s) : t.owl = s.owl := congrArg Quiet.owl h
theorem cairn_of_quiet {s t : State} (h : quiet t = quiet s) : t.cairn = s.cairn := congrArg Quiet.cairn h

/-! ### Entries of the fault log (R375, R377, R383) -/

/-- A contained fault that rolls nothing back is an entry of the log alone. -/
theorem contained_id (s : State) (d : Detect) : contained s d id = logFault s d 0 0 := by
  simp only [contained, id, ite_self, Nat.sub_self]

/-- The source of an entry is latched. -/
theorem logFault_latches (s : State) (d : Detect) (packets tickets : Nat) :
    (logFault s d packets tickets).bear.latch.getLsbD d.bit.val = true := by
  rw [latch_logFault, BitVec.getLsbD_or, BitVec.getLsbD_ofNat]
  simp

/-- What is latched stays so. -/
theorem logFault_keeps_latch (s : State) (d : Detect) (packets tickets : Nat) {b : Nat} (h : s.bear.latch.getLsbD b = true) :
    (logFault s d packets tickets).bear.latch.getLsbD b = true := by
  rw [latch_logFault, BitVec.getLsbD_or, h, Bool.true_or]

theorem logFault_ridges (s : State) (d : Detect) (packets tickets : Nat) : (logFault s d packets tickets).ridges = s.ridges := by
  obtain ⟨log, h⟩ := logFault_silent s d packets tickets
  exact congrArg Prod.fst h

theorem logFault_recovCnt (s : State) (d : Detect) (packets tickets : Nat) :
    (logFault s d packets tickets).bear.recovCnt = s.bear.recovCnt := by
  obtain ⟨log, h⟩ := logFault_silent s d packets tickets
  exact congrArg (fun x : Vector Ridge 16 × Bear × List Long => x.2.1.recovCnt) h

/-! ### Operations on one ridge after another -/

theorem mem_allRidges (r : RidgeId) : r ∈ allRidges := List.mem_finRange r

/-- What a change brings about on each ridge of a list holds of all of them afterwards. -/
theorem each_modR_of_mem {P : Ridge → Prop} {g : State → Ridge → Ridge} (hg : ∀ s x, P (g s x)) {l : List RidgeId} {r : RidgeId}
    (s : State) (h : r ∈ l ∨ P s.ridges[r]) : P (each l (fun s q => modR s q (g s)) s).ridges[r] := by
  induction l generalizing s with
  | nil => exact h.resolve_left List.not_mem_nil
  | cons q l ih =>
    rw [each_cons]
    refine ih (modR s q (g s)) ?_
    rw [modR_ridge]
    by_cases hq : q = r
    · rw [if_pos hq]
      exact .inr (hg s _)
    · rw [if_neg hq]
      exact h.imp_left fun hm => (List.mem_cons.mp hm).resolve_left (Ne.symm hq)

end Sys2Proof.Machine
end

section
/-! SUPPORT. Temperatures and Owl (R357, R360, R367 to R371). -/

namespace Sys2Proof.Machine

/-! ### Owl's steps (R367, R369) -/

section
variable {s : State} {t0 : Nat} (hg : s.owl.graceAt = some t0) (ht : graceTicks s ≤ s.ticks - t0) (hm : 1000 ≤ thermMax s)
  (ho : s.owl.shutdown = false)
include hg ht hm ho

theorem owlGraceExpiry_request (hs : s.owl.state = .request) : owlGraceExpiryEffect s = owlStep s .step1 (owlSet s) := by
  simp [owlGraceExpiryEffect, hg, ht, hm, ho, hs]

theorem owlGraceExpiry_step1 (hs : s.owl.state = .step1) : owlGraceExpiryEffect s = owlStep s .step2 (owlSet s) := by
  simp [owlGraceExpiryEffect, hg, ht, hm, ho, hs]

end

/-- Every ridge of Owl's set asks for the factor. -/
theorem askFactor_ridge (s : State) (k : Nat) {r : RidgeId} (h : s.owl.set.getLsbD r.val = true) :
    (askFactor s k).ridges[r].owlNext = k :=
  each_modR_of_mem (P := fun x => x.owlNext = k) (g := fun _ x => { x with owlNext := k }) (fun _ _ => rfl) s
    (.inl (List.mem_filter.mpr ⟨mem_allRidges r, h⟩))

/-- Owl back in NORMAL. -/
def Owl.returned (o : Owl) : Owl := { o with state := .normal, set := 0, graceAt := none }

theorem owlRelease_cooled {s : State} {t0 : Nat} (hc : s.owl.coolAt = some t0) (ht : graceTicks s ≤ s.ticks - t0)
    (hs : s.owl.state ≠ .normal) (hb : anyBroken s = false) (ho : s.owl.shutdown = false) :
    owlReleaseEffect s = raise (modOwl (askFactor s 0) Owl.returned) 0xDB s.owl.set.toNat := by
  unfold owlReleaseEffect
  extract_lets cool
  have cooled : cool = true := by
    unfold cool
    rw [hc]
    exact decide_eq_true ht
  rw [if_neg (by simp [cooled, hs, hb, ho])]
  rfl

/-- Owl's set is empty, and its ridges ask for the factor of NORMAL. -/
theorem owlRelease_fields {s : State} {t0 : Nat} (hc : s.owl.coolAt = some t0) (ht : graceTicks s ≤ s.ticks - t0)
    (hs : s.owl.state ≠ .normal) (hb : anyBroken s = false) (ho : s.owl.shutdown = false) :
    (owlReleaseEffect s).owl = (askFactor s 0).owl.returned ∧ (owlReleaseEffect s).ridges = (askFactor s 0).ridges := by
  rw [owlRelease_cooled hc ht hs hb ho]
  obtain ⟨e, c, h⟩ := raise_eq (modOwl (askFactor s 0) Owl.returned) 0xDB s.owl.set.toNat
  rw [h]
  exact ⟨rfl, rfl⟩

/-! ### THERMAL_SHUTDOWN (R371) -/

/-- The ridges enter reset one after another. -/
def resetIslands (s : State) : State := each allRidges (fun s r => modR s r fun x => x.resetIsland s.ticks) s

theorem resetIslands_ridge (s : State) (r : RidgeId) :
    (resetIslands s).ridges[r].st = .unbound ∧ (resetIslands s).ridges[r].inReset = true :=
  each_modR_of_mem (P := fun x => x.st = .unbound ∧ x.inReset = true) (g := fun s x => x.resetIsland s.ticks) (fun _ _ => ⟨rfl, rfl⟩) s
    (.inl (mem_allRidges r))

theorem resetIslands_bear (s : State) : (resetIslands s).bear = s.bear :=
  each_ind (fun u => u.bear = s.bear) rfl fun _ _ h => h

theorem quiet_resetIslands (s : State) : quiet (resetIslands s) = quiet s := quiet_each _ _ _ fun _ _ => quiet_modR ..

/-- The shutdown is latched and logged. -/
def shutdownLogged (s : State) : State :=
  logFault (modOwl s fun o => { o with shutdown := true }) ⟨52, 0, .fatal, 0, 0, none, false, false⟩ 0 0

theorem thermalShutdown_trips {s : State} {k : Fin 24} (hk : s.sensors[k].compReleased = true) (ho : s.owl.shutdown = false)
    (hp : s.boot.por = false) :
    let u := resetIslands (shutdownLogged s)
    thermalShutdownEffect k s = { u with ports := Vector.replicate 16 Port.reset, tickets := [],
                                         link := { u.link with inbox := [], waits := [], longs := [], timed := [] } } := by
  unfold thermalShutdownEffect
  rw [if_neg (by rw [hk, ho, hp]; decide)]
  rfl

theorem thermalShutdown_fields {s : State} {k : Fin 24} (hk : s.sensors[k].compReleased = true) (ho : s.owl.shutdown = false)
    (hp : s.boot.por = false) :
    let u := thermalShutdownEffect k s
    u.owl.shutdown = true ∧ u.bear.latch.getLsbD 52 = true ∧ u.tickets = [] ∧
      ∀ r : RidgeId, u.ridges[r].st = .unbound ∧ u.ridges[r].inReset = true := by
  have owl : (resetIslands (shutdownLogged s)).owl.shutdown = true := by
    rw [owl_of_quiet (quiet_resetIslands _), shutdownLogged, owl_of_quiet (quiet_logFault ..)]
    rfl
  have latch : (resetIslands (shutdownLogged s)).bear.latch.getLsbD 52 = true := by
    rw [resetIslands_bear]
    exact logFault_latches ..
  rw [thermalShutdown_trips hk ho hp]
  exact ⟨owl, latch, rfl, resetIslands_ridge (shutdownLogged s)⟩

end Sys2Proof.Machine
end

section
/-! SUPPORT. The supply monitors (R360 to R362, R386). -/

namespace Sys2Proof.Machine

theorem smonBit_val (m : Fin 12) : (smonBit m).val = 40 + m.val := Nat.mod_eq_of_lt (by omega)

/-! ### SUPPLY_DIP (R362) -/

/-- A monitor whose input has dipped: its suspect window begins, and one that ended before is kept. -/
def Smon.dipped (x : Smon) (t : T64) : Smon :=
  { x with warn := true, suspectFrom := some t, suspectTo := none
           suspects := match x.suspectFrom, x.suspectTo with | some f, some e => (f, e) :: x.suspects | _, _ => x.suspects }

theorem supplyDip_opens {s : State} {m : Fin 12} (hr : s.smons[m].released = true) (hw : s.smons[m].warn = false)
    (hp : s.boot.por = false) (ho : s.owl.shutdown = false) :
    supplyDipEffect m s =
      logFault (raise (setBits (modSmon s m fun x => x.dipped (s.now - ticksFu (usTicks 1))) gSMONSTATUS (2 ^ (16 + m.val))) 0xD8 m.val)
        ⟨smonBit m, 1, .contained, 0, 0, none, false, false⟩ 0 0 :=
  (if_neg (by rw [hr, hw, hp, ho]; decide)).trans (contained_id ..)

theorem supplyDip_fields {s : State} {m : Fin 12} (hr : s.smons[m].released = true) (hw : s.smons[m].warn = false)
    (hp : s.boot.por = false) (ho : s.owl.shutdown = false) :
    (supplyDipEffect m s).smons[m] = s.smons[m].dipped (s.now - ticksFu (usTicks 1)) ∧ (supplyDipEffect m s).ridges = s.ridges := by
  rw [supplyDip_opens hr hw hp ho]
  constructor
  · rw [smons_of_quiet (quiet_logFault ..), smons_of_quiet (quiet_raise ..), smons_of_quiet (quiet_setBits ..)]
    exact vmod_same ..
  · rw [logFault_ridges]
    exact (raise_fields ..).1

/-! ### MONITOR_RELEASE and MONITOR_TIMEOUT (R360, R386) -/

theorem startQuiet_fields (s : State) : (startQuiet s).smons = s.smons ∧ (startQuiet s).bear.asserted = s.bear.asserted := by
  unfold startQuiet
  split <;> exact ⟨rfl, rfl⟩

/-- The monitor's input is clean, and its fatal source no longer asserted. -/
def supplyClean (s : State) (m : Fin 12) : State :=
  deassert (modSmon s m fun x => { x with released := true, resetLow := false }) (smonBit m)

theorem supplyClean_fields (s : State) (m : Fin 12) : (supplyClean s m).smons[m].released = true ∧
    (supplyClean s m).bear.asserted = s.bear.asserted &&& ~~~(BitVec.ofNat 64 (2 ^ (40 + m.val))) := by
  unfold supplyClean deassert
  rw [(startQuiet_fields _).1, (startQuiet_fields _).2, smonBit_val]
  exact ⟨congrArg Smon.released (vmod_same ..), rfl⟩

/-- The supplies follow their words; nothing else of the block moves but events. -/
theorem each_dpsApply (l : List RidgeId) (s : State) : (each l dpsApply s).smons = s.smons ∧ (each l dpsApply s).bear = s.bear := by
  refine each_ind (fun u => u.smons = s.smons ∧ u.bear = s.bear) ⟨rfl, rfl⟩ fun u n h => ?_
  obtain ⟨⟨d, e, c, hd⟩, -⟩ := onlySupply_dpsApply u n
  rw [hd]
  exact h

theorem monitorRelease_supply {s : State} {m : Fin 12} (hp : s.boot.por = false) (ho : s.owl.shutdown = false)
    (hr : s.smons[m].released = false) :
    monitorReleaseEffect (.supply m) s = if m = 9 then each allRidges dpsApply (supplyClean s m) else supplyClean s m := by
  unfold monitorReleaseEffect
  rw [if_neg (by simp [hp, ho])]
  exact if_neg (Bool.eq_false_iff.mp hr)

theorem monitorRelease_fields {s : State} {m : Fin 12} (hp : s.boot.por = false) (ho : s.owl.shutdown = false)
    (hr : s.smons[m].released = false) :
    (monitorReleaseEffect (.supply m) s).smons[m].released = true ∧ (monitorReleaseEffect (.supply m) s).bear.asserted =
      s.bear.asserted &&& ~~~(BitVec.ofNat 64 (2 ^ (40 + m.val))) := by
  rw [monitorRelease_supply hp ho hr]
  split
  · obtain ⟨smons, bear⟩ := each_dpsApply allRidges (supplyClean s m)
    obtain ⟨released, asserted⟩ := supplyClean_fields s m
    exact ⟨(congrArg (fun v : Vector Smon 12 => v[m].released) smons).trans released, (congrArg Bear.asserted bear).trans asserted⟩
  · exact supplyClean_fields s m

theorem monitorTimeout_logs {s : State} {m : Fin 12} (hp : s.boot.por = false) (ho : s.owl.shutdown = false)
    (hr : s.smons[m].released = false) (ht : s.smons[m].timedOut = false) (hl : s.smons[m].resetLow = false)
    (hs : msTicks 100 ≤ s.ticks - s.boot.since) :
    monitorTimeoutEffect m s =
      logFault (modSmon s m fun x => { x with timedOut := true }) ⟨smonBit m, 2, .contained, 0, 0, none, false, false⟩ 0 0 :=
  (if_neg (by rw [hr, ht, hl, hp, ho]; simp [hs])).trans (contained_id ..)

theorem monitorTimeout_fields {s : State} {m : Fin 12} (hp : s.boot.por = false) (ho : s.owl.shutdown = false)
    (hr : s.smons[m].released = false) (ht : s.smons[m].timedOut = false) (hl : s.smons[m].resetLow = false)
    (hs : msTicks 100 ≤ s.ticks - s.boot.since) :
    (monitorTimeoutEffect m s).smons[m].timedOut = true ∧ (monitorTimeoutEffect m s).bear.latch.getLsbD (40 + m.val) = true := by
  rw [monitorTimeout_logs hp ho hr ht hl hs]
  constructor
  · rw [smons_of_quiet (quiet_logFault ..)]
    exact congrArg Smon.timedOut (vmod_same ..)
  · rw [← smonBit_val]
    exact logFault_latches ..

end Sys2Proof.Machine
end

section
/-! SUPPORT. Recovery and resets (R164, R387 to R389, R402, R423, R424). -/

namespace Sys2Proof.Machine

/-! ### RECOVERY_COMPLETE (R387, R164) -/

theorem placeOne_bear (s : State) (t : Ticket) : (placeOne s t).bear = s.bear := by
  unfold placeOne
  dsimp only
  (repeat' split) <;> rfl

theorem replaceJobs_bear (s : State) : (replaceJobs s).bear = s.bear :=
  each_ind (fun u => u.bear = s.bear) rfl fun u t h => (placeOne_bear u t).trans h

/-- Bear at the end of a recovery. -/
def Bear.recovered (b : Bear) (t : T64) : Bear := { b with state := .normal, lastEnd := t, phyFault := false, cstoreFault := false }

theorem recoveryComplete_bear {s : State} (hs : s.bear.state = .recovering) (ho : s.owl.shutdown = false) :
    (recoveryCompleteEffect s).bear = s.bear.recovered s.now := by
  have words (u : State) : (each allRidges (fun s n => clrBits s (dpsW n 13) 512) u).bear = u.bear :=
    each_ind (fun v => v.bear = u.bear) rfl fun _ _ h => h
  rw [recoveryCompleteEffect, if_neg (by simp [hs, ho])]
  exact (replaceJobs_bear _).trans ((each_dpsApply ..).2.trans (words _))

/-! ### HOST_RESET (R389, R402, R423) -/

/-- An uncorrectable row of fuses is logged; nothing else comes of sensing them (R342). -/
theorem senseFuses_cases (s : State) :
    senseFuses s = logFault s ⟨38, 0, .contained, 0, 0, none, false, false⟩ 0 0 ∨ senseFuses s = s := by
  unfold senseFuses
  dsimp only
  split
  · exact .inl (contained_id ..)
  · exact .inr rfl

theorem onlyLog_senseFuses (s : State) : OnlyLog s (senseFuses s) := by
  rcases senseFuses_cases s with h | h <;> rw [h]
  · exact onlyLog_logFault ..
  · rfl

theorem senseFuses_recovCnt (s : State) : (senseFuses s).bear.recovCnt = s.bear.recovCnt := by
  rcases senseFuses_cases s with h | h <;> rw [h]
  exact logFault_recovCnt ..

theorem senseFuses_keeps_latch (s : State) {b : Nat} (hb : s.bear.latch.getLsbD b = true) :
    (senseFuses s).bear.latch.getLsbD b = true := by
  rcases senseFuses_cases s with h | h <;> rw [h]
  · exact logFault_keeps_latch _ _ _ _ hb
  · exact hb

theorem peerResetB_eq (s : State) (cs : List Nat) : ∃ c, peerResetB s cs = { s with cols := c } :=
  each_ind (fun u => ∃ c, u = { s with cols := c }) ⟨_, rfl⟩ fun u k ⟨c, h⟩ => by
    rw [h]
    exact ⟨_, rfl⟩

/-- The end of a host reset: the fuses are sensed, the cols are told, and the straps give their words. -/
def resetEnds (s : State) : State := strapWords (peerResetB (senseFuses s) aonCols)

theorem resetEnds_fields (s : State) :
    (resetEnds s).boot = s.boot ∧ (resetEnds s).now = s.now ∧ (resetEnds s).flash = s.flash ∧ (resetEnds s).sensors = s.sensors ∧
      (resetEnds s).tickets = s.tickets ∧ (resetEnds s).link.inbox = s.link.inbox ∧ (resetEnds s).bear = (senseFuses s).bear := by
  obtain ⟨boot, now, flash, sensors, tickets, inbox⟩ := (onlyLog_senseFuses s).fields
  obtain ⟨c, hc⟩ := peerResetB_eq (senseFuses s) aonCols
  rw [resetEnds, hc]
  exact ⟨boot, now, flash, sensors, tickets, inbox, rfl⟩

/-- The cols drop what is in flight on them; no ticket and no packet is there. -/
theorem colsDropped_fields (s : State) : let u := each aonCols (fun t c => modCol t c (Col.drop (flying s c))) State.reset
    u.tickets = [] ∧ u.link.inbox = [] :=
  each_ind (fun u => u.tickets = [] ∧ u.link.inbox = []) ⟨rfl, rfl⟩ fun _ _ h => h

/-- What a host reset leaves: STAGE 0 at T64 0, the flash, the sensors and Bear's memory as they were, no ticket and no packet. -/
theorem hostReset_fields {s : State} (z : Straps) (ho : s.owl.shutdown = false) :
    let t := hostReset s z
    t.boot.stage = 0 ∧ t.now = 0 ∧ t.flash = s.flash ∧ t.sensors = s.sensors ∧ t.bear.recovCnt = s.bear.recovCnt ∧
      (∀ b : Nat, s.bear.latch.getLsbD b = true → t.bear.latch.getLsbD b = true) ∧ t.tickets = [] ∧ t.link.inbox = [] := by
  unfold hostReset
  rw [if_neg (Bool.eq_false_iff.mp ho)]
  extract_lets lost boot₀ events₀ t u
  have dropped : lost.tickets = [] ∧ lost.link.inbox = [] := colsDropped_fields s
  clear_value lost
  obtain ⟨tickets, inbox⟩ := dropped
  obtain ⟨boot, now, flash, sensors, keepsTickets, keepsInbox, bear⟩ := resetEnds_fields t
  refine ⟨congrArg Boot.stage boot, now, flash, sensors, ?_, fun b hb => ?_, keepsTickets.trans tickets, keepsInbox.trans inbox⟩
  · exact (congrArg Bear.recovCnt bear).trans (senseFuses_recovCnt t)
  · exact (congrArg (fun x : Bear => x.latch.getLsbD b) bear).trans (senseFuses_keeps_latch t hb)

end Sys2Proof.Machine
end

section
/-! Sensors, supply monitors, Owl, event delivery, fatal sources, recovery and resets (R357, R360 to R363, R365, R367, R369, R371,
R386, R388, R404). -/

namespace Sys2Proof.Machine

/-! ### EVENT_DELIVERY (R365) -/

section
variable {s : State} (ho : s.owl.shutdown = false) (hp : s.boot.por = false)
include ho hp

theorem eventDelivery_col {c : Fin 47} {k : Nat} {e : EvtSrc} (hf : flightOf s c.val = some (k, e)) :
    eventDeliveryEffect (some c) s = nextRequest (deliverEvent s k e) c := by
  simp only [eventDeliveryEffect, ho, hp, hf, Bool.or_self, Bool.false_eq_true, if_false]

/-- AON delivers a source of its own. -/
theorem eventDelivery_aon {k : Nat} (hn : nextSrc s none = some k) :
    eventDeliveryEffect none s = deliverEvent { s with events := { s.events with
      src := sput evtDflt s.events.src k (evtDflt k), last := sput lastDflt s.events.last (colKey none) k } } k
      (sget evtDflt s.events.src k) := by
  simp only [eventDeliveryEffect, ho, hp, hn, Bool.or_self, Bool.false_eq_true, if_false]

end

/-! ### QUIET_PERIOD_END (R386, R388) -/

section
variable {s : State} {t0 : Nat} (hs : s.bear.state = .safe) (hq : s.bear.quietAt = some t0)
  (ht : msTicks (field s gFAULTCFG 13 0) ≤ s.ticks - t0) (ho : s.owl.shutdown = false)
include hs hq ht ho

theorem quietPeriodEnd_faults (h : field s gFAULTCFG 21 14 ≤ windowCount s ∨ s.bear.noRecovery = true) :
    quietPeriodEndEffect s = { s with bear := { s.bear with state := .faulted } } := by
  simp only [quietPeriodEndEffect, hs, hq]
  rw [if_neg (not_or.mpr ⟨Nat.not_lt.mpr ht, Bool.eq_false_iff.mp ho⟩), if_pos h]

theorem quietPeriodEnd_recovers (hw : windowCount s < field s gFAULTCFG 21 14) (hn : s.bear.noRecovery = false) :
    quietPeriodEndEffect s = recover s := by
  simp only [quietPeriodEndEffect, hs, hq]
  rw [if_neg (not_or.mpr ⟨Nat.not_lt.mpr ht, Bool.eq_false_iff.mp ho⟩),
    if_neg (not_or.mpr ⟨Nat.not_le.mpr hw, Bool.eq_false_iff.mp hn⟩)]

end

/-- Settles O60: each row by whether its condition has come, and by what its effect leaves in the unit it speaks of. T64 = 0 and what
a host reset keeps are the model's choices, log entry 43; so are what a broken sensor does to Owl, log entry 41, and the request that
follows a delivery, log entry 26. -/
theorem monitorsEventsAndResets : Obligations.MonitorsEventsAndResets := by
  refine ⟨?conversion, ?recover, ?grace, ?release, ?shutdown, ?supply, ?suspect, ?monitor, ?pmon, ?col, ?aon, ?sources, ?park, ?quiet,
    ?complete, ?host, ?por, ?ridge⟩
  case conversion =>
    intro s k v hp hb ok u
    have converts : tempConversionEffect k v s = if 3 ≤ u.sensors[k].bad then sensorBreaks u k else owlSee u :=
      (if_neg (Bool.eq_false_iff.mp hp)).trans (if_neg (Bool.eq_false_iff.mp hb))
    exact ⟨fun h => congrArg (done s) (converts.trans (if_pos h)), fun h => congrArg (done s) (converts.trans (if_neg (by omega)))⟩
  case recover => exact fun s k hb ht => congrArg (done s) (if_pos ⟨hb, ht⟩)
  case grace =>
    intro s t0 hg ht hm ho
    exact ⟨fun hs => congrArg (done s) (owlGraceExpiry_request hg ht hm ho hs),
      fun hs => congrArg (done s) (owlGraceExpiry_step1 hg ht hm ho hs)⟩
  case release =>
    intro s t0 hc ht hs hb ho
    obtain ⟨owl, ridges⟩ := owlRelease_fields hc ht hs hb ho
    refine ⟨_, done_eq s (owlReleaseEffect s), ?_⟩
    rw [after_owl, after_ridges, owl, ridges]
    exact ⟨rfl, rfl, fun r hr => askFactor_ridge s 0 hr⟩
  case shutdown =>
    intro s k hk ho hp
    refine ⟨_, done_eq s (thermalShutdownEffect k s), ?_⟩
    rw [after_owl, after_bear, after_tickets, after_ridges]
    exact thermalShutdown_fields hk ho hp
  case supply =>
    intro s m hr hp ho
    refine ⟨congrArg (done s) (if_neg (by rw [hr, hp, ho]; decide)), fun hw => ⟨_, done_eq s (supplyDipEffect m s), ?_⟩⟩
    obtain ⟨smon, ridges⟩ := supplyDip_fields hr hw hp ho
    rw [after_smons, after_ridges, smon, ridges]
    exact ⟨rfl, rfl, rfl, rfl⟩
  case suspect =>
    intro s m hw
    refine ⟨_, done_eq s (suspectWindowEndEffect m s), ?_⟩
    rw [after_smons, suspectWindowEndEffect, if_pos hw]
    exact ⟨congrArg Smon.warn (vmod_same ..), congrArg Smon.suspectTo (vmod_same ..)⟩
  case monitor =>
    intro s hp ho
    refine ⟨fun k => ⟨_, done_eq s (monitorReleaseEffect (.comparator k) s), ?_⟩,
      fun m hr => ⟨_, done_eq s (monitorReleaseEffect (.supply m) s), ?_⟩,
      fun m hr ht hl hs => ⟨_, done_eq s (monitorTimeoutEffect m s), ?_⟩⟩
    · rw [after_sensors, monitorReleaseEffect, if_neg (by rw [hp, ho]; decide)]
      exact congrArg Sensor.compReleased (vmod_same ..)
    · rw [after_smons, after_bear]
      exact monitorRelease_fields hp ho hr
    · rw [after_smons, after_bear]
      exact monitorTimeout_fields hp ho hr ht hl hs
  case pmon =>
    intro s counts hp
    refine ⟨_, done_eq s (pmonGateEffect counts s), fun k => ?_⟩
    rw [after_pmons, pmonGateEffect, if_neg (Bool.eq_false_iff.mp hp)]
    exact Vector.getElem_ofFn ..
  case col => exact fun s c k e ho hp hf => congrArg (done s) (eventDelivery_col ho hp hf)
  case aon => exact fun s k ho hp hn => congrArg (done s) (eventDelivery_aon ho hp hn)
  case sources =>
    intro s hp
    exact ⟨fun b => congrArg (done s) (if_neg (Bool.eq_false_iff.mp hp)),
      fun ho => congrArg (done s) (if_neg (by rw [hp, ho]; decide)),
      fun ho hu => congrArg (done s) (if_neg (by rw [hp, ho, hu]; decide))⟩
  case park => exact fun s hs ht => congrArg (done s) (if_pos ⟨hs, ht⟩)
  case quiet =>
    intro s t0 hs hq ht ho
    refine ⟨fun h => ⟨_, done_eq s (quietPeriodEndEffect s), ?_⟩,
      fun hw hn => congrArg (done s) (quietPeriodEnd_recovers hs hq ht ho hw hn)⟩
    rw [after_bear, quietPeriodEnd_faults hs hq ht ho h]
    exact ⟨rfl, rfl⟩
  case complete =>
    intro s hs ho
    refine ⟨_, done_eq s (recoveryCompleteEffect s), ?_⟩
    rw [after_bear, recoveryComplete_bear hs ho]
    exact ⟨rfl, rfl⟩
  case host =>
    intro s z ho hp
    have resets : hostResetEffect none z s = hostReset s z := if_neg (Bool.eq_false_iff.mp hp)
    refine ⟨_, done_eq s (hostResetEffect none z s), ?_⟩
    rw [after_boot, after_now, after_flash, after_sensors, after_bear, after_tickets, after_link, resets]
    exact hostReset_fields z ho
  case por =>
    intro s
    refine ⟨_, done_eq s (porNAssertEffect s), ?_⟩
    rw [after_boot, after_bear, after_flash, after_owl, after_host]
    exact ⟨rfl, rfl, rfl, rfl, rfl, rfl⟩
  case ridge => exact fun s r hr ht => congrArg (done s) (if_pos ⟨hr, ht⟩)

end Sys2Proof.Machine
end

section
/-! SUPPORT. What Cairn's frames, loads, pulses and echoes leave of Cairn's state (R304 to R313). -/

namespace Sys2Proof.Machine

/-- The report of an exception moves neither the time, Cairn's state nor the ring. -/
theorem reported_fields (p : Prop) [Decidable p] (s : State) (i m src payload : Nat) :
    let t := if p then s else raise (setBits s i m) src payload
    t.now = s.now ∧ t.cairn = s.cairn ∧ t.ring = s.ring := by
  obtain ⟨e, c, h⟩ := raise_eq (setBits s i m) src payload
  intro t
  unfold t
  rw [h]
  split <;> exact ⟨rfl, rfl, rfl⟩

/-! ### Frames (R304 to R307) -/

theorem quiet_syncReply_eq (s : State) : quiet (syncReply s) = quiet s := by
  unfold syncReply
  split
  · exact quiet_replyDone ..
  · rfl

/-- A DLY that waited is in force; the time and the rest of Cairn's state are as they were. -/
theorem adoptDly_fields (s : State) : (adoptDly s).cairn = { s.cairn with dlyNext := none } ∧ (adoptDly s).now = s.now ∧
    (adoptDly s).ticks = s.ticks := by
  unfold adoptDly
  split
  · dsimp only
    (repeat' split) <;> exact ⟨rfl, rfl, rfl⟩
  · next h =>
    rw [← h]
    dsimp only
    (repeat' split) <;> exact ⟨rfl, rfl, rfl⟩

/-- ROOT and PERIOD as last written are in force. -/
def cfgInForce (s : State) : State :=
  modCairn s fun c => { c with root := true, period := BitVec.ofNat 14 (bits (word s gCAIRNCFG) 29 16) }

theorem cairnFrameSend_sends {s : State} (hp : s.boot.por = false) (hr : s.cairn.root = true) (hb : bit (word s gCAIRNCFG) 0 = true)
    (he : coarse s.now % cairnTicks s.cairn.period = 0) :
    cairnFrameSendEffect s = syncReply (adoptDly (putFrame (cfgInForce s)
      (makeFrame (BitVec.ofNat 48 (coarse s.now / cairnTicks s.cairn.period)) (cfgInForce s).cairn.period))) := by
  simp only [cairnFrameSendEffect, hp, hr, hb, he, Bool.not_true, bne_self_eq_false, Bool.or_self, Bool.false_eq_true,
    if_true, if_false]
  rfl

/-- Each driven output carries the frame. -/
def Cairn.sending (c : Cairn) (d0 d1 : Bool) (f : CairnFrame) : Cairn :=
  { c with sent := f.epoch, out0 := if d0 then some f else c.out0, out1 := if d1 then some f else c.out1 }

theorem cairnFrameSend_fields {s : State} (hp : s.boot.por = false) (hr : s.cairn.root = true) (hb : bit (word s gCAIRNCFG) 0 = true)
    (he : coarse s.now % cairnTicks s.cairn.period = 0) :
    let f := makeFrame (BitVec.ofNat 48 (coarse s.now / cairnTicks s.cairn.period)) (BitVec.ofNat 14 (bits (word s gCAIRNCFG) 29 16))
    (cairnFrameSendEffect s).now = s.now ∧ (cairnFrameSendEffect s).cairn =
      { s.cairn.sending (drives s false) (drives s true) f with root := true, period := f.period, dlyNext := none } := by
  intro f
  obtain ⟨cairn, now, -⟩ := adoptDly_fields (putFrame (cfgInForce s) f)
  rw [cairnFrameSend_sends hp hr hb he, now_of_quiet (quiet_syncReply_eq _), cairn_of_quiet (quiet_syncReply_eq _)]
  exact ⟨now, cairn⟩

theorem frameValid_makeFrame (e : BitVec 48) (p : BitVec 14) {s : State} {stamp : T64} (h : inEcho s stamp = false) :
    frameValid s (makeFrame e p) 0 stamp = true := by
  simp [frameValid, makeFrame, h]

theorem cairnFrameReceive_invalid {s : State} {f : CairnFrame} {reserved : BitVec 2} {stamp : T64} (hp : s.boot.por = false)
    (hr : s.cairn.root = false) (hv : frameValid s f reserved stamp = false) :
    cairnFrameReceiveEffect f reserved stamp s = setBits s gCAIRNSTATUS 8 :=
  (if_neg (by rw [hp, hr]; decide)).trans (if_pos (by rw [hv]; decide))

/-- A valid frame is recorded, with the correction that it gives. -/
theorem cairnFrameReceive_valid {s : State} {f : CairnFrame} {reserved : BitVec 2} {stamp : T64} (hp : s.boot.por = false)
    (hr : s.cairn.root = false) (hv : frameValid s f reserved stamp = true) :
    let c := (cairnFrameReceiveEffect f reserved stamp s).cairn
    c.fed = true ∧ c.epoch = f.epoch ∧ c.period = f.period ∧ c.lastFrame = s.ticks ∧ c.load = some (stamp + ticksFu 256,
      timeDiff (epochTime f.epoch f.period + BitVec.ofInt 64 (dlyNow (adoptDly s))) stamp) := by
  unfold cairnFrameReceiveEffect
  rw [if_neg (by rw [hp, hr]; decide), if_neg (by rw [hv]; decide)]
  extract_lets u target d taken noted c
  have marked : noted.cairn = taken.cairn := (cairn_of_quiet (quiet_raise ..)).trans (cairn_of_quiet (quiet_putWord ..))
  have ends : c = noted.cairn := (cairn_of_quiet (quiet_syncReply_eq _)).trans (cairn_of_quiet (quiet_cairnPairs ..))
  rw [ends, marked]
  exact ⟨rfl, rfl, rfl, (adoptDly_fields s).2.2, rfl⟩

/-! ### Loads, relaunches and missed frames (R306 to R308, R399) -/

/-- T64 as a load of d leaves it. -/
def timeLoaded (s : State) (d : Int) : State :=
  modCairn { s with now := s.now + BitVec.ofInt 64 d } fun c => { c with load := none, stepHeld := false, locked := true }

section
variable {s : State} {t0 : T64} {d : Int} (hl : s.cairn.load = some (t0, d)) (hr : reached s.now t0 = true)
include hl hr

theorem cairnLoad_moves (h : d.natAbs ≤ 64 ∨ timeIdle s = true) :
    cairnLoadEffect none s =
      if decide (d.natAbs ≤ 64) = true then timeLoaded s d else raise (setBits (timeLoaded s d) gCAIRNSTATUS 16) 0xD4 0 := by
  have goes : ¬(!decide (d.natAbs ≤ 64) && !timeIdle s) = true := by
    rcases h with h | h <;> simp [h]
  simp only [cairnLoadEffect, hl, hr, Bool.not_true, Bool.false_eq_true, if_false]
  exact if_neg goes

theorem cairnLoad_held (hd : 64 < d.natAbs) (hi : timeIdle s = false) :
    cairnLoadEffect none s = modCairn s fun c => { c with load := none, stepHeld := true, locked := false } := by
  have held : (!decide (d.natAbs ≤ 64) && !timeIdle s) = true := by simp [hi, hd]
  simp only [cairnLoadEffect, hl, hr, Bool.not_true, Bool.false_eq_true, if_false]
  exact if_pos held

end

theorem cairnRelaunch_due {s : State} {t0 : T64} (hl : s.cairn.relaunch = some t0) (hr : reached s.now t0 = true) :
    cairnRelaunchEffect s =
      putFrame (modCairn s fun c => { c with relaunch := none }) (makeFrame s.cairn.epoch s.cairn.period) := by
  simp only [cairnRelaunchEffect, hl, hr, if_true]

/-! ### Pulses and echoes (R310 to R312) -/

section
variable {s : State} {parent output : Byte} (hp : s.boot.por = false) (hm : midHalf s s.now = true)
include hp hm

/-- The device that is named as parent pulses its output. -/
theorem discoveryPulse_drives (he : s.ring.enumerated = true) (hn : parent.toNat = s.ring.position.toNat)
    (free : ∀ t0, (if output.getLsbD 0 then s.cairn.pulse0 else s.cairn.pulse1) = some t0 → oneWindow s (usTicks 2) s.now t0 = false) :
    discoveryPulseEffect parent output s = drivePulse s (output.getLsbD 0) s.now := by
  unfold discoveryPulseEffect
  extract_lets k other taken
  have clear : taken = false := by
    have free : ∀ t0, other = some t0 → oneWindow s (usTicks 2) s.now t0 = false := free
    unfold taken
    clear_value other
    cases other with
    | some t => exact free t rfl
    | none => rfl
  rw [if_neg (by rw [hp, hm]; decide), if_pos (by simp [he, hn]), clear]
  rfl

/-- Any other device sees the pulse. -/
theorem discoveryPulse_seen (h : s.ring.enumerated = false ∨ parent.toNat ≠ s.ring.position.toNat) :
    discoveryPulseEffect parent output s = seePulse parent output s := by
  have other : (s.ring.enumerated && parent.toNat == s.ring.position.toNat) = false := by
    rcases h with h | h <;> simp [h]
  unfold discoveryPulseEffect
  rw [if_neg (by rw [hp, hm]; decide), if_neg (Bool.eq_false_iff.mp other)]

end

/-- A member that has a parent in the ring. -/
def fedBy (m : Member) (parent output : Byte) : Member :=
  { m with parent := parent, output := output, extParent := false, unfed := false }

theorem seePulse_follower {s : State} (parent output : Byte) (hr : s.cairn.root = false) :
    seePulse parent output s = modMember (modCairn s fun c => { c with extParent := false, seen := some (parent, output) })
      s.ring.position.toNat fun m => fedBy m parent output :=
  if_neg (Bool.eq_false_iff.mp hr)

/-- The record of the member that changed. -/
theorem modMember_same {s : State} {k : Nat} {f : Member → Member} {m : Member} (h : (modMember s k f).ring.members[k]? = some m) :
    ∃ m₀, m = f m₀ := by
  have h' : (s.ring.members.modify k f)[k]? = some m := h
  rw [List.getElem?_modify_eq] at h'
  obtain ⟨m₀, -, hm⟩ := Option.map_eq_some_iff.mp h'
  exact ⟨m₀, hm.symm⟩

theorem echoTurnaround_due {s : State} {u : T64} (he : s.cairn.echo = some u) (hr : reached s.now (u + 65536#64) = true) :
    echoTurnaroundEffect s = modCairn s fun c => { c with echo := none, echoOut := some (u + 65536#64) } := by
  simp only [echoTurnaroundEffect, he, hr, if_true]

/-- An echo before the sixteenth joins the sum. -/
theorem hopStep_adds {n : Nat} (h : n < 15) (sum val d : Int) : hopStep (n, sum) val d = ((n + 1, sum + d), val) :=
  if_neg (Nat.ne_of_lt h)

/-- The sixteenth echo gives the hop value. -/
theorem hopStep_ends (sum val d : Int) : hopStep (15, sum) val d = ((0, 0), nearest (sum + d) 32) := if_pos rfl

theorem echoReturn_comes {s : State} {driven returned : T64} (hp : s.boot.por = false) (hr : reached s.now returned = true)
    (h1 : midHalf s driven = true) (h2 : midHalf s returned = true) (hw : oneWindow s (usTicks 1) returned driven = true) :
    let step := hopStep s.cairn.hop1 s.cairn.hopVal1 (timeDiff returned driven - 65536 - Config.echoPath true)
    (echoReturnEffect true driven returned s).cairn =
      { s.cairn with pulse1 := some driven, hop1 := step.1, hopVal1 := step.2 } := by
  rw [echoReturnEffect, if_neg (by rw [hp, hr, h1, h2, hw]; decide)]
  rfl

end Sys2Proof.Machine
end

section
/-! SUPPORT. The tree as SYNC_CAL and tracking know it, and the DLY values that they send (R300, R305, R306, R312, R313). -/

namespace Sys2Proof.Machine

/-- The DLY values depend on the members, their hops and their external offsets alone. -/
theorem treeDlys_congr {s t : State} (hm : t.ring.members = s.ring.members) (hp : t.ring.position = s.ring.position)
    (hh : t.cairn.hops = s.cairn.hops) (hr : t.cairn.root = s.cairn.root) (he : t.cairn.exts = s.cairn.exts)
    (hw : t.params = s.params) : treeDlys t = treeDlys s := by
  have base : extBase t = extBase s := funext fun k => by simp only [extBase, hp, hr, he, word_of_params hw]
  simp only [treeDlys, hm, hh, base]

theorem treeDlys_after (s u : State) : treeDlys (after s u) = treeDlys u := by
  have params : (after s u).params = u.params := by simp only [after, settle_params]
  apply treeDlys_congr
  case hw => exact params
  all_goals simp only [after_ring, after_cairn]

theorem sendRing_cairn (s : State) (dest : Option Nat) (m : RingMsg) : (sendRing s dest m).cairn = s.cairn :=
  cairn_of_quiet (quiet_sendRing ..)

/-- A message to every member leaves by RING_B while its link is up. -/
theorem sendRing_forward {s : State} (hb : s.ring.bUp = true) (m : RingMsg) : sendRing s none m = frameOut s true m := by
  simp only [sendRing, forwardPort, hb, if_true]

theorem frameOut_outbox (s : State) (portB : Bool) (m : RingMsg) :
    (frameOut s portB m).ring.outbox.map (·.msg) = s.ring.outbox.map (·.msg) ++ [m] := List.map_append ..

/-! ### BG_TRACK_ECHO (R313) -/

/-- The epoch of this tracking. -/
def tracking (s : State) : State := modCairn s fun c => { c with trackAt := BitVec.ofNat 48 (lastEpoch s) }

/-- The device takes its own value of the list, within 9 of what SYNC_CAL left. -/
def takeTracked (vals : List Word) (s : State) : State :=
  match vals[s.ring.position.toNat]? with
  | none => s
  | some v =>
    let d := clampI (s.cairn.dlyBase - 9) (s.cairn.dlyBase + 9) v.toInt
    let s := modCairn s fun c => { c with dlyNext := some d }
    if d = v.toInt then s else raise (setBits s gCAIRNSTATUS 32) 0xD6 0

theorem takeTracked_some {vals : List Word} {s : State} {v : Word} (hv : vals[s.ring.position.toNat]? = some v) :
    (takeTracked vals s).cairn.dlyNext = some (clampI (s.cairn.dlyBase - 9) (s.cairn.dlyBase + 9) v.toInt) := by
  simp only [takeTracked, hv]
  rw [(reported_fields ..).2.1]
  rfl

theorem takeTracked_fields (vals : List Word) (s : State) :
    (takeTracked vals s).cairn.hops = s.cairn.hops ∧ (takeTracked vals s).ring = s.ring := by
  unfold takeTracked
  split
  · exact ⟨rfl, rfl⟩
  · extract_lets d u
    obtain ⟨-, cairn, ring⟩ := reported_fields (d = _) u gCAIRNSTATUS 32 0xD6 0
    rw [cairn, ring]
    exact ⟨rfl, rfl⟩

section
variable {s : State} (hp : s.boot.por = false) (hc : isSet s gCAIRNCFG 1 = true) (hd : s.cairn.discovered = true)
  (ht : s.cairn.trackAt.toNat + 64 ≤ lastEpoch s) (hops dly : List Word)
include hp hc hd ht

theorem bgTrackEcho_runs :
    bgTrackEchoEffect hops dly s =
      if s.boot.straps.mstr && s.ring.enumerated then
        let u := gatherHops (tracking s) hops
        takeTracked (treeDlys u) (sendRing u none (.dly [] (treeDlys u)))
      else takeTracked dly (tracking s) := by
  rw [bgTrackEchoEffect, if_neg (by rw [hp, hc, hd]; simp [ht])]
  dsimp only
  cases s.boot.straps.mstr && s.ring.enumerated <;> rfl

theorem bgTrackEcho_member {v : Word} (hm : s.boot.straps.mstr = false) (hv : dly[s.ring.position.toNat]? = some v) :
    (bgTrackEchoEffect hops dly s).cairn.dlyNext = some (clampI (s.cairn.dlyBase - 9) (s.cairn.dlyBase + 9) v.toInt) := by
  rw [bgTrackEcho_runs hp hc hd ht, if_neg (by simp [hm])]
  exact takeTracked_some hv

theorem bgTrackEcho_summit (hm : s.boot.straps.mstr = true) (he : s.ring.enumerated = true) (hb : s.ring.bUp = true) :
    let u := gatherHops s hops
    (bgTrackEchoEffect hops dly s).cairn.hops = u.cairn.hops ∧ (bgTrackEchoEffect hops dly s).ring.outbox.map (·.msg) =
      s.ring.outbox.map (·.msg) ++ [.dly [] (treeDlys u)] := by
  intro u
  have dlys : treeDlys (gatherHops (tracking s) hops) = treeDlys u := treeDlys_congr rfl rfl rfl rfl rfl rfl
  rw [bgTrackEcho_runs hp hc hd ht, if_pos (by rw [hm, he]; rfl)]
  dsimp only
  rw [sendRing_forward (s := gatherHops (tracking s) hops) hb, (takeTracked_fields ..).1, (takeTracked_fields ..).2, dlys]
  exact ⟨rfl, frameOut_outbox ..⟩

end

theorem clampI_bounds (b v : Int) : b - 9 ≤ clampI (b - 9) (b + 9) v ∧ clampI (b - 9) (b + 9) v ≤ b + 9 ∧
    (b - 9 ≤ v → v ≤ b + 9 → clampI (b - 9) (b + 9) v = v) := by
  unfold clampI
  omega

/-! ### SYNC_CAL and SYNC_CAL_DONE (R312) -/

/-- The job of a SYNC_CAL. -/
def isSyncCal : LongJob → Bool
  | .syncCal _ _ => true
  | _ => false

theorem syncCalDone_summit {s : State} {l : Long} {o : Byte} (is : List SyncInfo) (vals : List Word) (hs : Live s)
    (hl : findLong s isSyncCal = some l) (hj : l.job = .syncCal o false) :
    ∃ longs, syncCalDoneEffect is vals s = syncCollect is o { s with link := { s.link with longs := longs } } := by
  obtain ⟨safe, shutdown⟩ := hs
  unfold syncCalDoneEffect
  split
  · next l' hl' =>
    obtain rfl : l' = l := Option.some.inj (hl'.symm.trans hl)
    split
    · next o' sent hj' =>
      rw [hj] at hj'
      cases hj'
      rw [if_neg (by rw [safe, shutdown]; decide)]
      exact ⟨_, rfl⟩
    · next other => exact absurd hj (other o false)
  · next hn => exact absurd (hn.symm.trans hl) nofun

theorem syncCalDone_member {s : State} {v : Word} (is : List SyncInfo) {vals : List Word} (hp : s.boot.por = false)
    (hm : s.boot.straps.mstr = false) (he : s.ring.enumerated = true) (hv : vals[s.ring.position.toNat]? = some v)
    (hl : findLong s isSyncCal = none) :
    syncCalDoneEffect is vals s =
      newDly v.toInt (if is = [] then s else gatherHops (learnTree (withOwn s is) s) (is.map fun i => i.hop)) := by
  unfold syncCalDoneEffect
  split
  · next hl' => exact absurd (hl'.symm.trans hl) nofun
  · rw [if_neg (by rw [hp, hm, he]; decide)]
    have own : (if is = [] then s else gatherHops (learnTree (withOwn s is) s) (is.map fun i => i.hop)).ring.position =
        s.ring.position := by
      split <;> rfl
    dsimp only
    rw [own, hv]

/-- What the Summit has collected: the tree where it was discovered, the hops where they were measured. -/
def collected (is : List SyncInfo) (o : Byte) (s : State) : State :=
  let s := if o.getLsbD 0 then learnTree is s else s
  if o.getLsbD 1 then gatherHops s (is.map fun i => i.hop) else s

theorem collected_discovered (is : List SyncInfo) {o : Byte} (s : State) (h : o.getLsbD 0 = true) :
    (collected is o s).cairn.discovered = true := by
  unfold collected
  rw [if_pos h]
  dsimp only
  split <;> rfl

/-- The links of the ring are as they were. -/
theorem collected_links (is : List SyncInfo) (o : Byte) (s : State) :
    (collected is o s).ring.bUp = s.ring.bUp ∧ (collected is o s).ring.outbox = s.ring.outbox := by
  unfold collected
  dsimp only
  split <;> split <;> exact ⟨rfl, rfl⟩

theorem syncCollect_eq (is : List SyncInfo) (o : Byte) (s : State) :
    let u := collected (withOwn s is) o s
    syncCollect is o s =
      newDly ((treeDlys u)[u.ring.position.toNat]?.getD 0).toInt (sendRing u none (.dly (withOwn s is) (treeDlys u))) := rfl

theorem syncCollect_fields (is : List SyncInfo) (o : Byte) (s : State) :
    let u := syncCollect is o s
    (∃ d, u.cairn.dlyBase = d ∧ u.cairn.dlyNext = some d) ∧ (o.getLsbD 0 = true → u.cairn.discovered = true) ∧
      (s.ring.bUp = true →
        u.ring.outbox.map (·.msg) = s.ring.outbox.map (·.msg) ++ [.dly (withOwn s is) (treeDlys u)]) := by
  obtain ⟨bUp, outbox⟩ := collected_links (withOwn s is) o s
  rw [syncCollect_eq]
  refine ⟨⟨_, rfl, rfl⟩, fun h => ?_, fun hb => ?_⟩
  · exact (congrArg Cairn.discovered (sendRing_cairn ..)).trans (collected_discovered _ s h)
  · rw [sendRing_forward (bUp.trans hb)]
    refine (frameOut_outbox ..).trans ?_
    rw [outbox]
    rfl

end Sys2Proof.Machine
end

section
/-! Cairn: frames, loads of T64, missed frames, echoes, hops, tracking and SYNC_CAL (R304 to R313, R316, R399). -/

namespace Sys2Proof.Machine

/-- Settles O57: each row by whether its condition has come, and by what its effect leaves of the time, Cairn's state and the ring.
That a load is held or not at CAIRN_LOAD, what a miss moves and that every member is sent its DLY are the model's choices, log entry
36; that the windows are counted from the middle half is log entry 69. -/
theorem cairnTime : Obligations.CairnTime := by
  refine ⟨?send, fun e p s stamp h => frameValid_makeFrame e p h, ?receive, ?load, ?relaunch, ?missed, ?pulse, ?echo, ?outside,
    ?turnaround, ?returns, ?trackMember, ?trackSummit, ?syncCal, ?summitDone, ?memberDone⟩
  case send =>
    intro s hp hr hb he f
    obtain ⟨now, cairn⟩ := cairnFrameSend_fields hp hr hb he
    refine ⟨_, done_eq s (cairnFrameSendEffect s), ?_⟩
    rw [after_cairn, after_now, now, cairn]
    exact ⟨rfl, rfl, rfl, rfl, rfl, rfl⟩
  case receive =>
    intro s f reserved stamp hp hr
    refine ⟨fun hv => congrArg (done s) (cairnFrameReceive_invalid hp hr hv),
      fun hv => ⟨_, done_eq s (cairnFrameReceiveEffect f reserved stamp s), ?_⟩⟩
    rw [after_cairn]
    exact cairnFrameReceive_valid hp hr hv
  case load =>
    intro s t0 d hl hr
    refine ⟨fun h => ⟨_, done_eq s (cairnLoadEffect none s), ?_⟩, fun hd hi => ⟨_, done_eq s (cairnLoadEffect none s), ?_⟩⟩
    · obtain ⟨now, cairn, -⟩ := reported_fields (decide (d.natAbs ≤ 64) = true) (timeLoaded s d) gCAIRNSTATUS 16 0xD4 0
      rw [after_cairn, after_now, cairnLoad_moves hl hr h, now, cairn]
      exact ⟨rfl, rfl, rfl, rfl⟩
    · rw [after_cairn, after_now, cairnLoad_held hl hr hd hi]
      exact ⟨rfl, rfl, rfl, rfl⟩
  case relaunch => exact fun s t0 hl hr => congrArg (done s) (cairnRelaunch_due hl hr)
  case missed =>
    intro s hp hr hf hl
    have late : decide (s.ticks - s.cairn.lastFrame ≤ cairnTicks s.cairn.period + usTicks 1) = false :=
      decide_eq_false (Nat.not_le.mpr hl)
    exact congrArg (done s) (if_neg (by rw [hp, hr, hf, late]; decide))
  case pulse =>
    intro s parent output hp hm
    refine ⟨fun he hn free => congrArg (done s) (discoveryPulse_drives hp hm he hn free),
      fun h hr => ⟨_, done_eq s (discoveryPulseEffect parent output s), ?_⟩⟩
    rw [after_cairn, after_ring, discoveryPulse_seen hp hm h, seePulse_follower parent output hr]
    refine ⟨rfl, rfl, fun m hk => ?_⟩
    obtain ⟨m₀, rfl⟩ := modMember_same hk
    exact ⟨rfl, rfl, rfl⟩
  case echo =>
    intro s stamp hp hr hm
    exact congrArg (done s) (if_neg (by rw [hp, hr, hm]; decide))
  case outside =>
    intro s stamp parent output
    exact ⟨fun hm => congrArg (done s) (if_pos (by simp [hm])), fun hm => congrArg (done s) (if_pos (by simp [hm]))⟩
  case turnaround =>
    intro s u he hr
    refine ⟨_, done_eq s (echoTurnaroundEffect s), ?_⟩
    rw [after_cairn, echoTurnaround_due he hr]
    exact ⟨rfl, rfl⟩
  case returns =>
    intro s driven returned n sum hp hr h1 h2 hw hs hn d
    refine ⟨_, done_eq s (echoReturnEffect true driven returned s), ?_⟩
    rw [after_cairn, echoReturn_comes hp hr h1 h2 hw, hs]
    refine ⟨rfl, rfl, fun more => ?_, fun last => ?_⟩
    · dsimp only
      rw [hopStep_adds more]
      exact ⟨rfl, rfl⟩
    · dsimp only
      rw [last, hopStep_ends]
      exact ⟨rfl, rfl⟩
  case trackMember =>
    intro s e v hp hc hd ht hm hv
    obtain ⟨lower, upper, inside⟩ := clampI_bounds s.cairn.dlyBase v.toInt
    refine ⟨_, _, done_eq s (bgTrackEchoEffect e.hops e.dly s), ?_, lower, upper, inside⟩
    rw [after_cairn]
    exact bgTrackEcho_member hp hc hd ht e.hops e.dly hm hv
  case trackSummit =>
    intro s e hp hc hd ht hm he hb u
    refine ⟨_, done_eq s (bgTrackEchoEffect e.hops e.dly s), ?_⟩
    rw [after_cairn, after_ring]
    exact bgTrackEcho_summit hp hc hd ht e.hops e.dly hm he hb
  case syncCal =>
    intro s h options ha u run bad unready
    have badIff : (options.toNat % 4 = 0 ∨ (options.toNat % 4 = 2 ∧ (!u.cairn.discovered) = true)) ↔ bad := by
      simp only [bad, Bool.not_eq_true']
    have unreadyIff : ((!u.ring.enumerated) = true ∨ u.ring.twoSummit = true ∨ u.ring.state = 2) ↔ unready := by
      simp only [unready, Bool.not_eq_true']
    refine ⟨fun hm => done_command_of_body 0x59 ha rfl (if_pos (by rw [hm]; rfl)), fun hm hb => ?_, fun hm hb hu => ?_,
      fun hm hb hu => ?_⟩
    all_goals refine done_command_of_body 0x59 ha rfl ((if_neg (by rw [hm]; decide)).trans ?_)
    · exact if_pos (badIff.mpr hb)
    · exact (if_neg (mt badIff.mp hb)).trans (if_pos (unreadyIff.mpr hu))
    · exact (if_neg (mt badIff.mp hb)).trans (if_neg (mt unreadyIff.mp hu))
  case summitDone =>
    intro s l o is vals hs hl hj
    obtain ⟨longs, collects⟩ := syncCalDone_summit is vals hs hl hj
    obtain ⟨⟨d, base, next⟩, discovered, sent⟩ := syncCollect_fields is o { s with link := { s.link with longs := longs } }
    refine ⟨_, d, done_eq s (syncCalDoneEffect is vals s), ?_⟩
    rw [after_cairn, after_ring, treeDlys_after, collects]
    exact ⟨base, next, discovered, sent⟩
  case memberDone =>
    intro s is vals v hp hm he hv hl
    refine ⟨_, done_eq s (syncCalDoneEffect is vals s), ?_⟩
    rw [after_cairn, syncCalDone_member is hp hm he hv hl]
    refine ⟨rfl, rfl, fun found => ?_⟩
    rw [if_neg found]
    rfl

end Sys2Proof.Machine
end
